-- ==== Sys2Proof/Word.lean ====
section
/-! DEFINITION. The words of the block: bytes, 64-bit register words, and the sparse table in which every indexed
unit of the engine is held. -/

namespace Sys2Proof

/-- A byte of memory, of a flit or of a descriptor (00 R9). -/
abbrev Byte := BitVec 8

/-- One 64-bit register (00 Register access). -/
abbrev W64 := BitVec 64

/-- A sparse table: pairs of an index and a record, by rising index. An index that is not listed holds the unit's
reset record (Machine/Tab.lean reads and writes it). -/
abbrev Tab (α : Type) := List (Nat × α)

end Sys2Proof
end

