-- ==== Sys2Proof/Syntax.lean ====
section
/-! DEFINITION. The commands of the block: the operands they carry and the one inductive `Instr`, one constructor per
row of spec/opcode_table.json. -/

namespace Sys2Proof

/-- A request of the management port: the agent that the surroundings drive and the request identifier (12 R482). -/
structure Mgmt where
  agent : Fin 8
  id : Fin 16
  deriving DecidableEq, Repr

/-- The common part of a control-type message (12 R461). -/
structure Common where
  group : Nat
  stage : Nat
  run : Nat
  step : Nat
  entry : Nat
  deriving DecidableEq, Repr

/-- A TOKEN message (05 R209; 12 R461): the arrival of a group-wide entry at a stage, with the MARK, resume and DIGEST
fields (in part DESIGN CHOICE, log entry 20). -/
structure Token where
  src : Nat
  c : Common
  opcode : Nat
  operator : Nat
  formats : Nat
  acc : Nat
  numeric : Nat
  v : Nat
  length : Nat
  aux16 : Nat
  aux32 : Nat
  hash : W64
  change : W64
  latchStep : Nat
  latchValid : Bool
  count : Nat
  rank : Nat
  agree0 : Bool
  agree1 : Bool
  /-- the weir generation of a BARRIER (08 R330) -/
  gen : Nat
  deriving DecidableEq, Repr

/-- A HALT message (05 R213; 12 R461). -/
structure HaltMsg where
  src : Nat
  c : Common
  cause : Nat
  missing : List Nat
  deriving DecidableEq, Repr

/-- A remote SIGNAL message (08 R323). -/
structure SignalMsg where
  src : Nat
  c : Common
  counter : Nat
  sub : Bool
  amount : Nat
  n : Nat
  ref : Nat
  deriving DecidableEq, Repr

/-- An acknowledgement of a remote SIGNAL (08 R323). -/
structure AckMsg where
  src : Nat
  c : Common
  code : Nat
  ref : Nat
  deriving DecidableEq, Repr

/-- An ANSWER message (10 R388; 12 R461): bit j of `valid` covers parcel `indexBase + j`. -/
structure AnswerMsg where
  src : Nat
  c : Common
  chunk : Nat
  indexBase : Nat
  kind : Nat
  valid : Nat
  nack : Nat
  reason : Nat
  deriving DecidableEq, Repr

/-- A LEVEL_MARK message (10 R394). -/
structure LevelMsg where
  src : Nat
  c : Common
  deriving DecidableEq, Repr

/-- A RECALL message (10 R396). -/
structure RecallMsg where
  src : Nat
  c : Common
  chunk : Nat
  all : Bool
  origin : Nat
  suspect : Nat
  kind : Nat
  deriving DecidableEq, Repr

/-- The key of a twin check record (09 R368). -/
structure TwinKey where
  k : Nat
  phase : Nat
  stage : Nat
  round : Nat
  chunk : Nat
  parcel : Nat
  deriving DecidableEq, Repr

/-- A twin check record: its key and the parcel's CRC-32C (09 R368). -/
structure TwinRec where
  key : TwinKey
  crc : Nat
  deriving DecidableEq, Repr

/-- A LANDING_CREDIT message (05 R221). -/
structure CreditMsg where
  src : Nat
  c : Common
  k : Nat
  deriving DecidableEq, Repr

/-- A WITHDRAW message (11 R430). -/
structure WithdrawMsg where
  src : Nat
  c : Common
  cause : Nat
  deriving DecidableEq, Repr

/-- A parcel header (10 R376). -/
structure PHdr where
  group : Nat
  stage : Nat
  format : Nat
  kind : Nat
  skew : Bool
  poison : Bool
  rail : Bool
  last : Bool
  touch : Bool
  step : Nat
  entry : Nat
  retry : Bool
  run : Nat
  chunk : Nat
  index : Nat
  count : Nat
  crc : Nat
  residue : Nat
  deriving DecidableEq, Repr

/-- A PARCEL message: header, payload bytes, and for the rows of ALLTOALL and EXCHANGE the source row and the first
destination element of each run of elements, and for a reduction which elements nothing has contributed to (05 R190, R191), none being marked
where the list is empty (the manual gives these no wire form: assumption 20) (in part DESIGN CHOICE, log entry 20). -/
structure Parcel where
  src : Nat
  h : PHdr
  payload : List Byte
  lanes : List (Nat × Nat)
  bare : List Bool := []
  deriving DecidableEq, Repr

/-- The body of a message that the tailrace sends (12 R461). -/
inductive Body where
  | parcel (p : Parcel)
  | token (t : Token)
  | halt (m : HaltMsg)
  | signal (m : SignalMsg)
  | ack (m : AckMsg)
  | answer (m : AnswerMsg)
  | level (m : LevelMsg)
  | recall (m : RecallMsg)
  | twinRecord (rs : List TwinRec)
  | twinPair (en : Bool)
  | credit (m : CreditMsg)
  | withdraw (m : WithdrawMsg)
  | linkState (port : Nat) (up : Bool) (nonce : Nat)
  | raw (vc : Nat) (type : Nat) (bytes : List Byte)
  deriving DecidableEq, Repr

/-- A signal request on a fabric port (12 R458). -/
structure FabricSignal where
  origin : Fin 4
  requester : Fin 256
  counter : Fin 4096
  sub : Bool
  amount : BitVec 32
  tag : Fin 256
  deriving DecidableEq, Repr

/-- What the repeats of a judged fault gave (11 R421): the physical outcomes, which the surroundings supply. -/
structure Repeats where
  /-- the run on the same unit gave the right answer -/
  same : Bool
  /-- the run on the same unit without stress gave the right answer -/
  relaxed : Bool
  /-- the run on the alternative unit gave the right answer -/
  alt : Bool
  /-- the run on the same unit gave the same wrong output again -/
  again : Bool
  deriving DecidableEq, Repr

/-- A failure found by a test: the pour, the unit, and what the repeats gave (11 R421, R434). -/
structure TestFail where
  pour : Nat
  unit : Nat
  expected : Nat
  found : Nat
  pass : Nat
  rep : Repeats
  deriving DecidableEq, Repr

/-- A fault that a unit reports on the fault path (11 R414, R415). `operandsKept` tells whether the repeat buffer could
take the operands (11 R420); `passedOn` whether the parcel had already been passed on (10 R391, R396), `remote` whether another engine detected the
fault. -/
structure FaultRep where
  type : Nat
  unit : Nat
  operation : Nat
  stage : Nat
  group : Nat
  entry : Nat
  chunk : Nat
  parcel : Nat
  suspect : Nat
  s0 : Nat
  s1 : Nat
  s2 : Nat
  s3 : Nat
  rep : Repeats
  operandsKept : Bool
  passedOn : Bool
  remote : Bool
  repaired : Bool
  deriving DecidableEq, Repr

/-- An upset word that a scrubber pass reads: the bank, the word and its flipped bits among 39 (01 R34, R35). -/
structure Upset where
  bank : Fin 64
  word : Nat
  bits : List Nat
  deriving DecidableEq, Repr

/-- Where a flit is received: the port, and the RX lane group of it that shows the flit (12 R480). -/
structure RxLane where
  port : Fin 8
  lane : Fin 4
  deriving DecidableEq, Repr

/-- A received TRAIN flit (12 R465, R473). -/
structure TrainFlit where
  port : Nat
  die : Nat
  idCheck : W64
  ready : Nat
  width : Nat
  count : Nat
  deriving DecidableEq, Repr

/-- How a loss of the tally is seen (09 R349). -/
inductive TallyLossKind where
  | below
  | jump
  | stalled
  deriving DecidableEq, Repr

/-- The sense input of a strobe (12 R484, R486). -/
inductive Sense where
  | veng
  | tj
  deriving DecidableEq, Repr

/-- The commands of the block, one constructor per row of spec/opcode_table.json. -/
inductive Instr where
  | nop (q : Fin 256) (c : Nat)
  | allreduce (q : Fin 256) (c : Nat)
  | reduceScatter (q : Fin 256) (c : Nat)
  | allgather (q : Fin 256) (c : Nat)
  | broadcast (q : Fin 256) (c : Nat)
  | alltoall (q : Fin 256) (c : Nat)
  | exchange (q : Fin 256) (c : Nat)
  | rotate (q : Fin 256) (c : Nat)
  | update (q : Fin 256) (c : Nat)
  | digest (q : Fin 256) (c : Nat)
  | barrier (q : Fin 256) (c : Nat)
  | signal (q : Fin 256) (c : Nat)
  | wait (q : Fin 256) (c : Nat)
  | copy (q : Fin 256) (c : Nat)
  | mark (q : Fin 256) (c : Nat)
  | stepMark (g : Fin 4096)
  | imageSwap
  | load (m : Mgmt)
  | imageCheck
  | discard (m : Mgmt)
  | start (m : Mgmt)
  | warmReset (m : Mgmt)
  | coldReset
  | identityDerivation (r1 r2 r3 : BitVec 128)
  | managementPortReady
  | builtInSelfTest (fails : List TestFail)
  | keeperClaim (m : Mgmt)
  | claimWindowClose
  | keeperLease (m : Mgmt) (d : W64)
  | leaseLapse
  | keeperHandover (m : Mgmt) (d : W64)
  | handoverWindowClose
  | keeperFreeze (m : Mgmt) (d : W64)
  | keeperThaw (m : Mgmt) (d : W64)
  | writeWithoutOwnership (m : Mgmt) (off : BitVec 21) (d : W64)
  | registerWrite (m : Mgmt) (off : BitVec 21) (d : W64)
  | rcRead (m : Mgmt) (off : BitVec 21)
  | memberEntryWrite (m : Mgmt) (i : Fin 131072) (w : Fin 2) (d : W64)
  | enable (m : Mgmt) (q : Fin 256)
  | queueDisable (m : Mgmt) (q : Fin 256)
  | cancel (m : Mgmt) (q : Fin 256)
  | kick (m : Mgmt) (q : Fin 256)
  | queueHead (m : Mgmt) (q : Fin 256) (d : W64)
  | poll (q : Fin 256)
  | fetchBatch (q : Fin 256)
  | grant
  | launchAtCount (q : Fin 256)
  | stagingPairGrant (p : Fin 64)
  | transferIssue (i : Fin 8)
  | fabricResponse (i : Fin 8) (tag : Fin 512) (status : Fin 4) (data : List Byte)
  | fabricTimeout (i : Fin 8) (tag : Fin 512)
  | resume (m : Mgmt) (q : Fin 256)
  | entryComplete (q : Fin 256) (c : Nat)
  | headWriteback (q : Fin 256)
  | flush (m : Mgmt)
  | cacheWindowWrite (m : Mgmt) (n : Fin 8) (limit : Bool) (d : W64)
  | scrubPass (ups : List Upset)
  | groupResume (m : Mgmt) (g : Fin 4096)
  | groupHalt (m : Mgmt) (g : Fin 4096)
  | stepTimeout (g : Fin 4096)
  | dump (m : Mgmt)
  | token (t : Token)
  | halt (h : HaltMsg)
  | parcel (p : Parcel)
  | answer (a : AnswerMsg)
  | levelMark (l : LevelMsg)
  | recallMsg (r : RecallMsg)
  | remoteSignal (x : SignalMsg)
  | heldSignalApply (i : Nat)
  | signalAck (a : AckMsg)
  | busyResend (q : Fin 256) (c : Nat)
  | signalRequest (i : Fin 8) (x : FabricSignal)
  | syncValueWrite (m : Mgmt) (n : Fin 4096) (d : W64)
  | wakePulse (w : Fin 256)
  | hostMirrorWrite (n : Fin 64)
  | barrierAndRise (w : Fin 64)
  | force (m : Mgmt) (w : Fin 64)
  | landingCredit (x : CreditMsg)
  | lendOffer
  | lendGrant
  | lendReclaim
  | tallyLock (input : W64)
  | tallyLoss (kind : TallyLossKind)
  | cadenceAlign
  | twinCtrlWrite (m : Mgmt) (d : W64)
  | twinPair (src : Nat) (en : Bool)
  | twinRecord (src : Nat) (rs : List TwinRec)
  | twinDivergeLatch
  | twinAlone
  | faultReport (r : FaultRep)
  | withdraw (x : WithdrawMsg)
  | go (m : Mgmt) (d : W64)
  | wholeEngineTest (fails : List TestFail)
  | testAuto (fails : List TestFail)
  | paceWrite (m : Mgmt) (i : Fin 25) (d : W64)
  | baseMvWrite (m : Mgmt) (mv : BitVec 10)
  | clearRelief (m : Mgmt)
  | vengStep
  | vengSense
  | thermal (tj : Int)
  | senseStale (w : Sense)
  | request (m : Mgmt) (v : Bool)
  | surgeBegin
  | surgeWindowSpent
  | drawGrantFall
  | ledgerSpent
  | ledgerRecord
  | restore (m : Mgmt)
  | retrain (m : Mgmt) (n : Fin 8)
  | linkEnWrite (m : Mgmt) (n : Fin 8) (d : W64)
  | phyReady (n : Fin 8) (mask : Fin 16)
  | train (n : Fin 8) (t : TrainFlit)
  | trainAttemptFail (n : Fin 8)
  | trainBackoff (n : Fin 8)
  | calibrationComplete (n : Fin 8) (good : Fin 16)
  | phyLost (n : Fin 8) (mask : Fin 16)
  | linkSilence (n : Fin 8)
  | flit (n : RxLane) (sideband : BitVec 32) (data : List Byte)
  | nack (n : Fin 8) (ackSeq nackSeq : Fin 4096)
  | replayBackoff (n : Fin 8)
  | status (n : Fin 8) (ackSeq : Fin 4096) (credits : List (BitVec 16)) (width : Nat)
  | statusSend (n : Fin 8)
  | linkState (n : Fin 8) (src port : Nat) (up : Bool) (nonce : Nat)
  | resetRelease (dieAddr : BitVec 18)
  | budgetReturned
  | reclaimLimit
  | senseStrobe (w : Sense) (value : Int)
  | testComplete (fails : List TestFail)
  | flushDone
  | capRelease
  deriving DecidableEq, Repr

end Sys2Proof
end

