-- ==== Sys2Proof/Decode.lean ====
section
/-! DEFINITION. The command that a word spells by the table's bits. The opcode table of this hardware gives no row any bits
(its rows are the commands of a block), so no word spells a command. -/

namespace Sys2Proof

/-- The command that `nbits` bits spell: none, since no row of the table has bits (DESIGN CHOICE, log entry 3). -/
def decodeTableWord (_nbits _w : Nat) : Option Instr := none

end Sys2Proof
end

