-- ==== Sys2Proof/Config.lean ====
section
/-! DEFINITION. The values that the manual leaves open. Each is a constant without a body, applied to what it
depends on or to the count of free values taken so far (State.fresh): nothing can be proved of which value it is. -/

namespace Sys2Proof

/-- Whether a write without ownership is answered FROZEN (true) or ERROR (false) (00 R17, 02 R88)
(DESIGN CHOICE, log entry 4). -/
opaque Config.frozenAnswer : Nat → Bool

/-- Where in the 8 to 12 ms of 02 R86 a lease that started at a moment lapses before the tally is valid, as nanoseconds past
8 ms, taken modulo 4,000,001 (DESIGN CHOICE, log entry 5). -/
opaque Config.lapseSpread : Nat → BitVec 32

/-- A byte of the range written by an overlapping COPY (04 R156) (DESIGN CHOICE, log entry 6). -/
opaque Config.overlapByte : Nat → BitVec 8

/-- The change hash over the pending entries of a stage: die address, STATE and ID_CHECK of each (02 R79)
(DESIGN CHOICE, log entry 9). -/
opaque Config.changeHash : List (Nat × Nat × BitVec 64) → BitVec 64

/-- The timing key drawn from the noise source when SEEDED is clear (09 R361) (DESIGN CHOICE, log entry 10). -/
opaque Config.timingKey : Nat → BitVec 64

/-- The ECC syndrome that a double-bit error of a cistern word shows, from the flipped bits (11 R415)
(DESIGN CHOICE, log entry 11). -/
opaque Config.eccSyndrome : List Nat → BitVec 7

/-- Whether ready of a fabric port's request channel is high in a handshake, numbered from reset (12 R452): the fabric decides
(DESIGN CHOICE, log entry 14). -/
opaque Config.portReady : Nat → Nat → Bool

/-- The place that a pass of the scrubber gives a bank, from the four words of its timing draw: which bits choose the starting bank and the
bank order, and how, no rule says (01 R35; 09 R361) (DESIGN CHOICE, log entry 18). -/
opaque Config.bankPlace : List (BitVec 32) → Nat → Nat

/-- How long, in nanoseconds, a repeat of a judged fault keeps the repeat buffer busy, by the count of free values taken: no rule gives
it (11 R420, R445) (DESIGN CHOICE, log entry 31). -/
opaque Config.repeatTime : Nat → Nat

/-- Which of the lane groups in use carries a sequenced flit of a port, taken modulo their number (12 R475, R480): no rule says
(DESIGN CHOICE, log entry 33). -/
opaque Config.laneFor : Nat → Nat → Nat

end Sys2Proof
end

