-- ==== Sys2Proof/Machine/Bits.lean ====
section
/-! DEFINITION. Bit fields, little-endian bytes, the three CRCs (CRC-32C of 10 R379, CRC-64 of 13 R499, CRC-16 of
12 R459), the residue modulus of 10 R380 and the counter-based generator of 06 R244. -/

namespace Sys2Proof.Machine

/-- Bits [lo + w - 1 : lo] of a number (00 R8). -/
def bits (x lo w : Nat) : Nat := (x >>> lo) % 2 ^ w

/-- Bit `i` of a number (00 R8). -/
def bit (x i : Nat) : Bool := x.testBit i

/-- One bit as a number. -/
def b1 (b : Bool) : Nat := if b then 1 else 0

/-- A field placed at its lowest bit. -/
def at_ (v lo : Nat) : Nat := v <<< lo

/-- Saturating addition at `top` (the registers that saturate). -/
def satAdd (top a b : Nat) : Nat := min top (a + b)

/-- Round up to a multiple of 64 (07 R291). -/
def up64 (n : Nat) : Nat := (n + 63) / 64 * 64

/-- Ceiling division. -/
def cdiv (a b : Nat) : Nat := if b = 0 then 0 else (a + b - 1) / b

/-- A number from little-endian bytes (00 R9). -/
def leNat : List Byte → Nat
  | [] => 0
  | b :: t => b.toNat + 256 * leNat t

/-- The low `n` bytes of a number, little-endian (00 R9). -/
def leBytes : Nat → Nat → List Byte
  | 0, _ => []
  | n + 1, x => BitVec.ofNat 8 x :: leBytes n (x / 256)

/-- Bytes `off` to `off + n - 1` of a byte list; a byte past the end reads 0. -/
def slice (bs : List Byte) (off n : Nat) : List Byte :=
  let t := (bs.drop off).take n
  t ++ List.replicate (n - t.length) 0

/-- The little-endian field of `n` bytes at `off`. -/
def field (bs : List Byte) (off n : Nat) : Nat := leNat (slice bs off n)

/-- Read `n` bytes of a buffer from `off`. -/
def bufRead (t : Tab Byte) : Nat → Nat → List Byte
  | _, 0 => []
  | off, n + 1 => tabGet (fun _ => 0) t off :: bufRead t (off + 1) n

/-- Write bytes into a buffer from `off`. -/
def bufWrite (t : Tab Byte) : Nat → List Byte → Tab Byte
  | _, [] => t
  | off, b :: bs => bufWrite (tabSet (fun _ => 0) t off b) (off + 1) bs

/-- One bit step of the reflected CRC-32C register. -/
def crc32cBit (c : BitVec 32) : BitVec 32 :=
  if c.getLsbD 0 then (c >>> 1) ^^^ 0x82F63B78#32 else c >>> 1

/-- One byte of CRC-32C. -/
def crc32cByte (c : BitVec 32) (b : Byte) : BitVec 32 :=
  let c := c ^^^ (b.setWidth 32)
  crc32cBit (crc32cBit (crc32cBit (crc32cBit (crc32cBit (crc32cBit (crc32cBit (crc32cBit c)))))))

/-- CRC-32C (10 R379). -/
def crc32c (bs : List Byte) : Nat := ((bs.foldl crc32cByte 0xFFFFFFFF#32) ^^^ 0xFFFFFFFF#32).toNat

/-- One bit step of the CRC-64 register. -/
def crc64Bit (c : BitVec 64) : BitVec 64 :=
  if c.getLsbD 63 then (c <<< 1) ^^^ 0x42F0E1EBA9EA3693#64 else c <<< 1

/-- One byte of CRC-64. -/
def crc64Byte (c : BitVec 64) (b : Byte) : BitVec 64 :=
  let c := c ^^^ ((b.setWidth 64) <<< 56)
  crc64Bit (crc64Bit (crc64Bit (crc64Bit (crc64Bit (crc64Bit (crc64Bit (crc64Bit c)))))))

/-- CRC-64 with the ECMA-182 polynomial (13 R499). -/
def crc64 (bs : List Byte) : W64 := bs.foldl crc64Byte 0

/-- One bit step of the CRC-16 register. -/
def crc16Bit (c : BitVec 16) : BitVec 16 :=
  if c.getLsbD 15 then (c <<< 1) ^^^ 0x1021#16 else c <<< 1

/-- One byte of CRC-16. -/
def crc16Byte (c : BitVec 16) (b : Byte) : BitVec 16 :=
  let c := c ^^^ ((b.setWidth 16) <<< 8)
  crc16Bit (crc16Bit (crc16Bit (crc16Bit (crc16Bit (crc16Bit (crc16Bit (crc16Bit c)))))))

/-- CRC-16 of a flit (12 R459). -/
def crc16 (bs : List Byte) : Nat := (bs.foldl crc16Byte 0xFFFF#16).toNat

/-- The residue modulus p = 2^61 - 1 (10 R380). -/
def residueP : Nat := 2 ^ 61 - 1

/-- Rotate a 64-bit word left by one (10 R405). -/
def rotl64 (x : W64) : W64 := x.rotateLeft 1

/-- The four words of the generator's state (06 R244). -/
structure Draw where
  x0 : BitVec 32
  x1 : BitVec 32
  x2 : BitVec 32
  x3 : BitVec 32
  deriving DecidableEq, Repr

/-- One round of the generator (06 R244). -/
def drawRound (x : Draw) : Draw :=
  let a := x.x0 + x.x1
  let d := (x.x3 ^^^ a).rotateLeft 16
  let c := x.x2 + d
  let b := (x.x1 ^^^ c).rotateLeft 12
  let a := a + b
  let d := (d ^^^ a).rotateLeft 8
  let c := c + d
  let b := (b ^^^ c).rotateLeft 20
  ⟨a, b, c, d⟩

/-- The generator: four words from a key and a counter (06 R244). -/
def draw (key : W64) (c0 c1 c2 c3 : Nat) : Draw :=
  let k0 : BitVec 32 := key.setWidth 32
  let k1 : BitVec 32 := (key >>> 32).setWidth 32
  let x : Draw := ⟨BitVec.ofNat 32 c0 + k0, BitVec.ofNat 32 c1 ^^^ 0x5A3C96E1#32, BitVec.ofNat 32 c2 + k1,
    BitVec.ofNat 32 c3 ^^^ 0xC3A50F69#32⟩
  let x := drawRound (drawRound x)
  let x : Draw := ⟨x.x0 + k1, x.x1, x.x2 + k0, x.x3⟩
  drawRound (drawRound x)

/-- Word `i mod 4` of a draw (06 R245). -/
def drawWord (x : Draw) (i : Nat) : Nat :=
  match i % 4 with
  | 0 => x.x0.toNat
  | 1 => x.x1.toNat
  | 2 => x.x2.toNat
  | _ => x.x3.toNat

/-- The rounding draw of element `i` (06 R243, R245). -/
def elementDraw (key : W64) (i entry step group use position : Nat) : Nat :=
  drawWord (draw key (i >>> 12) ((i >>> 2) % 1024 + at_ (entry % 65536) 10) step
    (group % 4096 + at_ use 12 + at_ position 14)) i

/-- The refiner's draw for element `i` (07 R279). -/
def refinerDraw (key : W64) (i entry step group : Nat) : Draw :=
  draw key (i >>> 10) (i % 1024 + at_ (entry % 65536) 10) step (group % 4096 + at_ 1 12)

end Sys2Proof.Machine
end

