-- ==== Sys2Proof/Machine/State.lean ====
section
/-! DEFINITION. The state of the block as plain data: every register, table, buffer, queue and wire that the spec gives
one engine, the reasons a command can stop, and the state at cold reset. Field names follow the manual's register
fields; INVENTORY.md lists each with its rule and its reset value. -/

namespace Sys2Proof.Machine

/-- The reasons a command ends in a fault. -/
inductive Fault where
  /-- Raised by a meaning whose command carries operands that no event of this hardware can carry (a flit that is not
  64 bytes, a message field wider than its wire). Safe: the block never sees such an event. -/
  | illFormed (what : String)
  deriving DecidableEq, Repr

/-- The reasons a command is refused. -/
inductive Refusal where
  /-- The command has no meaning in this model. Safe: nothing is claimed of it. -/
  | notModelled (mnemonic : String)
  deriving DecidableEq, Repr

/-! ### The image (02 R54-R65) -/

/-- A group record (02 R60, 13 R501); all zeros is the record of a group that is not valid. -/
structure GroupRec where
  group : Nat := 0
  valid : Bool := false
  keepStep : Bool := false
  flow : Bool := false
  stageMask : Nat := 0
  autoEvict : Bool := false
  memberBase : Nat := 0
  peers1 : Nat := 0
  peers2 : Nat := 0
  peers3 : Nat := 0
  peers4 : Nat := 0
  memberCount : Nat := 0
  minMembers : Nat := 0
  maxMembers : Nat := 0
  pumpMask : Nat := 0
  partition : Nat := 0
  refinerRow : Nat := 0
  schedule : Nat := 0
  guardSet : Nat := 0
  queue : Nat := 0
  replayPlace : Nat := 0
  stepInit : Nat := 0
  footprint : Nat := 0
  replayBytes : Nat := 0
  timeoutUs : Nat := 0
  lagKib : Nat := 0
  roster : Nat := 0
  deriving DecidableEq, Repr

/-- A member entry or roster record (02 R61). `afterQ` remembers that an ADMIT entry came from QUARANTINE (02 R92). -/
structure Member where
  dieAddr : Nat := 0
  stage : Nat := 0
  state : Nat := 0
  rank : Nat := 0
  idCheck : W64 := 0
  afterQ : Bool := false
  deriving DecidableEq, Repr

/-- A stage record of the topology (02 R59). -/
structure StageTopo where
  stage : Nat := 0
  small : Nat := 0
  large : Nat := 0
  ports : Nat := 0
  threshold : Nat := 0
  deriving DecidableEq, Repr

/-- A cistern-map record (02 R63). -/
structure CisternRec where
  partition : Nat := 0
  baseBank : Nat := 0
  banks : Nat := 0
  kind : Nat := 0
  owner : Nat := 0
  deriving DecidableEq, Repr

/-- A queue-map record (02 R64, 03 R138). -/
structure QueueRec where
  queue : Nat := 0
  weight : Nat := 0
  burst : Nat := 0
  agent : Nat := 0
  comm : Bool := false
  group : Nat := 0
  tagReserve : Nat := 0
  deriving DecidableEq, Repr

/-- The formats section (02, formats; 06 R270). -/
structure FormatsRec where
  enable : Nat := 0
  strict : Nat := 0
  round : Nat := 0
  seed : W64 := 0
  block : Nat := 0
  dir : Nat := 0
  deriving DecidableEq, Repr

/-- A guard set (02, guard set; 10 R385). -/
structure GuardRec where
  l1 : Nat := 0
  l2 : Nat := 0
  l3 : Nat := 0
  l4 : Nat := 0
  digestD : Nat := 0
  deriving DecidableEq, Repr

/-- A refiner row: ten FP32 coefficients and the format and flag word (07 R302). -/
structure RowRec where
  a1 : Nat := 0
  a2 : Nat := 0
  b1 : Nat := 0
  b2 : Nat := 0
  beta1 : Nat := 0
  beta2 : Nat := 0
  eps : Nat := 0
  c1 : Nat := 0
  c2 : Nat := 0
  c3 : Nat := 0
  stateFmt : Nat := 0
  blockScaled : Bool := false
  biasCorrect : Bool := false
  embedding : Bool := false
  block : Nat := 0
  weightFmt : Nat := 0
  deriving DecidableEq, Repr

/-- A schedule (07 R303). -/
structure SchedRec where
  etaPeak : Nat := 0
  etaFloor : Nat := 0
  warmup : Nat := 0
  decay : Nat := 0
  horizon : Nat := 0
  gamma : Nat := 0
  period : Nat := 0
  restart : Nat := 0
  deriving DecidableEq, Repr

/-- A proof-pour index record (02, proof pour index). -/
structure PourRec where
  id : Nat := 0
  target : Nat := 0
  offset : Nat := 0
  length : Nat := 0
  answer : Nat := 0
  deriving DecidableEq, Repr

/-- An Ulfin image as the engine holds it (02 R54-R65). -/
structure Image where
  anchor : Nat := 0
  hash : W64 := 0
  dieMemory : Nat := 0
  forbidV : Bool := false
  cadence : Bool := false
  seeded : Bool := false
  stages : List StageTopo := []
  groups : List GroupRec := []
  roster : List Member := []
  cisterns : List CisternRec := []
  queues : List QueueRec := []
  formats : FormatsRec := {}
  guards : List GuardRec := []
  rows : List RowRec := []
  scheds : List SchedRec := []
  pours : List PourRec := []
  pourBytes : List Byte := []
  splitRead : Nat := 0
  splitWrite : Nat := 0
  splitRemote : Nat := 0
  deriving DecidableEq, Repr

/-! ### Management plane -/

/-- A response of the management port (12 R482): STATUS 0 OK, 1 ERROR, 2 FROZEN. -/
structure Resp where
  id : Nat
  agent : Nat
  status : Nat
  data : W64
  deriving DecidableEq, Repr

/-- Reset, bring-up, identity and the management port (02 R90-R95; 13 R497-R500). -/
structure MgmtSt where
  released : Bool := false
  releasedAt : Nat := 0
  portReady : Bool := false
  resp : Option Resp := none
  selfTestDone : Bool := false
  dieAddr : Nat := 0
  idLo : W64 := 0
  idHi : W64 := 0
  idDerived : Bool := false
  deriving DecidableEq, Repr

/-- KEEPER_STATE.OWNERSHIP (02 R84). -/
inductive Ownership where
  | unowned
  | contest
  | owned
  | handover
  deriving DecidableEq, Repr

/-- KEEPER_STATE.PHASE (02 R84). -/
inductive Phase where
  | noImage
  | lowWater
  | full
  deriving DecidableEq, Repr

/-- The keeper's election and freezes (02 R84-R89; 13 R504, R505). An agent is frozen while its cause is not 0. -/
structure KeeperSt where
  ownership : Ownership := .unowned
  owner : Nat := 0
  successor : Nat := 0
  claimants : List Nat := []
  claimAt : Nat := 0
  handoverAt : Nat := 0
  leaseAt : Nat := 0
  leaseValue : W64 := 0
  causes : Tab Nat := []
  phase : Phase := .noImage
  idFail : Bool := false
  quarantine : Bool := false
  deriving DecidableEq, Repr

/-- IMAGE_STATUS.LOADER (02 R66). -/
inductive Loader where
  | idle
  | loading
  | staged
  | refused
  deriving DecidableEq, Repr

/-- The image loader and the two banks (02 R66-R75; 13 R506, R507). `bytes` is what the fetch has brought; `swapping`
holds the image a commit point has chosen until the started operations have drained (01 R28). -/
structure ImageSt where
  base : Nat := 0
  len : Nat := 0
  loader : Loader := .idle
  hashMismatch : Bool := false
  unparked : Bool := false
  refusal : Nat := 0
  section_ : Nat := 0
  deferrals : Nat := 0
  index : Nat := 0
  bytes : Tab Byte := []
  fetchId : Nat := 0
  headerDone : Bool := false
  staged : Option Image := none
  active : Option Image := none
  swapping : Option Image := none
  deriving DecidableEq, Repr

/-! ### Queues, descriptors and operations -/

/-- A descriptor (03 R107), its fields decoded; `bad` holds when a reserved bit of the layout is 1. -/
structure Desc where
  opcode : Nat := 0
  v : Bool := false
  fence : Bool := false
  notify : Bool := false
  launchAt : Bool := false
  group : Nat := 0
  noGroup : Bool := false
  agent : Nat := 0
  operator : Nat := 0
  inFmt : Nat := 0
  outFmt : Nat := 0
  round : Nat := 0
  strict : Bool := false
  acc : Nat := 0
  block : Nat := 0
  dir : Nat := 0
  override : Bool := false
  aux16 : Nat := 0
  sync : Nat := 0
  cookie : Nat := 0
  src : Nat := 0
  dst : Nat := 0
  length : Nat := 0
  aux32 : Nat := 0
  aux64 : Nat := 0
  launch : Nat := 0
  bad : Bool := false
  own : Bool := false
  deriving DecidableEq, Repr

/-- A fetched entry that has not started (03 R115). -/
structure Buffered where
  count : Nat
  desc : Desc
  checked : Bool := false
  map : Option (List Byte) := none
  deriving DecidableEq, Repr

/-- An outstanding descriptor batch (03 R116). -/
structure Batch where
  id : Nat
  start : Nat
  entries : Nat
  data : Tab Byte := []
  left : Nat
  deriving DecidableEq, Repr

/-- QUEUE_STATUS.STATE (03 R127). -/
inductive QState where
  | disabled
  | running
  | draining
  | error
  | halted
  | absent
  deriving DecidableEq, Repr

/-- The resume record (04 R181). -/
structure ResumeRec where
  entry : Nat := 0
  valid : Bool := false
  write : Bool := false
  multi : Bool := false
  paused : Nat := 0
  faults : Nat := 0
  siphon : Nat := 0
  addr : Nat := 0
  rpos : Nat := 0
  wpos : Nat := 0
  tally : Nat := 0
  deriving DecidableEq, Repr

/-- The AMAX register of a queue (06 R273). -/
structure AmaxRec where
  amax : Nat := 0
  cookie : Nat := 0
  valid : Bool := false
  nan : Bool := false
  inf : Bool := false
  deriving DecidableEq, Repr

/-- A NOTIFY signal that follows a completion record which is on its way (03 R111). -/
structure NotifyDue where
  count : Nat
  counter : Nat
  noGroup : Bool
  group : Nat
  deriving DecidableEq, Repr

/-- A work queue (03 R100-R138; 04 R181; 06 R273). `holding` is the count of the started entry that holds later entries
until its completion is visible (R113). -/
structure QueueSt where
  base : Nat := 0
  log2 : Nat := 4
  wake : Nat := 0
  wakeEn : Bool := false
  poll : Nat := 0x20
  enable : Bool := false
  head : Nat := 0
  fetch : Nat := 0
  state : QState := .absent
  cause : Nat := 0
  errIndex : Nat := 0
  wbEn : Bool := false
  wbAddr : Nat := 0
  wbDirty : Bool := false
  wbAt : Nat := 0
  grants : Nat := 0
  map : QueueRec := {}
  buffered : List Buffered := []
  batch : Option Batch := none
  batchId : Nat := 0
  lastFilled : Bool := true
  pollAt : Nat := 0
  finished : List Nat := []
  failedWb : List Nat := []
  holding : Option Nat := none
  notify : List NotifyDue := []
  mapId : Nat := 0
  mapLeft : Nat := 0
  mapBuf : Tab Byte := []
  resume : ResumeRec := {}
  amax : AmaxRec := {}
  deriving DecidableEq, Repr

/-- The region of memory that a payload transfer of an entry serves. -/
inductive Region where
  | src
  | mask
  | rowMap
  | header
  | state
  | window
  | probe
  | forward
  deriving DecidableEq, Repr

/-- What a fabric transfer is for (04 R143; 12 R457). -/
inductive Purpose where
  | fetch (q : Nat) (id : Nat) (off : Nat)
  | staticMap (q : Nat) (c : Nat) (id : Nat) (off : Nat)
  | payload (q : Nat) (c : Nat) (r : Region) (off : Nat)
  | result (q : Nat) (c : Nat) (off : Nat)
  | stateWrite (q : Nat) (c : Nat) (unit : Nat)
  | headerWrite (q : Nat) (c : Nat) (unit : Nat)
  | record (q : Nat) (c : Nat)
  | headWb (q : Nat)
  | mirror (n : Nat)
  | recallRec (gen : Nat)
  | faultRec (gen : Nat)
  | ledger
  | dump
  | replaySlot (g step : Nat)
  | image (id : Nat) (off : Nat)
  deriving DecidableEq, Repr

/-- A fabric transfer (04 R139; 12 R453): class 0 READ, 1 WRITE, 2 REMOTE, 3 fault path; `queue` is 256 for the image
fetch and 257 for the engine's own records; `reserved` tells that its tag is of a reservation, and `lender` whose it is where
the tag was lent (04 R149); `fill` marks the read whose block also goes into the cache (R159). -/
structure Xfer where
  cls : Nat
  pur : Purpose
  addr : Nat
  len : Nat
  data : List Byte := []
  queue : Nat
  reserved : Bool := false
  lender : Option Nat := none
  fill : Bool := false
  at_ : Nat := 0
  deriving DecidableEq, Repr

/-- A vector of elements in an accumulation or storage format: raw encodings, the scale bytes of a block-scaled format,
the touch bits of an embedding UPDATE (10 R375), and which elements nothing has contributed to (05 R190), none where empty. -/
structure PV where
  els : List Nat := []
  scales : List Nat := []
  touch : List Bool := []
  bare : List Bool := []
  deriving DecidableEq, Repr

/-- A received parcel that has passed its checks, in order of arrival. -/
structure RxParcel where
  h : PHdr
  src : Nat
  pv : PV
  lanes : List (Nat × Nat) := []
  deriving DecidableEq, Repr

/-- Which parcel has been sent where: KIND, chunk, index and the receiver's position, and the phase, since the pre-pass and a DIGEST
send both ways under one KIND (10 R377). -/
structure SentKey where
  kind : Nat
  chunk : Nat
  idx : Nat
  dst : Nat
  up : Bool := false
  deriving DecidableEq, Repr

/-- A parcel that the sender keeps until it is acknowledged (10 R389); `fan` is the stage code of the fan-out it belongs
to, 0 for none (05 R215). `operands` is the bytes of the operands that a combiner keeps for it, `pump` the pump that formed it and
`turned` whether its lanes were rotated (10 R391); `due` holds while a repair of it waits for lent budget to come back (08 R322). -/
structure Kept where
  dest : Nat
  p : Parcel
  fan : Nat := 0
  operands : Nat := 0
  pump : Nat := 0
  turned : Bool := false
  due : Bool := false
  deriving DecidableEq, Repr

/-- The collective state of a started group-wide entry (05 R193-R207; 07 R298, R299): the parcels received, those sent,
the stages reached, the pieces written to DST, the chunks finished here, the own sums whose residue has been compared (10 R382), the agreed pre-pass bytes, the foreign step value seen
and the owned element from which nothing is applied since. What a member
forms is a function of these and its input. -/
structure Coll where
  rx : List RxParcel := []
  sent : List SentKey := []
  reached : List Nat := []
  wrote : List (Nat × Nat) := []
  finals : List Nat := []
  sums : List (Nat × Nat) := []
  pre : Option (List Nat) := none
  skew : Option Nat := none
  skewFrom : Nat := 0
  skewMarked : Bool := false
  deriving DecidableEq, Repr

/-- The arrivals seen at one stage of an entry (05 R210). -/
structure SlowRec where
  stage : Nat
  first : Nat := 0
  last : Nat := 0
  die : Nat := 0
  arrived : List Nat := []
  deriving DecidableEq, Repr

/-- The pause of an entry on a page fault (04 R165-R167). -/
structure Pause where
  faulted : List Xfer := []
  addr : Nat := 0
  siphon : Nat := 0
  write : Bool := false
  rpos : Nat := 0
  wpos : Nat := 0
  tally : Nat := 0
  deriving DecidableEq, Repr

/-- A remote SIGNAL in flight (08 R323-R325). -/
structure RemoteSig where
  ref : Nat
  step : Nat
  n : Nat
  busyAt : Option Nat := none
  deriving DecidableEq, Repr

/-- The state of a started ROTATE (05 R219-R223): the steps K, the highest block the successor has room for, the parcels
(block, index) whose landing writes are acknowledged and those whose forward reads have been asked for, the blocks that have landed, been forwarded and been released, and
the highest block whose credit has been given back. -/
structure RotateSt where
  total : Nat := 0
  credits : Nat := 2
  got : List (Nat × Nat) := []
  fwd : List (Nat × Nat) := []
  landedK : Nat := 0
  forwarded : Nat := 0
  released : Nat := 0
  credited : Nat := 0
  deriving DecidableEq, Repr

/-- The work of the refiner on a commit unit (07 R293). -/
inductive UnitPhase where
  | idle
  | writing
  | header
  deriving DecidableEq, Repr

/-- What the refiner has formed of a commit unit: its writes, and its elements updated and skipped (07 R293). -/
structure UnitSt where
  writes : List (Nat × List Byte) := []
  updated : Nat := 0
  skipped : Nat := 0
  deriving DecidableEq, Repr

/-- The refiner's progress through a member's state block (07 R289-R294): the header read, the unit that is written or comes next to
be, the owned elements formed so far with their encodings in OUT_FMT and scale bytes, the touched rows among them, whether the state
of the next parcel has been asked for, the unit being formed, the units that are whole and wait to be written, and whether a write of
the unit that is written has been issued. -/
structure UpdateSt where
  headerDue : Bool := false
  headerRead : Bool := false
  hdrStep : Nat := 0
  hdrUpto : Nat := 0
  unit : Nat := 0
  phase : UnitPhase := .idle
  upto : Nat := 0
  formed : Nat := 0
  out : Tab (Nat × Nat) := []
  touched : List Nat := []
  reading : Bool := false
  forming : UnitSt := {}
  units : List UnitSt := []
  issued : Bool := false
  tornDue : Bool := false
  deriving DecidableEq, Repr

/-- Whether an operation holds a staging pair (04 R150, R151). -/
inductive PairSt where
  | none
  | waiting
  | held
  deriving DecidableEq, Repr

/-- A started operation in its execution slot (01 R23). `running` holds once the data plane has taken it from the
dispatch queue; `ended` is the status of an early end; `ready` holds when the operation has produced everything;
`fed` holds once an output element here is known to have a contribution (05 R191); `alone` while it waits only on what is here,
its reads, a pair or a release, and on no peer (05 R212); `probeAt` is the header of a memory-placed window
slot that is being read, with the records left (10 R404); `missed` is the stage and the peer that a timeout found missing (05 R211, R226). `slot` is the number of
the staging pair in its partition, `stPair` and `stSlot` those of an UPDATE's stream of weights and optimizer state, `keeps` those of further pairs that hold kept parcels and operands, and `wants` holds while
another is asked for (04 R150, R151; 05 R218). An input larger than a pair is not read `whole`: `inBase` is where it stands, `asked`
the ranges asked for so far, in `halves` halves, and `allAsked` whether that is all (R152). `waitBytes` is what has arrived for it
while it was paused (R170). -/
structure Op where
  q : Nat
  c : Nat
  desc : Desc
  num : Nat := 0xFFFF
  run : Nat := 0
  step : Nat := 0
  key : W64 := 0
  running : Bool := false
  ended : Option Nat := none
  ready : Bool := false
  settled : Bool := false
  partition : Nat := 0
  pair : PairSt := .none
  slot : Nat := 0
  stPair : PairSt := .none
  stSlot : Nat := 0
  keeps : List Nat := []
  wants : Bool := false
  whole : Bool := true
  inBase : Nat := 0
  asked : List (Nat × Nat) := []
  halves : Nat := 0
  /-- bytes of a dynamic map that have been asked for (04 R152; 05 R199) -/
  mapAsked : Nat := 0
  allAsked : Bool := false
  waitBytes : Nat := 0
  map : List Byte := []
  inBuf : Tab Byte := []
  maskBuf : Tab Byte := []
  mapBuf : Tab Byte := []
  stBuf : Tab Byte := []
  fwdBuf : Tab Byte := []
  acked : List (Nat × Nat) := []
  pause : Option Pause := none
  pauses : Nat := 0
  resumed : Bool := false
  satEls : List Nat := []
  flushEls : List Nat := []
  spill : Nat := 0
  fed : Bool := false
  alone : Bool := false
  lag : Bool := false
  amax : Option AmaxRec := none
  slow : List SlowRec := []
  missed : Option (Nat × Nat) := none
  coll : Coll := {}
  sig : Option RemoteSig := none
  bar : Nat := 0
  rot : RotateSt := {}
  upd : UpdateSt := {}
  kept : List Kept := []
  paced : List Nat := []
  sentParcel : Bool := false
  wroteResult : Bool := false
  marksHeld : List (Nat × Nat) := []
  marksSent : List Nat := []
  digest : Tab Byte := []
  stOut : Tab Byte := []
  stored : Bool := false
  record : Option Nat := none
  windowHit : Option Nat := none
  probeAt : Option (Nat × Nat) := none
  probeBuf : Tab Byte := []
  deriving DecidableEq, Repr

/-- The sluice (03 R119): the round under way, its credits, the queue visited and the grants of this visit; and the queues whose oldest
entry, of the ring count beside it, nothing but its LAUNCH count has held since before that count passed (09 R355). -/
structure SluiceSt where
  last : Nat := 255
  active : Bool := false
  credits : Tab Nat := []
  cur : Nat := 0
  burst : Nat := 0
  counting : List (Nat × Nat) := []
  deriving DecidableEq, Repr

/-! ### Groups -/

/-- GROUP_SLOW of one stage (05 R226). -/
structure SlowReg where
  die : Nat := 0
  wait : Nat := 0
  rep : Nat := 0
  missing : Nat := 0
  deriving DecidableEq, Repr

/-- A pending member change as a weir carries it (02 R79). -/
structure PendRec where
  stage : Nat
  dieAddr : Nat
  state : Nat
  idCheck : W64
  deriving DecidableEq, Repr

/-- The MARK or resume weir of this member (02 R77-R83): the staged hash and the pending changes that its tokens carry, whether
this engine is present once they take effect, and, from the commit point on, the step counter and the run that follow. -/
structure MarkSt where
  resume : Bool := false
  si : Nat := 0
  agree0 : Bool := true
  agree1 : Bool := true
  hash : W64 := 0
  pend : List PendRec := []
  here : Bool := true
  complete : Bool := false
  committed : Option (Nat × Nat) := none
  deriving DecidableEq, Repr

/-- A record of a replay window slot (10 R403); `bad` marks one of which a word has been lost (01 R34). -/
structure WindowRec where
  entry : Nat
  opcode : Nat
  bytes : List Byte
  crc : Nat
  at_ : Nat := 64
  bad : Bool := false
  deriving DecidableEq, Repr

/-- A replay window slot (10 R401-R403): `used` counts the bytes given to records, those that have not landed among them; the records
are those that have, by their place. -/
structure Slot where
  step : Nat := 0
  used : Nat := 0
  short : Bool := false
  valid : Bool := false
  records : List WindowRec := []
  deriving DecidableEq, Repr

/-- An entry of a group that has completed and is not yet settled, whether it is an UPDATE, and its level marks (07 R299; 10
R393-R395). -/
structure OpenEntry where
  num : Nat
  count : Nat
  upd : Bool := false
  held : List (Nat × Nat) := []
  sent : List Nat := []
  deriving DecidableEq, Repr

/-- A group-wide entry of the step that has completed: its number, its ring count, and the values that a message about it is compared
with (03 R133; 10 R400). -/
structure DoneEntry where
  num : Nat
  count : Nat
  tok : Token
  deriving DecidableEq, Repr

/-- What the engine keeps for one group. -/
structure GroupSt where
  gr : GroupRec := {}
  halted : Bool := false
  haltCause : Nat := 0
  rebalance : Bool := false
  memberDisagree : Bool := false
  lag : Bool := false
  stepSkew : Bool := false
  full : Bool := false
  lagDie : Nat := 0
  lagStage : Nat := 0
  slow1 : SlowReg := {}
  slow2 : SlowReg := {}
  slow3 : SlowReg := {}
  slow4 : SlowReg := {}
  step : Nat := 0
  fill : Nat := 0
  fillStaged : Option Nat := none
  eta : Nat := 0
  etaStep : Nat := 0
  k1 : Nat := 0
  k2 : Nat := 0
  row : Option RowRec := none
  skewSeen : Nat := 0
  skewDie : Nat := 0
  skewValid : Bool := false
  run : Nat := 0
  /-- steps that ended in a run other than 0, with that run (08 R325; 10 R378) -/
  pastRuns : List (Nat × Nat) := []
  short : Bool := false
  digestValid : Bool := false
  digestStep : Nat := 0
  digest : W64 := 0
  stepDigest : W64 := 0
  digestParts : List (Nat × W64) := []
  replayEn : Bool := false
  replayAddr : Nat := 0
  replayStaged : Option (Bool × Nat) := none
  slot0 : Slot := {}
  slot1 : Slot := {}
  gen : Nat := 0
  genActive : Bool := false
  genMisuse : Bool := false
  entryNo : Nat := 0
  /-- the completed group-wide entries of the step -/
  doneNums : List DoneEntry := []
  timerAt : Option Nat := none
  marking : Option MarkSt := none
  markOp : Option (Nat × Nat) := none
  /-- the tokens received and the moment of each (05 R209) -/
  toks : List (Nat × Token) := []
  early : List Parcel := []
  earlyMarks : List LevelMsg := []
  openEntries : List OpenEntry := []
  /-- the recalls acted on: step, run, entry and chunk (10 R397) -/
  recalls : List (Nat × Nat × Nat × Nat) := []
  /-- the withdrawals taken: sender, step and run (11 R430) -/
  withdrawn : List (Nat × Nat × Nat) := []
  /-- the warden raises the resume mark once the group is halted (11 R430) -/
  resumeDue : Bool := false
  parked : Bool := false
  deriving DecidableEq, Repr

/-! ### Siphons and the shared read cache -/

/-- A request on a fabric port (12 R453): bit `i` of `granules` asks for the 64 B granule `i`, bit `b` of `mask` enables byte `b` of the
256 B block, and `data` is the block of a write. -/
structure FabricReq where
  kind : Nat
  tag : Nat
  addr : Nat
  granules : Nat
  mask : Nat
  cls : Nat
  data : List Byte
  deriving DecidableEq, Repr

/-- A siphon and its fabric port, with the request it issued last (04 R140-R149, R176; 12 R456, R457, R489). `offered` is the tag of
a request that the port holds off, `shakes` counts the handshakes of the request channel, and `refusedAt` is the last one in
which ready was low (12 R452). -/
structure SiphonSt where
  waiting : List Xfer := []
  out : List (Nat × Xfer) := []
  /-- tags whose response has timed out, each with the transfer that holds it (12 R456) -/
  lost : List (Nat × Xfer) := []
  req : Option FabricReq := none
  offered : Option Nat := none
  shakes : Nat := 0
  refusedAt : Option Nat := none
  credR : Int := 0
  credW : Int := 0
  credM : Int := 0
  rrRes : Nat := 0
  rrR : Nat := 0
  rrW : Nat := 0
  rrM : Nat := 0
  errors : Nat := 0
  faults : Nat := 0
  stray : Nat := 0
  dropped : Nat := 0
  linkRecAt : Option Nat := none
  deriving DecidableEq, Repr

/-- A line of the read cache (04 R158). -/
structure CacheLine where
  block : Nat
  data : List Byte
  deriving DecidableEq, Repr

/-- A fill in flight: the block, the tag whose response brings it, the transfers that wait for it and whether its data
may still be installed (04 R160, R161). -/
structure Fill where
  block : Nat
  tag : Nat
  waiters : List Xfer := []
  install : Bool := true
  deriving DecidableEq, Repr

/-- A cache window (04 R179); BASE and LIMIT count 4 KiB pages. -/
structure Window where
  en : Bool := false
  stepFlush : Bool := false
  base : Nat := 0
  group : Nat := 0
  limit : Nat := 0
  deriving DecidableEq, Repr

/-- The shared read cache and STREAM_NOTIFY (04 R158-R164, R178-R180). -/
structure CacheSt where
  lines : List CacheLine := []
  fills : List Fill := []
  hits : Nat := 0
  misses : Nat := 0
  flushing : Bool := false
  windows : Tab Window := []
  notifySync : Nat := 0
  notifyEn : Bool := false
  deriving DecidableEq, Repr

/-! ### Sync unit -/

/-- A sync counter (08 R340, R341). `wakeX` is its wake wire less n mod 256, so that a counter at reset is the record
of zeros. -/
structure Counter where
  value : Nat := 0
  sat : Bool := false
  under : Bool := false
  leftover : Bool := false
  bind : Nat := 0
  bound : Bool := false
  check : Bool := false
  mirror : Bool := false
  wakeX : Nat := 0
  rest : Nat := 0
  lastDie : Nat := 0
  lastKind : Nat := 0
  lastSource : Nat := 0
  lastIgnored : Bool := false
  lastTally : Nat := 0
  mirrorDirty : Bool := false
  mirrorAt : Nat := 0
  deriving DecidableEq, Repr

/-- A parked waiter: a WAIT, or the release wait of a ROTATE (08 R310). -/
structure Waiter where
  counter : Nat
  q : Nat
  c : Nat
  threshold : Nat
  consume : Bool
  rotate : Bool
  tally : Nat
  deriving DecidableEq, Repr

/-- A barrier wire (08 R326, R342). `input` is the input bit of an engine that takes part. -/
structure Weir where
  engine : Bool := false
  bound : Bool := false
  group : Nat := 0
  gen : Nat := 0
  sense : Bool := false
  and_ : Bool := false
  input : Bool := false
  misuse : Bool := false
  lastTally : Nat := 0
  deriving DecidableEq, Repr

/-- A held remote signal (08 R323, R339). -/
structure Held where
  m : SignalMsg
  tally : Nat
  deriving DecidableEq, Repr

/-- The sync unit (08 R306-R346). -/
structure SyncSt where
  counters : Tab Counter := []
  waiters : List Waiter := []
  weirs : Tab Weir := []
  held : List Held := []
  satSeen : Bool := false
  underSeen : Bool := false
  weirMisuse : Bool := false
  refused : Bool := false
  refCounter : Nat := 0
  refKind : Nat := 0
  refDie : Nat := 0
  refSource : Nat := 0
  refReason : Nat := 0
  chkGroup : Nat := 0
  chkObject : Nat := 0
  chkWire : Bool := false
  chkValid : Bool := false
  chkDiffs : Nat := 0
  dumpEn : Bool := false
  dumpAddr : Nat := 0
  dumpFull : Bool := false
  dumpBusy : Bool := false
  /-- a write of the present dump has failed -/
  dumpBroken : Bool := false
  dumpFailed : Bool := false
  dumpMissed : Nat := 0
  mirrorEn : Bool := false
  mirrorFailed : Bool := false
  mirrorBase : Nat := 0
  lendEn : Bool := false
  lent : Bool := false
  offer : Nat := 0
  lends : Nat := 0
  lendValid : Bool := false
  quietSince : Option Nat := none
  reclaimAt : Option Nat := none
  /-- the wake pulses under way, with the moment each began (08 R317; 12 R484) -/
  wakeOut : List (Nat × Nat) := []
  sigRef : Nat := 0
  /-- halted groups whose resume the warden raises once the dump is written (02 R83) -/
  resumeAfter : List Nat := []
  answers : List (Nat × Nat × Nat) := []
  deriving DecidableEq, Repr

/-! ### Time -/

/-- The tally interface, late launches and cadence (09 R347-R361, R372, R373). -/
structure TallySt where
  tally : Nat := 0
  lock : Bool := false
  holdover : Bool := false
  everLocked : Bool := false
  lost : Bool := false
  backward : Bool := false
  lateSeen : Bool := false
  losses : Nat := 0
  behind : Option Nat := none
  lateQueue : Nat := 0
  lateBy : Nat := 0
  lates : Nat := 0
  lockedAt : Nat := 0
  /-- the count of the commit point that last changed CADENCE_LOCK (09 R359) -/
  cadenceAt : Nat := 0
  aligned : Bool := false
  brk : Bool := false
  breaks : Nat := 0
  c0 : Nat := 0
  cadenceOn : Bool := false
  vEntries : Nat := 0
  deriving DecidableEq, Repr

/-- The twin registers and the comparison (09 R365-R374). -/
structure TwinSt where
  en : Bool := false
  haltOnDiverge : Bool := false
  queue : Nat := 0
  partner : Nat := 0
  rngGroup : Nat := 0
  start : Nat := 0
  /-- the dies whose pairing message names this engine (09 R365) -/
  peers : List Nat := []
  paired : Bool := false
  diverged : Bool := false
  alone : Bool := false
  held : Bool := false
  compared : Nat := 0
  own : List TwinRec := []
  theirs : List TwinRec := []
  lastAt : Nat := 0
  mismatchAt : Option Nat := none
  best : Option (TwinKey × Nat × Nat) := none
  latched : Bool := false
  divEntry : Nat := 0
  divStep : Nat := 0
  divKey : TwinKey := ⟨0, 0, 0, 0, 0, 0⟩
  divOwn : Nat := 0
  divPartner : Nat := 0
  divTally : Nat := 0
  deriving DecidableEq, Repr

/-! ### Numerics, refiner, integrity -/

/-- The generator, its test registers, the spillway totals and the timing draws (06 R269-R272; 09 R361). -/
structure NumSt where
  key : W64 := 0
  keyStaged : Option W64 := none
  satTotal : Nat := 0
  flushTotal : Nat := 0
  nonfinite : Nat := 0
  testKey : W64 := 0
  testLo : W64 := 0
  testHi : W64 := 0
  timingKey : W64 := 0
  draws : Tab Nat := []
  deriving DecidableEq, Repr

/-- The committed and staged refiner rows and schedules, and the refiner's counts (07 R302-R304). Staged words are kept
by their index 8 r + k (rows) and 4 s + k (schedules). -/
structure RefSt where
  rows : Tab RowRec := []
  scheds : Tab SchedRec := []
  rowsStaged : Tab W64 := []
  schedsStaged : Tab W64 := []
  rowReject : Bool := false
  schedReject : Bool := false
  rowNo : Nat := 0
  schedNo : Nat := 0
  updates : Nat := 0
  skipped : Nat := 0
  deriving DecidableEq, Repr

/-- A record ring in memory (10 R400, R411; 11 R418, R449). `due` holds the records whose writes are not acknowledged, in order, the first
of them on its way; `gen` counts the times EN was cleared. -/
structure Ring where
  en : Bool := false
  log2 : Nat := 4
  base : Nat := 0
  prod : Nat := 0
  lost : Nat := 0
  cons : Nat := 0
  wake : Nat := 0
  wakeEn : Bool := false
  due : List (Nat × List Byte) := []
  gen : Nat := 0
  deriving DecidableEq, Repr

/-- The integrity status and counters and the recall log (10 R410, R411), and where the last repair's work ran: the pump and its
lane rotation (01 R39; 10 R391). -/
structure IntegSt where
  crcSeen : Bool := false
  residueSeen : Bool := false
  railSeen : Bool := false
  repairFailed : Bool := false
  recallRaised : Bool := false
  recallSeen : Bool := false
  digestMismatch : Bool := false
  crcErrors : Nat := 0
  residueErrors : Nat := 0
  railErrors : Nat := 0
  repairs : Nat := 0
  repairRun : Option (Nat × Nat) := none
  log : Ring := {}
  deriving DecidableEq, Repr

/-! ### Warden -/

/-- A Weaska fault record (11 R414). -/
structure FaultRecord where
  type : Nat := 0
  verdict : Nat := 0
  action : Nat := 0
  remote : Bool := false
  test : Bool := false
  stress : Bool := false
  capped : Bool := false
  phase : Nat := 0
  unit : Nat := 0
  operation : Nat := 0
  stage : Nat := 0
  idLo : W64 := 0
  idHash : W64 := 0
  group : Nat := 0
  temp : Nat := 0
  veng : Nat := 0
  seq : Nat := 0
  step : Nat := 0
  count : Nat := 0
  tally : Nat := 0
  s0 : Nat := 0
  s1 : Nat := 0
  s2 : Nat := 0
  s3 : Nat := 0
  deriving DecidableEq, Repr

/-- A pacing domain (11 R450). -/
structure PaceReg where
  level : Nat := 0
  steps : Nat := 0
  deriving DecidableEq, Repr

/-- A cistern word under the watch of the scrubber (11 R427): the bit corrected at the last pass, if any, and whether
the word is stuck. -/
structure StuckWord where
  bank : Nat
  word : Nat
  bit : Nat
  stuck : Bool
  deriving DecidableEq, Repr

/-- SURGE_STATUS.STATE (11 R447). -/
inductive SurgeState where
  | off
  | ramp
  | on
  | disabled
  deriving DecidableEq, Repr

/-- TEST_STATUS.STATE (11 R448). -/
inductive TestState where
  | idle
  | waiting
  | running
  | pass
  | fail
  | refused
  deriving DecidableEq, Repr

/-- What the repeat buffer holds, by its place: the unit and the work whose operands and wrong output it keeps, a parcel of an entry; for a
test the entry is 0xFFFFFFFF, with the pour and the pass (11 R420). -/
structure RepeatWork where
  unit : Nat
  group : Nat
  entry : Nat
  chunk : Nat
  parcel : Nat
  deriving DecidableEq, Repr

/-- The warden (11 R414-R450). -/
structure WardenSt where
  unfit : Bool := false
  withdrawn : Bool := false
  cap : Bool := false
  /-- the trip that the temperature itself has begun (11 R444) -/
  hotTrip : Bool := false
  newFault : Bool := false
  suppressed : Nat := 0
  temp : Int := 0
  vengMv : Nat := 0
  transientLimit : Nat := 3
  window : Nat := 0x3C
  paceMax : Nat := 4
  vstepMax : Nat := 3
  voltageFirst : Bool := false
  autoRelief : Bool := true
  autoFence : Bool := true
  autoWithdraw : Bool := true
  stuckLimit : Nat := 8
  baseMv : Nat := 0x2EE
  vreqMv : Nat := 0x2EE
  vreqAt : Option Nat := none
  vsteps : Nat := 0
  offSince : Option Nat := none
  /-- the target of the present episode, and the slew steps it takes (11 R425) -/
  offTarget : Nat := 0
  offBy : Nat := 0
  senseRecorded : Bool := false
  request : Bool := false
  surge : SurgeState := .disabled
  ledgerValid : Bool := false
  ledgerBad : Bool := false
  spent : Bool := false
  ledgerMs : Nat := 0
  ledgerNs : Nat := 0
  slotNs : Nat := 0
  slots : List Nat := []
  restoreUsed : Bool := false
  drawReq : Nat := 0
  drawValid : Bool := false
  drawGrant : Bool := false
  ledgerEn : Bool := false
  ledgerAddr : Nat := 0
  restoreS : Nat := 0
  restoreCheck : W64 := 0
  ledgerNoted : Nat := 0
  ledgerDue : Bool := false
  /-- PROOF_POUR of the active image, and what the running test took of it (11 R433-R437) -/
  pourBytes : List Byte := []
  testPours : List PourRec := []
  testBytes : List Byte := []
  /-- the image under which the running test began: its kernels keep their formats (11 R435) -/
  testIm : Option Image := none
  testId : Nat := 0
  testStress : Bool := false
  testWhole : Bool := false
  testGroup : Nat := 0
  /-- the requested test is a whole-engine one, decided when it was asked for (11 R437) -/
  testDrains : Bool := false
  test : TestState := .idle
  testVerdict : Nat := 0
  failId : Nat := 0
  failUnit : Nat := 0
  testAutoEn : Bool := false
  testInterval : Nat := 0xA
  autoAt : Nat := 0
  autoLast : Option Nat := none
  testHold : Bool := false
  wholeStress : Bool := false
  stressDomains : List Nat := []
  ring : Ring := {}
  /-- where the last repeat on another unit ran, with its lanes rotated by so many (11 R422) -/
  repeatRun : Option (Nat × Nat) := none
  /-- what the repeat buffer took last (11 R420) -/
  repeatWork : Option RepeatWork := none
  /-- until when a repeat keeps the repeat buffer busy (11 R420, R445) -/
  judgeUntil : Nat := 0
  fenced : List Nat := []
  lanes : List Nat := []
  spareIn : Option Nat := none
  pace : Tab PaceReg := []
  log : Tab FaultRecord := []
  seq : Nat := 0
  recent : List (Nat × Nat × Nat) := []
  suspicion : List (Nat × Nat) := []
  stuck : List StuckWord := []
  eccCount : Nat := 0
  coolSince : Option Nat := none
  tjAt : Nat := 0
  vengAt : Nat := 0
  tjStale : Bool := false
  vengStale : Bool := false
  pours : List PourRec := []
  deriving DecidableEq, Repr

/-! ### Links -/

/-- The state of a link port (12 R473). -/
inductive PortState where
  | disabled
  | waitPhy
  | train
  | attach
  | basic
  | up
  | retrain
  | down
  deriving DecidableEq, Repr

/-- A message of the tailrace (12 R460). -/
structure Msg where
  dest : Nat
  src : Nat
  order : Bool := false
  flood : Bool := false
  hops : Nat := 0
  body : Body
  deriving DecidableEq, Repr

/-- A message that waits at a port: the source it came from (0 this engine, 1 to 4 the package inputs, 5 to 8 the system
inputs) and the flits of it that have been sent (12 R463). A transit message is queued with its first flit and is `closed` once
its last one has arrived; `owed` holds while its flits stand in the transit buffer of its input, whose credits they hold (01 R44,
R45; 12 R462). -/
structure Queued where
  src : Nat
  idx : Nat
  msg : Msg
  closed : Bool := true
  owed : Bool := false
  deriving DecidableEq, Repr

/-- A kept flit (12 R466): its SEQ, and which flit of which message it is. -/
structure KeptFlit where
  seq : Nat
  vc : Nat
  last : Bool
  idx : Nat
  msg : Msg
  deriving DecidableEq, Repr

/-- The last link flit a port sent (12 R465): kind 0 STATUS, 1 NACK, 2 TRAIN; `stage` is the STATE of a TRAIN flit. -/
structure LinkFlit where
  kind : Nat
  ack : Nat
  nack : Nat
  credits : List Nat
  width : Nat
  stage : Nat := 0
  ready : Nat := 0
  count : Nat := 0
  deriving DecidableEq, Repr

/-- A link port (12 R459-R488). Credits are per VC; `credUsed` counts the flits first sent and `credBack` the
cumulative returns of the peer, `credGiven` the returns this port has made. -/
structure LinkSt where
  en : Bool := true
  maxWidth : Nat := 0
  state : PortState := .disabled
  width : Nat := 0
  good : Nat := 0
  degraded : Bool := false
  peerChanged : Bool := false
  downCause : Nat := 0
  ackSeq : Nat := 0
  retrains : Nat := 0
  attempts : Nat := 0
  peerDie : Nat := 0
  peerPort : Nat := 0
  peerValid : Bool := false
  peerId : W64 := 0
  replays : Nat := 0
  crcErrors : Nat := 0
  dropped : Nat := 0
  ready : Nat := 0
  goodTrain : Nat := 0
  fromRetrain : Bool := false
  /-- the width that a retrain keeps under, when the owner has not asked for it (12 R475) -/
  cap : Nat := 4
  attemptAt : Nat := 0
  backoffUntil : Option Nat := none
  lastGood : Nat := 0
  seqNext : Nat := 0
  kept : List KeptFlit := []
  queue : List Queued := []
  /-- the source whose message was begun last, per VC, and the data flits sent since the last slot without one, up to 7
  (12 R463) -/
  turn : List Nat := [8, 8, 8, 8]
  dataRun : Nat := 7
  credUsed : List Nat := [0, 0, 0, 0]
  credBack : List Nat := [0, 0, 0, 0]
  credGiven : List Nat := [0, 0, 0, 0]
  rxSeq : Nat := 0
  rxParts : Tab (List Byte) := []
  nackSent : Bool := false
  replayCounts : List (Nat × Nat) := []
  replayTimes : List Nat := []
  replayWait : Option (Nat × Nat) := none
  pendNack : Option Nat := none
  sent : Option LinkFlit := none
  /-- kept flits due to be sent again (12 R466, R476); the flits sent since the last STATUS, and their flit slots (R465) -/
  again : List KeptFlit := []
  line : List KeptFlit := []
  slots : Nat := 0
  deriving DecidableEq, Repr

/-- A whole message for this die in the buffer of an input port: the port, the VC and the flits whose credits it holds until the
engine takes it in (12 R462); none where it stands there without a port's credits. -/
structure Arrived where
  msg : Msg
  from_ : Option (Nat × Nat × Nat) := none
  deriving DecidableEq, Repr

/-- The package link map, the floods seen and the messages that have arrived for this die (12 R460, R469). -/
structure NetSt where
  map : Tab Nat := []
  seen : List (Nat × Nat) := []
  nonce : Nat := 0
  inbox : List Arrived := []
  deriving DecidableEq, Repr

/-- The state of the block. `pending` is the queue of commands waiting, first in, first out. -/
structure State where
  pending : List Instr := []
  now : Nat := 0
  fresh : Nat := 0
  mgmt : MgmtSt := {}
  keeper : KeeperSt := {}
  img : ImageSt := {}
  groups : Tab GroupSt := []
  members : Tab Member := []
  queues : Tab QueueSt := []
  sluice : SluiceSt := {}
  ops : List Op := []
  siphons : Tab SiphonSt := []
  fabricTimeoutUs : Nat := 0x3E8
  cache : CacheSt := {}
  sync : SyncSt := {}
  tally : TallySt := {}
  twin : TwinSt := {}
  num : NumSt := {}
  refiner : RefSt := {}
  integ : IntegSt := {}
  warden : WardenSt := {}
  links : Tab LinkSt := []
  net : NetSt := {}
  deriving DecidableEq, Repr

/-- The block at cold reset (02 R94): every register at its reset value, both banks and every queue empty, RESET_N
still low and the management port answering ERROR (in part DESIGN CHOICE, log entry 8). -/
def State.reset : State := {}

end Sys2Proof.Machine
end

