-- ==== Sys2Proof/Machine/Ops.lean ====
section
/-! DEFINITION. The named operations over the state: the one home of each unit's reads and writes, stamps and timing
draws, fabric transfers, the tailrace with its routing and replay buffer, and the records of the warden and the recall
log. -/

namespace Sys2Proof.Machine

/-! ### Units by index -/

def State.queue (s : State) (q : Nat) : QueueSt := tabGet (fun _ => {}) s.queues q
def State.setQueue (s : State) (q : Nat) (x : QueueSt) : State :=
  { s with queues := tabSet (fun _ => {}) s.queues q x }
def State.updQueue (s : State) (q : Nat) (f : QueueSt → QueueSt) : State := s.setQueue q (f (s.queue q))

def State.group (s : State) (g : Nat) : GroupSt := tabGet (fun _ => {}) s.groups g
def State.setGroup (s : State) (g : Nat) (x : GroupSt) : State :=
  { s with groups := tabSet (fun _ => {}) s.groups g x }
def State.updGroup (s : State) (g : Nat) (f : GroupSt → GroupSt) : State := s.setGroup g (f (s.group g))

def State.member (s : State) (i : Nat) : Member := tabGet (fun _ => {}) s.members i
def State.setMember (s : State) (i : Nat) (x : Member) : State :=
  { s with members := tabSet (fun _ => {}) s.members i x }

def State.siphon (s : State) (i : Nat) : SiphonSt := tabGet (fun _ => {}) s.siphons i
def State.setSiphon (s : State) (i : Nat) (x : SiphonSt) : State :=
  { s with siphons := tabSet (fun _ => {}) s.siphons i x }
def State.updSiphon (s : State) (i : Nat) (f : SiphonSt → SiphonSt) : State := s.setSiphon i (f (s.siphon i))

def State.link (s : State) (n : Nat) : LinkSt := tabGet (fun _ => {}) s.links n
def State.setLink (s : State) (n : Nat) (x : LinkSt) : State :=
  { s with links := tabSet (fun _ => {}) s.links n x }
def State.updLink (s : State) (n : Nat) (f : LinkSt → LinkSt) : State := s.setLink n (f (s.link n))

def State.counter (s : State) (n : Nat) : Counter := tabGet (fun _ => {}) s.sync.counters n
def State.setCounter (s : State) (n : Nat) (x : Counter) : State :=
  { s with sync := { s.sync with counters := tabSet (fun _ => {}) s.sync.counters n x } }

def State.weir (s : State) (w : Nat) : Weir := tabGet (fun _ => {}) s.sync.weirs w
def State.setWeir (s : State) (w : Nat) (x : Weir) : State :=
  { s with sync := { s.sync with weirs := tabSet (fun _ => {}) s.sync.weirs w x } }

def State.window (s : State) (n : Nat) : Window := tabGet (fun _ => {}) s.cache.windows n
def State.setWindow (s : State) (n : Nat) (x : Window) : State :=
  { s with cache := { s.cache with windows := tabSet (fun _ => {}) s.cache.windows n x } }

def State.pace (s : State) (d : Nat) : PaceReg := tabGet (fun _ => {}) s.warden.pace d
def State.setPace (s : State) (d : Nat) (x : PaceReg) : State :=
  { s with warden := { s.warden with pace := tabSet (fun _ => {}) s.warden.pace d x } }

def State.updWarden (s : State) (f : WardenSt → WardenSt) : State := { s with warden := f s.warden }
def State.updSync (s : State) (f : SyncSt → SyncSt) : State := { s with sync := f s.sync }
def State.updKeeper (s : State) (f : KeeperSt → KeeperSt) : State := { s with keeper := f s.keeper }
def State.updImg (s : State) (f : ImageSt → ImageSt) : State := { s with img := f s.img }
def State.updInteg (s : State) (f : IntegSt → IntegSt) : State := { s with integ := f s.integ }
def State.updCache (s : State) (f : CacheSt → CacheSt) : State := { s with cache := f s.cache }
def State.updTally (s : State) (f : TallySt → TallySt) : State := { s with tally := f s.tally }
def State.updTwin (s : State) (f : TwinSt → TwinSt) : State := { s with twin := f s.twin }

/-- The freeze cause of an agent; 0 when it is not frozen (13 R505). -/
def State.cause (s : State) (a : Nat) : Nat := tabGet (fun _ => 0) s.keeper.causes a

/-- An agent is frozen while its cause is not 0 (02 R87). -/
def State.isFrozen (s : State) (a : Nat) : Bool := s.cause a != 0

/-- This engine's die address (13 R500). -/
def State.me (s : State) : Nat := s.mgmt.dieAddr

/-- The stamp of an event: the engine's tally, 0 before the first lock (09 R350, R351). -/
def State.stamp (s : State) : Nat := s.tally.tally

/-- The active image, or an empty one (00 R18). -/
def State.image (s : State) : Image := s.img.active.getD {}

/-! ### Counts modulo 2^32 (03 R101) -/

def wrap32 (n : Nat) : Nat := n % 2 ^ 32
def inc32 (n : Nat) : Nat := (n + 1) % 2 ^ 32
def diff32 (a b : Nat) : Nat := (a + 2 ^ 32 - b % 2 ^ 32) % 2 ^ 32

/-! ### Operations in their slots -/

def Op.is (o : Op) (q c : Nat) : Bool := o.q == q && o.c == c
def State.op? (s : State) (q c : Nat) : Option Op := s.ops.find? fun o => o.is q c
def State.updOp (s : State) (q c : Nat) (f : Op → Op) : State :=
  { s with ops := mapIf (fun o => o.is q c) f s.ops }
def State.removeOp (s : State) (q c : Nat) : State := { s with ops := s.ops.filter fun o => !(o.is q c) }

/-- The queue and count of the entry that a payload transfer belongs to. -/
def Purpose.entry : Purpose → Option (Nat × Nat)
  | .payload q c _ _ => some (q, c)
  | .result q c _ => some (q, c)
  | .stateWrite q c _ => some (q, c)
  | .headerWrite q c _ => some (q, c)
  | _ => none

/-- Whether the transfer writes. -/
def Purpose.isWrite : Purpose → Bool
  | .fetch _ _ _ | .staticMap _ _ _ _ | .payload _ _ _ _ | .image _ _ => false
  | _ => true

/-- Every transfer waiting or outstanding on the eight siphons, and those waiting for a cache fill. -/
def State.xfers (s : State) : List Xfer :=
  (s.siphons.flatMap fun (_, x) => x.waiting ++ x.out.map (·.2)) ++ s.cache.fills.flatMap (·.waiters)

/-- Transfers of one entry that have not returned (04 R173). -/
def State.entryXfers (s : State) (q c : Nat) : List Xfer := s.xfers.filter fun x => x.pur.entry == some (q, c)

/-! ### Timing draws (09 R361) -/

/-- A timing draw of a source: the first word, and the state with the source's draw counted (in part DESIGN CHOICE, log entry 10). -/
def timingDraw (s : State) (source : Nat) : State × Draw :=
  let n := tabGet (fun _ => 0) s.num.draws source
  ({ s with num := { s.num with draws := tabSet (fun _ => 0) s.num.draws source (n + 1) } },
    draw s.num.timingKey (wrap32 n) source s.me 0xFFFFFFFF)

/-! ### Fabric transfers (04 R139-R144) -/

/-- A payload transfer's siphon (04 R141). -/
def siphonOf (addr : Nat) : Nat := bits addr 8 3

/-- The request of a transfer (04 R139, R159; 12 R453): a read asks for the whole 64 B granules that its range meets, one whose block
also goes into the cache for all four (DEDUCED, log entry 17), and a write enables the bytes of its range and no other. -/
def Xfer.request (x : Xfer) (tag : Nat) : FabricReq :=
  let lo := x.addr % 256
  let read := x.cls == 0
  { kind := b1 !read, tag, addr := x.addr / 256, cls := x.cls
    granules := if read then ((List.range 4).map fun i => b1 (x.fill || lo < 64 * i + 64 && 64 * i < lo + x.len) * 2 ^ i).sum else 0
    mask := if read then 0 else (2 ^ x.len - 1) * 2 ^ lo
    data := if read then [] else List.replicate lo 0 ++ x.data ++ List.replicate (256 - lo - x.len) 0 }

/-- The pieces of a byte range, one per 256 B block: address, offset in the range and length (04 R139). -/
def blocksFrom : Nat → Nat → Nat → Nat → List (Nat × Nat × Nat)
  | 0, _, _, _ => []
  | fuel + 1, addr, off, len =>
    if len = 0 then [] else
      let n := min len (256 - addr % 256)
      (addr, off, n) :: blocksFrom fuel (addr + n) (off + n) (len - n)

def blocks (addr len : Nat) : List (Nat × Nat × Nat) := blocksFrom (len / 256 + 2) addr 0 len

/-- Put a transfer in a siphon's waiting list. -/
def enqueue (s : State) (i : Nat) (x : Xfer) : State :=
  s.updSiphon i fun p => { p with waiting := p.waiting ++ [{ x with at_ := s.now }] }

/-- Read `len` bytes at `addr` for a purpose that names each piece by its offset. -/
def enqueueRead (s : State) (queue addr len : Nat) (via : Nat → Nat) (pur : Nat → Purpose) : State :=
  (blocks addr len).foldl (fun s (a, o, n) => enqueue s (via a) { cls := 0, pur := pur o, addr := a, len := n, queue }) s

/-- Write bytes at `addr` in a class. -/
def enqueueWrite (s : State) (cls queue addr : Nat) (data : List Byte) (via : Nat → Nat) (pur : Nat → Purpose) : State :=
  (blocks addr data.length).foldl (fun s (a, o, n) =>
    enqueue s (via a) { cls, pur := pur o, addr := a, len := n, data := slice data o n, queue }) s

/-! ### The package mesh and the routes (12 R468-R470) -/

def dieRow (d : Nat) : Nat := bits d 3 3
def dieCol (d : Nat) : Nat := bits d 0 3
def samePackage (a b : Nat) : Bool := a >>> 6 == b >>> 6

/-- The smallest level that contains both dies, as a stage code (12 R470). -/
def levelOf (a b : Nat) : Nat :=
  if a == b then 0 else if a >>> 6 == b >>> 6 then 1 else if a >>> 8 == b >>> 8 then 2
  else if a >>> 12 == b >>> 12 then 3 else 4

/-- The next port on the mesh (12 R468): row first with ORDER 0, column first with ORDER 1. -/
def meshPort (from_ dst : Nat) (order : Bool) : Option Nat :=
  let h := if dieCol from_ < dieCol dst then some 1 else if dieCol dst < dieCol from_ then some 3 else none
  let v := if dieRow from_ < dieRow dst then some 2 else if dieRow dst < dieRow from_ then some 0 else none
  if order then v.orElse fun _ => h else h.orElse fun _ => v

/-- The die behind a package port (00 R3); none at an edge of the mesh. -/
def neighbour (d port : Nat) : Option Nat :=
  match port with
  | 0 => if dieRow d = 0 then none else some (d - 8)
  | 1 => if dieCol d = 7 then none else some (d + 1)
  | 2 => if dieRow d = 7 then none else some (d + 8)
  | _ => if dieCol d = 0 then none else some (d - 1)

/-- The port opposite a package port (12 R474). -/
def opposite (port : Nat) : Nat := (port + 2) % 4

/-- The link map's bit for a port of a die of this package (12 R469). -/
def State.mapUp (s : State) (die port : Nat) : Bool := bit (tabGet (fun _ => 0) s.net.map (die % 64)) port

/-- Whether a mesh path crosses only links that the map shows up. -/
def pathUpFrom (s : State) (dst : Nat) (order : Bool) : Nat → Nat → Bool
  | 0, _ => true
  | fuel + 1, from_ =>
    match meshPort from_ dst order with
    | none => true
    | some p => s.mapUp from_ p && (match neighbour from_ p with
        | none => false
        | some d => pathUpFrom s dst order fuel d)

def pathUp (s : State) (from_ dst : Nat) (order : Bool) : Bool := pathUpFrom s dst order 15 from_

/-- A link port carries traffic in BASIC and UP (12 R473) (in part DEDUCED, log entries 22 and 33). -/
def LinkSt.carries (l : LinkSt) : Bool := l.state == .basic || l.state == .up

/-- The ports named by the stage record of a level (02 R59). -/
def Image.ports (im : Image) (stage : Nat) : Nat :=
  ((im.stages.find? fun r => r.stage == stage).map (·.ports)).getD 0

/-- A message of a group without full service that a system port does not carry in low-water service: all but the tokens of
MARK, BARRIER and resume marks, HALT, remote SIGNAL with its acknowledgement, and management (02 R96; 12 R473); the messages of the
twins, which name no group, wait for full service (DEDUCED, log entry 33). -/
def State.heldBack (s : State) (b : Body) : Bool :=
  let low := s.keeper.phase == .lowWater
  let dry (g : Nat) : Bool := low && !(s.group g).full
  match b with
  | .parcel p => dry p.h.group
  | .token t => t.opcode != 0x0A && t.opcode != 0x0E && dry t.c.group
  | .answer m => dry m.c.group
  | .level m => dry m.c.group
  | .recall m => dry m.c.group
  | .credit m => dry m.c.group
  | .raw _ t bs =>
    let g := bits (field bs 0x10 2) 0 12
    if t = 1 then field bs 0x1C 1 != 0x0A && field bs 0x1C 1 != 0x0E && dry g
    else if t = 8 || t = 9 then low
    else (t = 0 || t = 5 || t = 6 || t = 7 || t = 10) && dry g
  | .twinRecord _ | .twinPair _ => low
  | .halt _ | .signal _ | .ack _ | .withdraw _ | .linkState _ _ _ => false

/-- The candidate system ports of a message toward a destination outside the package: the UP ports among those of its level
(12 R470). -/
def State.candidates (s : State) (m : Msg) : List Nat :=
  if s.heldBack m.body then []
  else [4, 5, 6, 7].filter fun p => bit (s.image.ports (levelOf s.me m.dest)) p && (s.link p).state == .up

/-- The port a message leaves by, with the ORDER a source gives it; none when it is unreachable (12 R468-R472)
(in part DEDUCED, log entry 22). -/
def State.route (s : State) (m : Msg) (source : Bool) : Option (Nat × Bool) :=
  if samePackage s.me m.dest then
    if source then
      if pathUp s s.me m.dest false then (meshPort s.me m.dest false).map fun p => (p, false)
      else if pathUp s s.me m.dest true then (meshPort s.me m.dest true).map fun p => (p, true)
      else none
    else (meshPort s.me m.dest m.order).bind fun p => if (s.link p).carries || (s.link p).state == .retrain
      then some (p, m.order) else none
  else
    let ps := s.candidates m
    let k := match m.body with
      | .parcel p => m.dest + p.h.index
      | .raw _ 0 bs => m.dest + bits (field bs 0x20 4) 0 20
      | _ => m.dest
    if ps.isEmpty then none else (ps[k % ps.length]?).map fun p => (p, m.order)

/-- The port on which an unreachable message is counted (12 R472): the first of its route with its ORDER, 0 at its source, or system
port 0 (in part DEDUCED, log entry 22). -/
def State.dropPort (s : State) (dest : Nat) (order : Bool) : Nat :=
  if samePackage s.me dest then (meshPort s.me dest order).getD 0 else 4

/-- The virtual channel of a message (12 R461). -/
def bodyVc : Body → Nat
  | .parcel _ => 0
  | .token _ | .halt _ | .signal _ | .ack _ | .twinRecord _ | .twinPair _ | .credit _ => 1
  | .answer _ | .level _ | .recall _ => 2
  | .withdraw _ | .linkState _ _ _ => 3
  | .raw vc _ _ => vc

/-- The flits of a message (12 R461). -/
def bodyFlits : Body → Nat
  | .parcel p => 1 + (p.payload.length + 63) / 64
  | .token t => if t.opcode == 0x0E then 2 else 1
  | .raw _ _ bs => (bs.length + 63) / 64
  | _ => 1

/-- The credits a receiver grants per VC (12 R462). -/
def creditLimit (port vc : Nat) : Nat :=
  match vc with
  | 0 => if port < 4 then 1024 else 256
  | 3 => 16
  | _ => 128

/-- Credits left on a VC. -/
def LinkSt.creditsLeft (l : LinkSt) (port vc : Nat) : Nat :=
  creditLimit port vc + (l.credBack[vc]?).getD 0 - (l.credUsed[vc]?).getD 0

/-- A queued message whose next flit is here: a transit message waits for its flits (12 R463). -/
def Queued.hasFlit (x : Queued) : Bool := decide (x.idx < bodyFlits x.msg.body)

/-- The message of a VC that sends next: the one begun, else that of the next source in turn; none without credit, nor while the one
begun waits for a flit (12 R460, R463). -/
def LinkSt.nextOn (l : LinkSt) (port vc : Nat) : Option Queued :=
  let mine := l.queue.filter fun x => bodyVc x.msg.body == vc
  if l.creditsLeft port vc = 0 then none
  else match mine.find? fun x => x.idx != 0 with
    | some x => if x.hasFlit then some x else none
    | none =>
      ((List.range 9).map fun k => ((l.turn[vc]?).getD 8 + 1 + k) % 9).findSome? fun src => mine.find? fun x => x.src == src

/-- The last SEQ accepted in order. -/
def LinkSt.lastSeq (l : LinkSt) : Nat := (l.rxSeq + 4095) % 4096

/-- Whether a data flit waits with credit (12 R463). -/
def LinkSt.dataWaits (l : LinkSt) (port : Nat) : Bool := (l.nextOn port 0).isSome

/-- The count of data flits after a slot without one: 0 where a data flit waits, else there is nothing to count (12 R463). -/
def LinkSt.runAfter (l : LinkSt) (port : Nat) : Nat := if l.dataWaits port then 0 else 7

/-- A port sends a STATUS (12 R465). -/
def LinkSt.sendStatus (l : LinkSt) (port : Nat) : LinkSt :=
  { l with
    sent := some { kind := 0, ack := l.lastSeq, nack := 0, credits := l.credGiven.map (· % 65536), width := l.width }
    line := [], slots := 0, dataRun := l.runAfter port }

/-- Whether a STATUS is due in this slot: by the 64th since the last one, and while data waits as soon as one of the last 8 may be without
data, so that it never stands within 8 slots of another flit without data (12 R463, R465) (in part DEDUCED, log entry 34). -/
def LinkSt.statusDue (l : LinkSt) (port : Nat) : Bool :=
  63 ≤ l.slots || (56 ≤ l.slots && l.again.isEmpty && l.dataRun == 7 && l.dataWaits port)

/-- A sequenced flit takes a flit slot of the port. -/
def LinkSt.onLine (l : LinkSt) (k : KeptFlit) : LinkSt := { l with line := l.line ++ [k], slots := l.slots + 1 }

/-- Use one flit slot: the STATUS that is due; a kept flit sent again, which keeps the order of SEQ and is not charged
again; else level mark, control, management, then data, where at most one slot in 8 is without data while data waits with credit
(12 R463-R467). -/
def sendOne (port : Nat) (l : LinkSt) : Option LinkSt :=
  let order := if l.dataRun < 7 then [0, 2, 1, 3] else [2, 1, 3, 0]
  if !l.carries then none
  else if l.statusDue port then some (l.sendStatus port)
  else match l.again with
  | k :: ks => some ({ l with again := ks, dataRun := if k.vc = 0 then min 7 (l.dataRun + 1) else l.runAfter port }.onLine k)
  | [] =>
    if 2048 ≤ l.kept.length then none
    else match order.findSome? (l.nextOn port) with
    | none => none
    | some x =>
      let vc := bodyVc x.msg.body
      let last := x.closed && x.idx + 1 == bodyFlits x.msg.body
      let k : KeptFlit := { seq := l.seqNext, vc, last, idx := x.idx, msg := x.msg }
      some { l.onLine k with
        kept := l.kept ++ [k]
        seqNext := (l.seqNext + 1) % 4096
        credUsed := listSet l.credUsed vc ((l.credUsed[vc]?).getD 0 + 1)
        turn := listSet l.turn vc x.src
        dataRun := if vc = 0 then min 7 (l.dataRun + 1) else l.runAfter port
        queue := if last then l.queue.erase x else listSet l.queue (l.queue.findIdx (· == x)) { x with idx := x.idx + 1 } }

/-- Send what is due again, and as many flits as credits and the replay window allow (in part DEDUCED, log entry 22). -/
def drain (port : Nat) : Nat → LinkSt → LinkSt
  | 0, l => l
  | fuel + 1, l => match sendOne port l with
    | none => l
    | some l' => drain port fuel l'

/-- Flits at a port that hold the credits of an input on a VC: those of its transit messages that have not been sent. -/
def LinkSt.holds (l : LinkSt) (input vc : Nat) : Nat :=
  ((l.queue.filter fun x => x.owed && x.src == input + 1 && bodyVc x.msg.body == vc).map fun x =>
    bodyFlits x.msg.body - x.idx).sum

/-- Give an input port's credits back for flits that have left its buffer (12 R462). -/
def giveCredit (s : State) (n vc k : Nat) : State :=
  if k = 0 then s else s.updLink n fun l => { l with credGiven := listSet l.credGiven vc ((l.credGiven[vc]?).getD 0 + k) }

/-- Give back the credits of the transit flits that have left a port between two of its states. -/
def creditsBack (s : State) (old new : LinkSt) : State :=
  ((List.range 8).flatMap fun i => (List.range 4).map fun vc => (i, vc)).foldl (fun s (i, vc) =>
    giveCredit s i vc (old.holds i vc - new.holds i vc)) s

/-- Send what a port can send; the credits of transit flits go back to their inputs as the flits leave (12 R462, R463). -/
def drainPort (s : State) (n : Nat) : State :=
  let old := s.link n
  let new := drain n (2 * ((old.queue.map fun x => bodyFlits x.msg.body).sum + old.again.length) + 2) old
  creditsBack (s.setLink n new) old new

/-- Hand a message of this engine (source 0) or of an input port to the tailrace: routed to a port, or discarded and counted as unreachable (12 R472)
(in part DEDUCED, log entry 22). -/
def sendMsg (s : State) (m : Msg) (src : Nat) : State :=
  match s.route m (src == 0) with
  | some (p, order) =>
    drainPort (s.updLink p fun l => { l with queue := l.queue ++ [{ src, idx := 0, msg := { m with order } }] }) p
  | none => s.updLink (s.dropPort m.dest (src != 0 && m.order)) fun l => { l with dropped := (l.dropped + 1) % 2 ^ 64 }

/-- Send a body to a die; this engine itself needs no message (in part DEDUCED, log entry 22). -/
def sendTo (s : State) (dest : Nat) (b : Body) : State :=
  if dest = s.me then s else sendMsg s { dest, src := s.me, body := b } 0

def sendAll (s : State) (dests : List Nat) (b : Body) : State := dests.foldl (fun s d => sendTo s d b) s

/-! ### Wake pulses and descriptor fetches (03 R116, R117; 08 R317) -/

/-- Entries of a queue that are fetched and unstarted, at most 16 (03 R115). -/
def QueueSt.room (q : QueueSt) : Nat := 16 - q.buffered.length

/-- Issue a descriptor batch (03 R116): at most 16 entries, within the ring, the buffer and HEAD + 2^k. A KICK or a wake pulse that
comes while a batch is outstanding has no effect and is not remembered (in part DEDUCED and DESIGN CHOICE, log entry 15). -/
def startFetch (s : State) (q : Nat) : State :=
  let x := s.queue q
  let size := 2 ^ x.log2
  let pos := x.fetch % size
  let n := min (min 16 x.room) (min (size - pos) (size - diff32 x.fetch x.head))
  if x.state == .running && x.batch.isNone && 0 < n then
    let id := x.batchId + 1
    let addr := x.base + 64 * pos
    let s := s.setQueue q { x with batchId := id
                                   batch := some { id, start := x.fetch, entries := n, left := (blocks addr (64 * n)).length } }
    enqueueRead s q addr (64 * n) (fun _ => q % 8) (fun o => .fetch q id o)
  else s

/-- Fetch again at 8 buffered entries or fewer when the last batch filled the buffer (03 R117). -/
def refill (s : State) (q : Nat) : State :=
  if (s.queue q).lastFilled && (s.queue q).buffered.length ≤ 8 then startFetch s q else s

/-- Queues that a wake wire makes fetch at once (03 R117). -/
def wakeQueues (s : State) (w : Nat) : State :=
  (s.queues.map (·.1)).foldl (fun s q =>
    if (s.queue q).wakeEn && (s.queue q).wake == w then startFetch s q else s) s

/-- The engine pulses a wake wire (08 R317). -/
def pulse (s : State) (w : Nat) : State :=
  wakeQueues { s with sync := { s.sync with wakeOut := (s.sync.wakeOut.filter fun p => p.1 != w) ++ [(w, s.now)] } } w

/-- The wake wire of a counter; n mod 256 at reset (08 R317). -/
def wakeWire (n : Nat) (c : Counter) : Nat := (n + c.wakeX) % 256

/-! ### Record rings and fault records (10 R400; 11 R414, R418) -/

/-- The number of the record that enters a ring next: those still being written come before it. -/
def Ring.next (r : Ring) : Nat := wrap32 (r.prod + r.due.length)

/-- The PHASE of the record that enters a ring next (10 R400). -/
def Ring.phase (r : Ring) : Nat := b1 (bit r.next r.log2)

/-- Take a record into a ring, to be written in its turn; one that finds the ring full is dropped and counted (10 R400, R411). -/
def Ring.push (r : Ring) (bs : List Byte) : Ring :=
  if !r.en then r
  else if diff32 r.next r.cons = 2 ^ r.log2 then { r with lost := satAdd 0xFFFF r.lost 1 }
  else { r with due := r.due ++ [(r.base + bs.length * (r.next % 2 ^ r.log2), bs)] }

/-- A record ring: the warden's, or the recall log. -/
def State.recRing (s : State) (fault : Bool) : Ring := if fault then s.warden.ring else s.integ.log
def State.setRecRing (s : State) (fault : Bool) (r : Ring) : State :=
  if fault then s.updWarden fun w => { w with ring := r } else s.updInteg fun i => { i with log := r }

/-- The write of the oldest record that a ring still has to write: class WRITE, or fault path (10 R400; 11 R418). -/
def writeRecord (s : State) (fault : Bool) : State :=
  let r := s.recRing fault
  match r.due with
  | [] => s
  | (a, bs) :: _ =>
    enqueueWrite s (if fault then 3 else 1) 257 a bs siphonOf fun _ => if fault then .faultRec r.gen else .recallRec r.gen

/-- A record enters a ring; the records of a ring are written in order, one after the other (10 R400; 11 R418) (in part DEDUCED, log
entry 32). -/
def ringRecord (s : State) (fault : Bool) (bs : List Byte) : State :=
  let r := s.recRing fault
  let s := s.setRecRing fault (r.push bs)
  if r.due.isEmpty then writeRecord s fault else s

/-- The write of a record has returned: PROD counts it, RECALL_SEEN notes a recall record that was written, the wake wire is pulsed and the
next one is written; a ring whose EN was cleared since knows nothing of it (10 R400, R410, R411; 11 R418). A write that failed is dropped
and its place passed over (DEDUCED, log entry 32). -/
def recordWritten (s : State) (fault : Bool) (gen : Nat) (written : Bool) : State :=
  let r := s.recRing fault
  if gen != r.gen || r.due.isEmpty then s
  else
    let s := s.setRecRing fault { r with prod := inc32 r.prod, due := r.due.drop 1 }
    let s := if written && !fault then s.updInteg fun i => { i with recallSeen := true } else s
    writeRecord (if r.wakeEn then pulse s r.wake else s) fault

/-- A signed temperature in 16 bits. -/
def temp16 (t : Int) : Nat := (BitVec.ofInt 16 t).toNat

/-- The 64 bytes of a fault record (11 R414). -/
def FaultRecord.bytes (r : FaultRecord) : List Byte :=
  leBytes 1 r.type ++ leBytes 1 r.verdict ++ leBytes 1 r.action ++
  leBytes 1 (b1 r.remote + 2 * b1 r.test + 4 * b1 r.stress + 8 * b1 r.capped + 128 * r.phase) ++
  leBytes 2 r.unit ++ leBytes 1 r.operation ++ leBytes 1 r.stage ++ leBytes 8 r.idLo.toNat ++
  leBytes 8 r.idHash.toNat ++ leBytes 2 r.group ++ leBytes 2 r.temp ++ leBytes 2 r.veng ++ leBytes 2 r.seq ++
  leBytes 4 r.step ++ leBytes 4 r.count ++ leBytes 8 r.tally ++ leBytes 4 r.s0 ++ leBytes 4 r.s1 ++
  leBytes 4 r.s2 ++ leBytes 4 r.s3

/-- The identity check register (13 R499); it reads 0 while ID_FAIL is 1. -/
def State.idCheck (s : State) : W64 :=
  if s.keeper.idFail || !s.mgmt.idDerived then 0
  else crc64 (leBytes 8 s.mgmt.idLo.toNat ++ leBytes 8 s.mgmt.idHi.toNat)

def State.idLo (s : State) : W64 := if s.keeper.idFail then 0 else s.mgmt.idLo
def State.idHi (s : State) : W64 := if s.keeper.idFail then 0 else s.mgmt.idHi

/-- Make a fault record (11 R414, R418): it takes the next SEQ and the present stamps, enters the log, and with
FAULT_RING.EN the ring in memory, with fault-path priority (in part DEDUCED, log entry 32). -/
def makeRecord (s : State) (r : FaultRecord) : State :=
  let seq := s.warden.seq
  let r := { r with
    idLo := s.idLo, idHash := s.idCheck, temp := temp16 s.warden.temp, veng := s.warden.vengMv, seq := seq % 65536
    tally := s.stamp
    phase := s.warden.ring.phase }
  let s := s.updWarden fun w => { w with
    seq := (seq + 1) % 65536, log := tabSet (fun _ => {}) w.log (seq % 256) r, newFault := true }
  ringRecord s true r.bytes

/-- An event of a type and unit that had a record within the last millisecond (11 R419). -/
def State.ratedOut (s : State) (type unit : Nat) : Bool :=
  4 ≤ type && type ≤ 6 && s.warden.recent.any fun (t, u, at_) => t == type && u == unit && s.now < at_ + 1000000

/-- The pours that a test ID names (11 R448). -/
def WardenSt.poursOf (w : WardenSt) (id : Nat) : List PourRec :=
  if id == 0xFFFE then w.pours else w.pours.filter fun p => p.id == id

/-- A fault's record, at most one per pair of TYPE and UNIT in a millisecond for failed checks; a further one is counted in
SUPPRESSED (11 R419). -/
def checkFailed (s : State) (r : FaultRecord) : State :=
  if s.ratedOut r.type r.unit then s.updWarden fun w => { w with suppressed := satAdd 255 w.suppressed 1 }
  else
    makeRecord (s.updWarden fun w => { w with recent :=
      (w.recent.filter fun (t, u, at_) => s.now < at_ + 1000000 && !(t == r.type && u == r.unit)) ++
        (if 4 ≤ r.type && r.type ≤ 6 then [(r.type, r.unit, s.now)] else []) }) r

/-- The LINK fault record of a port event (12 R479) (in part DEDUCED, log entry 32). -/
def linkRecord (s : State) (n event s2 : Nat) : State :=
  let l := s.link n
  makeRecord s { type := 0x14, unit := 0x500 + n, operation := 0xFF, group := 0xFFFF, count := 0xFFFFFFFF
                 s0 := event, s1 := n + at_ l.width 4, s2, s3 := l.peerDie }

/-- The LINK fault record of a fabric error (6) or timeout (7), at most one per siphon per millisecond (12 R457, R479). -/
def fabricRecord (s : State) (i event s2 addr : Nat) : State :=
  let p := s.siphon i
  let due := match p.linkRecAt with
    | none => true
    | some t => t + 1000000 ≤ s.now
  if due then
    makeRecord (s.setSiphon i { p with linkRecAt := some s.now })
      { type := 0x14, unit := 0x200 + i, operation := 0xFF, group := 0xFFFF, count := 0xFFFFFFFF
        s0 := event, s1 := 0, s2, s3 := bits addr 8 32 }
  else s

end Sys2Proof.Machine
end

