-- ==== Sys2Proof/Machine/Members.lean ====
section
/-! DEFINITION. The member table and the group's positions (02 R60, R61, R508; 05 R182-R187): stages, peers, slots,
presence, the building of an engine's own table from the rosters, quarantine and service. -/

namespace Sys2Proof.Machine

/-- Member states (02 R61). -/
def stVacant : Nat := 0
def stActive : Nat := 1
def stAdmit : Nat := 2
def stEvict : Nat := 3
def stQuarantine : Nat := 4
def stEvicted : Nat := 5

/-- A position is present when its entry is ACTIVE, EVICT or QUARANTINE (05 R185). -/
def Member.present (m : Member) : Bool := m.state == stActive || m.state == stEvict || m.state == stQuarantine

/-- The enabled stages of a group in ascending order (05 R183). -/
def enabled (mask : Nat) : List Nat := [1, 2, 3, 4].filter fun st => bit mask (st - 1)

/-- The PEERS count of a stage (02 R60). -/
def GroupRec.peers (gr : GroupRec) (st : Nat) : Nat :=
  match st with
  | 1 => gr.peers1
  | 2 => gr.peers2
  | 3 => gr.peers3
  | 4 => gr.peers4
  | _ => 0

/-- The first member-table entry of a stage: the stages stand in order from MEMBER_BASE (02 R60). -/
def GroupRec.stageBase (gr : GroupRec) (st : Nat) : Nat :=
  gr.memberBase + (((enabled gr.stageMask).filter (· < st)).map gr.peers).sum

/-- The group record in force, empty for a group that is not valid (02 R509). -/
def State.gr (s : State) (g : Nat) : GroupRec := (s.group g).gr

/-- The member entries of a stage, with their indices, in slot order (05 R182). -/
def State.slots (s : State) (g st : Nat) : List (Nat × Member) :=
  (List.range ((s.gr g).peers st)).map fun k =>
    ((s.gr g).stageBase st + k, s.member ((s.gr g).stageBase st + k))

/-- This member's slot at a stage (05 R182). -/
def State.ownSlot (s : State) (g st : Nat) : Nat :=
  ((s.slots g st).findIdx? fun x => x.2.dieAddr == s.me).getD 0

/-- The present peers at a stage, this engine not included (05 R185). -/
def State.peers (s : State) (g st : Nat) : List Nat :=
  ((s.slots g st).filter fun x => x.2.present && x.2.dieAddr != s.me).map (·.2.dieAddr)

/-- The present peers at every enabled stage. -/
def State.allPeers (s : State) (g : Nat) : List Nat :=
  ((enabled (s.gr g).stageMask).flatMap fun st => s.peers g st).eraseDups

/-- Peers whose tokens the weir waits for: a resume weir waits for present members that are not pending eviction (02 R83);
a MARK weir for a member being admitted as well (02 R80). -/
def State.weirWaits (s : State) (g st : Nat) (resume : Bool) : List Nat :=
  ((s.slots g st).filter fun x => x.2.dieAddr != s.me && (x.2.present || (!resume && x.2.state == stAdmit)) &&
    !(resume && x.2.state == stEvict)).map (·.2.dieAddr)

/-- The member entries of a group, over all its stages. -/
def State.groupEntries (s : State) (g : Nat) : List (Nat × Member) :=
  (enabled (s.gr g).stageMask).flatMap fun st => s.slots g st

/-- The group's roster in the active image (02 R508): the group table's MEMBER_BASE is rewritten, so the image's record
is looked up. -/
def Image.rosterOf (im : Image) (g : Nat) : List Member :=
  match im.groups.find? fun r => r.group == g && r.valid with
  | some r => (im.roster.drop r.memberBase).take r.roster
  | none => []

/-- This engine's own entry in a group (02 R508); for a group without an enabled stage, which has no copy in the member table, the
roster's record as it stands, whose ID_CHECK R91 does not reach (DESIGN CHOICE, log entry 24). -/
def State.ownEntry (s : State) (g : Nat) : Option Member :=
  match (s.groupEntries g).find? fun x => x.2.dieAddr == s.me with
  | some x => some x.2
  | none => (s.image.rosterOf g).find? fun m => m.dieAddr == s.me

/-- Whether a valid group of an image lists a die (02 R508). -/
def Image.lists (im : Image) (g die : Nat) : Bool := (im.rosterOf g).any fun m => m.dieAddr == die

/-- The stages' slot counts P_s, in ascending stage order (05 R182). -/
def State.counts (s : State) (g : Nat) : List Nat := (enabled (s.gr g).stageMask).map fun st => (s.gr g).peers st

/-- M, the number of positions (05 R184). -/
def State.positions (s : State) (g : Nat) : Nat := (s.counts g).foldl (· * ·) 1

/-- This member's position (05 R184): slots as digits, the first enabled stage lowest. -/
def State.ownPos (s : State) (g : Nat) : Nat :=
  ((enabled (s.gr g).stageMask).reverse).foldl (fun q st => q * (s.gr g).peers st + s.ownSlot g st) 0

/-- The slot of position `q` at the i-th enabled stage (05 R184). -/
def digit (counts : List Nat) (q i : Nat) : Nat :=
  (q / ((counts.take i).foldl (· * ·) 1)) % max 1 ((counts[i]?).getD 1)

/-- The member entry of a position that differs from this one in at most one stage's slot. -/
def State.entryAt (s : State) (g q : Nat) : Option Member :=
  let stages := enabled (s.gr g).stageMask
  let counts := s.counts g
  let own := s.ownPos g
  let diff := (List.range stages.length).filter fun i => digit counts q i != digit counts own i
  match diff with
  | [] => s.ownEntry g
  | [i] => ((s.slots g ((stages[i]?).getD 0))[digit counts q i]?).map (·.2)
  | _ => none

/-- A position's record: this engine's own table where it lists the position, else the roster record, whose order is
position order (05 R184) (in part DEDUCED, log entry 19). Of a change at run time to a position outside its own table an engine learns
nothing, so such a position keeps the roster's STATE (05 R187; DESIGN CHOICE, log entry 19). -/
def State.position (s : State) (g q : Nat) : Member :=
  match s.entryAt g q with
  | some m => m
  | none => ((s.image.rosterOf g)[q]?).getD {}

/-! ### Levels and stages (05 R183) -/

/-- Whether two die addresses differ in a level (00 R2). -/
def levelDiff (a b l : Nat) : Bool :=
  match l with
  | 1 => a % 64 != b % 64
  | 2 => bits a 6 2 != bits b 6 2
  | 3 => bits a 8 4 != bits b 8 4
  | _ => bits a 12 6 != bits b 12 6

/-- The stage that covers a level: the nearest enabled stage at or above it, else the nearest below (05 R183). -/
def coverStage (mask l : Nat) : Nat :=
  match (enabled mask).find? (l ≤ ·) with
  | some st => st
  | none => ((enabled mask).getLast?).getD 0

/-- Two addresses differ only in the levels that a stage covers. -/
def differOnlyIn (mask st a b : Nat) : Bool :=
  [1, 2, 3, 4].all fun l => !levelDiff a b l || coverStage mask l == st

/-! ### Building the member table (02 R508) -/

/-- The entries a group takes in the table: per enabled stage, the roster records that differ from this engine only in
the levels that the stage covers, with STAGE set. A VACANT record keeps the RANK of the image, whatever it is (02 R61; DESIGN
CHOICE, log entry 19). -/
def stageCopies (mask me : Nat) (roster : List Member) (st : Nat) : List Member :=
  (roster.filter fun m => differOnlyIn mask st m.dieAddr me).map fun m => { m with stage := st }

/-- The table copy of a group record and the group's entries, placed from `base` (02 R508). -/
def placeGroup (im : Image) (me base : Nat) (r : GroupRec) : GroupRec × List Member :=
  if im.lists r.group me then
    let ros := im.rosterOf r.group
    let c := fun st => if bit r.stageMask (st - 1) then stageCopies r.stageMask me ros st else []
    ({ r with memberBase := base, peers1 := (c 1).length, peers2 := (c 2).length, peers3 := (c 3).length
              peers4 := (c 4).length }, c 1 ++ c 2 ++ c 3 ++ c 4)
  else ({ r with memberBase := 0, peers1 := 0, peers2 := 0, peers3 := 0, peers4 := 0 }, [])

/-- The valid group records of an image in ascending group number. -/
def Image.validGroups (im : Image) : List GroupRec :=
  sortBy (fun a b => a.group ≤ b.group) (im.groups.filter (·.valid))

/-- This engine's group-table records and member table under an image (02 R508). -/
def buildTable (im : Image) (me : Nat) : List GroupRec × List Member :=
  im.validGroups.foldl (fun (gs, ms) r =>
    let (r', es) := placeGroup im me ms.length r
    (gs ++ [r'], ms ++ es)) ([], [])

/-- Write a list of member entries from index 0. -/
def membersOf (ms : List Member) : Tab Member := (ms.zipIdx.map fun (m, i) => (i, m)).filter fun x => x.2 != {}

/-! ### Quarantine (02 R91, R92) and own entries -/

/-- Replace every copy of an entry of a group: all copies of this engine's own entry act as one (02 R508). -/
def State.setEntry (s : State) (g i : Nat) (m : Member) : State :=
  if (s.member i).dieAddr == s.me then
    (s.groupEntries g).foldl (fun s x =>
      if x.2.dieAddr == s.me then s.setMember x.1 { m with stage := x.2.stage } else s) s
  else s.setMember i m

/-- The group that a member-table index belongs to. -/
def State.groupOf (s : State) (i : Nat) : Option Nat :=
  (s.groups.find? fun (_, x) =>
    x.gr.valid && x.gr.memberBase ≤ i && i < x.gr.memberBase + x.gr.peers1 + x.gr.peers2 + x.gr.peers3 + x.gr.peers4).map
    (·.1)

/-- This engine's own entries over all groups. -/
def State.ownEntries (s : State) : List Member :=
  s.groups.filterMap fun (g, x) => if x.gr.valid then s.ownEntry g else none

/-- KEEPER_STATE.QUARANTINE (02 R90, R92). -/
def State.quarantined (s : State) : Bool :=
  s.keeper.idFail ||
    ((s.ownEntries.all fun m => m.state != stActive && m.state != stEvict) &&
      s.ownEntries.any fun m => m.state == stQuarantine || (m.state == stAdmit && m.afterQ))

/-! ### Service (02 R95-R99) -/

/-- Ports that the image names: package ports in the stage-1 record, system ports in any (12 R470). -/
def Image.namedPorts (im : Image) : List Nat :=
  (List.range 8).filter fun p => if p < 4 then bit (im.ports 1) p else im.stages.any fun r => bit r.ports p

/-- The conditions of full service under an image: tally locked, and no named, enabled port in TRAIN, ATTACH, BASIC or RETRAIN
(02 R95). -/
def State.fullReadyIn (s : State) (im : Image) : Bool :=
  s.tally.lock && im.namedPorts.all fun p =>
    let l := s.link p
    !l.en || !(l.state == .train || l.state == .attach || l.state == .basic || l.state == .retrain)

def State.fullReady (s : State) : Bool := s.fullReadyIn s.image

/-- Every valid group in which this engine's own entry is ACTIVE or EVICT (02 R99). -/
def State.servedGroups (s : State) : List Nat :=
  s.groups.filterMap fun (g, x) =>
    if x.gr.valid && (match s.ownEntry g with
      | some m => m.state == stActive || m.state == stEvict
      | none => false) then some g else none

/-- PHASE becomes FULL once every group of R99 has full service; where there is no such group, once full service is
available (02 R95) (in part DEDUCED, log entry 24). -/
def refreshPhase (s : State) : State :=
  let gs := s.servedGroups
  if s.keeper.phase == .lowWater && (gs.all fun g => (s.group g).full) && (!gs.isEmpty || s.fullReady) then
    s.updKeeper fun k => { k with phase := .full }
  else s

/-- Recompute the quarantine flag after a change of own entries, which may also change the set of R99. -/
def refreshQuarantine (s : State) : State := refreshPhase (s.updKeeper fun k => { k with quarantine := s.quarantined })

/-- Entries of a die address whose ID_CHECK differs move to QUARANTINE from ACTIVE or ADMIT (02 R78, R91). -/
def quarantineDie (s : State) (die : Nat) (check : W64) : State :=
  let hit (m : Member) : Bool :=
    m.dieAddr == die && m.idCheck != check && (m.state == stActive || m.state == stAdmit)
  refreshQuarantine { s with
    members := s.members.map fun (i, m) => if hit m then (i, { m with state := stQuarantine }) else (i, m) }

/-- The engine takes part in group traffic at all: it is not quarantined (02 R92), nor withdrawn (11 R429). -/
def State.mayTrade (s : State) : Bool := !s.keeper.quarantine && !s.warden.withdrawn

/-- The engine takes part in traffic of a group: in addition its own position is present (05 R185). -/
def State.mayTradeIn (s : State) (g : Nat) : Bool := s.mayTrade && (s.ownEntry g).any Member.present

/-! ### Ports that begin to train (12 R473) -/

/-- The lane groups of a mask. -/
def laneCount (mask : Nat) : Nat := ((List.range 4).filter (bit mask)).length

/-- MAX_WIDTH as lane groups (12 R487). -/
def maxLanes (code : Nat) : Nat := if code == 0 then 4 else if code == 1 then 2 else 1

/-- The largest of 4, 2 and 1 within a bound; 0 when there is none. -/
def widthUnder (n : Nat) : Nat := if 4 ≤ n then 4 else if 2 ≤ n then 2 else n

/-- The width that a port could have over the lane groups of a mask (12 R475). -/
def LinkSt.widthOver (l : LinkSt) (mask : Nat) : Nat := widthUnder (min (laneCount mask) (min (maxLanes l.maxWidth) l.cap))

/-- The TRAIN flit that a port sends (12 R465): the width it offers is what its ready lane groups allow (in part DEDUCED, log entry
33). -/
def trainFlit (l : LinkSt) : LinkFlit :=
  { kind := 2, ack := 0, nack := 0, credits := [], width := l.widthOver l.ready
    stage := if l.state == .attach then 3 else if l.state == .retrain then 6 else 2, ready := l.ready, count := l.goodTrain }

/-- A port enters TRAIN. -/
def enterTrain (s : State) (n : Nat) : State :=
  s.updLink n fun l =>
    let l := { l with state := .train, goodTrain := 0, attempts := 0, attemptAt := s.now, backoffUntil := none
                      fromRetrain := false, cap := 4 }
    { l with sent := some (trainFlit l) }

/-- A port leaves DISABLED once its conditions are met, and WAIT_PHY once a lane group is ready; a package port that faces
outside the mesh stays idle (00 R3) (in part DEDUCED, log entry 33). -/
def wakePort (s : State) (n : Nat) : State :=
  let l := s.link n
  let faces := 4 ≤ n || (neighbour s.me n).isSome
  let s := if l.state == .disabled && s.keeper.phase != .noImage && l.en && faces && s.image.namedPorts.contains n then
    s.updLink n fun l => { l with state := .waitPhy } else s
  if (s.link n).state == .waitPhy && l.ready != 0 then enterTrain s n else s

def wakePorts (s : State) : State := (List.range 8).foldl wakePort s

end Sys2Proof.Machine
end

