-- ==== Sys2Proof/Machine/Entries.lean ====
section
/-! DEFINITION. Entries and their queues (03): queue state and its write-back, the discard of unstarted entries, queue
ERROR (R121), early ends of started operations (04 R172-R174), the resume record (04 R166, R181), the step timer
(05 R212) and the sync dump (08 R338, R339). -/

namespace Sys2Proof.Machine

/-! ### Status codes (03 R125, R126) -/

def codeOk : Nat := 0x00
def codeCancelled : Nat := 0x01
def codeHalted : Nat := 0x02
def codeTimeout : Nat := 0x03
def codeForeign : Nat := 0x04
def codeLowWater : Nat := 0x05
def codeRebalance : Nat := 0x06
def codeSkew : Nat := 0x07
def codeRecalled : Nat := 0x08
def codeMismatch : Nat := 0x09
def codeFault : Nat := 0x0A

/-- The place of a status in the order of 03 R126; the two codes of entries that were not executed come first. -/
def statusRank (st : Nat) : Nat :=
  if st == codeFault then 1 else if st == codeMismatch then 2 else if st == codeTimeout then 3
  else if st == codeHalted then 4 else if st == codeCancelled then 5 else if st == codeSkew then 6
  else if st == codeRebalance then 7 else if st == codeRecalled then 8 else if st == codeOk then 9 else 0

/-- The status that applies when two do (03 R126). -/
def mergeStatus (a b : Nat) : Nat := if statusRank b < statusRank a then b else a

/-! ### Opcode kinds (03 R108) -/

def opNop : Nat := 0x00
def opAllreduce : Nat := 0x01
def opReduceScatter : Nat := 0x02
def opAllgather : Nat := 0x03
def opBroadcast : Nat := 0x04
def opAlltoall : Nat := 0x05
def opExchange : Nat := 0x06
def opRotate : Nat := 0x07
def opUpdate : Nat := 0x08
def opDigest : Nat := 0x09
def opBarrier : Nat := 0x0A
def opSignal : Nat := 0x0B
def opWait : Nat := 0x0C
def opCopy : Nat := 0x0D
def opMark : Nat := 0x0E

/-- Group-wide opcodes (03 R108). -/
def isGroupWide (opcode : Nat) : Bool := (1 ≤ opcode && opcode ≤ 0x0A) || opcode == opMark

/-- An entry of another agent, which completes without being executed (02 R87; 03 R126): it counts as no started entry. -/
def Op.foreign (o : Op) : Bool := o.ended == some codeForeign

/-- The started operations of the engine. -/
def State.started (s : State) : List Op := s.ops.filter fun o => !o.foreign

/-- Opcodes that hold later entries of their queue (03 R108, R113). -/
def holdsLater (opcode : Nat) : Bool := opcode == opBarrier || opcode == opWait || opcode == opMark

/-! ### Queue state -/

/-- Started entries of a queue that have not completed, those whose record is on its way among them (03 R106, R112,
R137) (in part DEDUCED, log entry 16). -/
def State.inFlight (s : State) (q : Nat) : Nat :=
  (s.ops.filter fun o => o.q == q).length +
    (s.xfers.filter fun x => match x.pur with
      | .record r _ => r == q
      | _ => false).length

/-- A queue whose STATE changes; the head word becomes due (03 R106). -/
def setQState (s : State) (q : Nat) (st : QState) : State :=
  s.updQueue q fun x => if x.state == st then x else { x with state := st, wbDirty := true }

/-- A DRAINING queue with nothing in flight is DISABLED (03 R128). -/
def settleQueue (s : State) (q : Nat) : State :=
  if (s.queue q).state == .draining && s.inFlight q = 0 then setQState s q .disabled else s

/-- Discard every fetched entry that has not started; FETCH returns to the first of them (03 R121, R128). -/
def discardUnstarted (s : State) (q : Nat) : State :=
  s.updQueue q fun x => { x with
    fetch := match x.buffered with
      | [] => x.fetch
      | b :: _ => b.count
    buffered := [], batch := none, mapLeft := 0, mapBuf := [] }

/-- A queue enters ERROR (03 R121); an ABSENT one has no state of its own (R127). The first cause and its count stand until ENABLE
is set (R131), also where a halt has come between. -/
def queueError (s : State) (q cause index : Nat) : State :=
  let x := s.queue q
  let s := if x.state == .error || x.state == .absent then s
    else if x.cause != 0 then setQState (s.setQueue q { x with enable := false }) q .error
    else setQState (s.setQueue q { x with enable := false, cause, errIndex := index }) q .error
  discardUnstarted s q

/-! ### Pauses and the resume record (04 R166, R181) -/

/-- The resume record that shows a paused operation. -/
def recordOf (o : Op) (p : Pause) (n : Nat) : ResumeRec :=
  { entry := o.c, valid := true, write := p.write, multi := 1 < n, paused := n, faults := min 255 o.pauses
    siphon := p.siphon, addr := p.addr, rpos := p.rpos, wpos := p.wpos, tally := p.tally }

/-- The resume record after a pause, a resume or an early end: it stays with its entry while that is paused, else moves
to the oldest paused entry, else clears (04 R166). -/
def refreshResume (s : State) (q : Nat) : State :=
  let paused := s.ops.filterMap fun o => if o.q == q then o.pause.map fun p => (o, p) else none
  let n := paused.length
  s.updQueue q fun x =>
    let named := paused.find? fun y => x.resume.valid && y.1.c == x.resume.entry
    match named.orElse fun _ => paused.head? with
    | some (o, p) => { x with resume := recordOf o p n }
    | none => { x with resume := {} }

/-! ### The step timer (05 R212) -/

/-- A group that runs: valid and not halted. -/
def State.running (s : State) (g : Nat) : Bool := (s.gr g).valid && !(s.group g).halted

/-- A started operation that waits on a peer: a group-wide entry, in its group phase if it is a BARRIER and not while all that is
to come from peers has come, or a remote SIGNAL without its acknowledgement (05 R212; 08 R325, R332). -/
def Op.waitsOnPeer (o : Op) : Bool :=
  o.running && o.ended.isNone && !o.alone &&
    ((isGroupWide o.desc.opcode && !(o.desc.opcode == opBarrier && o.bar != 1) && !(o.ready && o.settled)) || o.sig.isSome)

/-- Whether the step timer of a group should run: an entry waits on a peer, or a weir does (02 R77, R83). -/
def State.timerWanted (s : State) (g : Nat) : Bool :=
  let gs := s.group g
  (match gs.marking with
    | some m => !m.complete && (enabled (s.gr g).stageMask).any fun st => s.weirWaits g st m.resume != []
    | none => false) ||
    (s.allPeers g != [] && !gs.halted && s.ops.any fun o => !o.desc.noGroup && o.desc.group == g && o.waitsOnPeer)

/-- Start or stop the step timer of a group. -/
def refreshTimer (s : State) (g : Nat) : State :=
  s.updGroup g fun x =>
    if s.timerWanted g then { x with timerAt := some (x.timerAt.getD s.now) } else { x with timerAt := none }

/-- Something of the group has arrived from a peer: the timer restarts (05 R212). -/
def restartTimer (s : State) (g : Nat) : State :=
  s.updGroup g fun x => if s.timerWanted g then { x with timerAt := some s.now } else { x with timerAt := none }

/-! ### Early ends (04 R172-R174) -/

/-- Writes that finish a commit unit of UPDATE even after the entry has ended (07 R293). -/
def Purpose.isUnit : Purpose → Bool
  | .stateWrite _ _ _ | .headerWrite _ _ _ => true
  | _ => false

/-- A transfer waits to be issued; one of a paused entry, or of an entry that waits for its staging pair, does not (04 R145, R151, R165). -/
def State.awaits (s : State) (x : Xfer) : Bool :=
  match x.pur.entry with
  | none => true
  | some (q, c) => (s.op? q c).all fun o => o.pause.isNone && o.pair != .waiting

/-- A class with nothing waiting has credit 0 (04 R145). -/
def SiphonSt.clearCredits (p : SiphonSt) (waits : Xfer → Bool) : SiphonSt :=
  let keep (c : Nat) (v : Int) : Int := if p.waiting.any fun x => x.cls == c && waits x then v else 0
  { p with credR := keep 0 p.credR, credW := keep 1 p.credW, credM := keep 2 p.credM }

/-- Take out waiting transfers, and with them the credits of the classes that are left without one (04 R145). -/
def State.keepWaiting (s : State) (keep : Xfer → Bool) : State :=
  { s with siphons := (s.siphons.map fun (i, p) =>
      (i, SiphonSt.clearCredits { p with waiting := p.waiting.filter keep } s.awaits)).filter fun x => x.2 != {} }

/-- Drop the waiting transfers of an entry: none is issued after it ends (04 R172), but for the writes of a commit unit of which
one has been issued (07 R293). -/
def dropTransfers (s : State) (q c : Nat) : State :=
  let unit := (s.op? q c).any fun o => o.upd.issued
  let mine (x : Xfer) : Bool := x.pur.entry == some (q, c) && !(unit && x.pur.isUnit)
  { s.keepWaiting fun x => !mine x with
    cache := { s.cache with fills := s.cache.fills.map fun f =>
      { f with waiters := f.waiters.filter fun x => !mine x } } }

/-- An operation that no longer ends early: a SIGNAL that has been applied, a WAIT that has been released, and a MARK whose
commit point has passed (01 R26; 02 R77; 08 R309, R310, R323). -/
def State.past (s : State) (o : Op) : Bool :=
  o.ended.isNone && o.ready && (o.desc.opcode == opSignal || o.desc.opcode == opWait) ||
    !o.desc.noGroup && (s.group o.desc.group).markOp == some (o.q, o.c) &&
      (s.group o.desc.group).marking.any fun m => m.committed.isSome

/-- A started operation ends early with a status (04 R172, R174; 08 R320): its waiter leaves the sync unit, its pause
ends, its kept parcels are released, a commit unit whose write had faulted is torn (07 R293), and the weir of a MARK ends
with it (03 R129). -/
def endOp (s : State) (q c st : Nat) : State :=
  match s.op? q c with
  | none => s
  | some o =>
    if s.past o then s else
    match o.ended with
    | some old => s.updOp q c fun o => { o with ended := some (mergeStatus old st) }
    | none =>
      let s := dropTransfers s q c
      let s := s.updSync fun y => { y with waiters := y.waiters.filter fun w => !(w.q == q && w.c == c) }
      let torn := match o.pause with
        | some p => p.faulted.any fun x => x.pur.isUnit
        | none => false
      let s := s.updOp q c fun o => { o with
        ended := some st, pause := none, kept := []
        upd := { o.upd with
          tornDue := torn, phase := if o.upd.issued then o.upd.phase else .idle, reading := false, forming := {}, units := [] } }
      let g := o.desc.group
      let s := if !o.desc.noGroup && (s.group g).markOp == some (q, c) then
          refreshTimer (s.updGroup g fun x => { x with marking := none, markOp := none }) g
        else s
      refreshResume s q

/-- End every started operation of a queue that a condition names. -/
def endWhere (s : State) (p : Op → Bool) (st : Op → Nat) : State :=
  (s.ops.filter p).foldl (fun s o => endOp s o.q o.c (st o)) s

/-! ### The sync dump (08 R338, R339) -/

/-- SYNC_VALUE of a counter (08 R340). -/
def valueReg (s : State) (n : Nat) : Nat :=
  let x := s.counter n
  x.value + at_ (b1 x.sat) 32 + at_ (b1 x.under) 33 + at_ (b1 x.leftover) 34 +
    at_ (s.sync.waiters.filter fun w => w.counter == n).length 35

/-- SYNC_LAST of a counter (08 R341). -/
def lastReg (x : Counter) : Nat :=
  x.lastDie + at_ x.lastKind 18 + at_ x.lastSource 22 + at_ (b1 x.lastIgnored) 30 + at_ (x.lastTally % 2 ^ 32) 32

/-- The level on BAR_IN (08 R328): of an engine that takes no part, the inverse of SENSE. -/
def Weir.barIn (w : Weir) : Bool := if w.engine then w.input else !w.sense

/-- The engine's input on a wire has entered the present generation (08 R326, R328, R342). -/
def Weir.entered (w : Weir) : Bool := w.barIn != w.sense

/-- SYNC_WEIR of a wire (08 R342); ENGINE_IN is 0 for an engine that takes no part (in part DEDUCED, log entry 27). -/
def weirReg (w : Weir) : Nat :=
  w.gen + at_ (b1 w.sense) 32 + at_ (b1 w.and_) 33 + at_ (b1 (w.engine && w.entered)) 34 + at_ (b1 w.misuse) 35

/-- SYNC_WAITER of a queue (08 R343): its started WAIT. -/
def waiterReg (s : State) (q : Nat) : Nat :=
  match s.started.find? fun o => o.q == q && o.desc.opcode == opWait with
  | none => 0
  | some o => o.desc.sync + at_ (b1 (s.sync.waiters.any fun w => w.q == q && w.c == o.c)) 12 +
      at_ (b1 (bit o.desc.aux16 0)) 13 + at_ o.desc.aux32 32

/-- The tally at which a queue's WAIT parked. -/
def parkedAt (s : State) (q : Nat) : Nat :=
  ((s.sync.waiters.find? fun w => w.q == q && !w.rotate).map (·.tally)).getD 0

/-- The step and the run that count now: from its commit point on a step mark's new ones, also while an image swap delays them
(01 R26, R28). -/
def GroupSt.stepNow (x : GroupSt) : Nat × Nat := (x.marking.bind (·.committed)).getD (x.step, x.run)

/-- The bytes of a dump (08 R339). -/
def dumpBytes (s : State) (reason group : Nat) : List Byte :=
  leBytes 8 s.stamp ++ leBytes 1 reason ++ leBytes 1 0 ++ leBytes 2 group ++ leBytes 4 s.me ++
  leBytes 4 (if reason == 0 then 0 else (s.group group).stepNow.1) ++ leBytes 2 s.sync.held.length ++ leBytes 42 0 ++
  (List.range 4096).flatMap (fun n => leBytes 8 (valueReg s n) ++ leBytes 8 (lastReg (s.counter n))) ++
  (List.range 64).flatMap (fun w => leBytes 8 (weirReg (s.weir w)) ++ leBytes 8 (s.weir w).lastTally) ++
  (List.range 256).flatMap (fun q => leBytes 8 (waiterReg s q) ++ leBytes 8 (parkedAt s q)) ++
  s.sync.held.flatMap (fun h =>
    leBytes 8 (h.m.counter + at_ (b1 h.m.sub) 12 + at_ h.m.c.group 13 + at_ h.m.src 25) ++
    leBytes 8 (h.m.c.step + at_ h.m.n 32) ++ leBytes 8 h.m.amount ++ leBytes 8 h.tally)

/-- Write a dump (08 R338): reason 0 owner, 1 step timeout, 2 unit fault. A dump that cannot be written is counted in
MISSED. The Bool tells whether it is being written (in part DEDUCED, log entry 24). -/
def writeDump (s : State) (reason group : Nat) : State × Bool :=
  if s.sync.dumpEn && !s.sync.dumpFull && !s.sync.dumpBusy then
    (enqueueWrite (s.updSync fun y => { y with dumpBusy := true }) 3 257 s.sync.dumpAddr (dumpBytes s reason group)
      siphonOf (fun _ => .dump), true)
  else (s.updSync fun y => { y with dumpMissed := satAdd 255 y.dumpMissed 1 }, false)

/-! ### Halts (05 R213, R225; 03 R130; 08 R325) -/

/-- HALT_CAUSE codes (05 R225). -/
def haltTimeout : Nat := 1
def haltPeer : Nat := 2
def haltMismatch : Nat := 3
def haltBelowMin : Nat := 4
def haltAboveMax : Nat := 5
def haltStepSkew : Nat := 6
def haltFault : Nat := 7
def haltNoPump : Nat := 8
def haltManual : Nat := 9

/-- The fields common to this engine's messages of a group (12 R461). -/
def commonOf (s : State) (g stage entry : Nat) : Common :=
  { group := g, stage, run := (s.group g).run, step := (s.group g).step, entry }

/-- The common fields of a message of the group as a whole, such as HALT and WITHDRAW, under the step and run that count now (01 R26; 12 R461). -/
def commonNow (s : State) (g : Nat) : Common :=
  { commonOf s g 0 0 with step := (s.group g).stepNow.1, run := (s.group g).stepNow.2 }

/-- Halt a group on this member (03 R130): its started entries, group-wide and local, end with the status that `st`
gives, its queue enters HALTED, and what the run had gathered from peers is dropped, but for tokens of the next run. A mark
whose commit point has passed stands: the halt counts against what follows it (01 R26) (in part DEDUCED, log entry 24). -/
def haltGroup (s : State) (g cause : Nat) (st : Op → Nat) : State :=
  if (s.group g).halted || !(s.gr g).valid then s
  else
    let q := (s.gr g).queue
    let done := (s.group g).marking.any fun m => m.committed.isSome
    let s := s.updGroup g fun x => { x with
      halted := true, haltCause := cause, timerAt := none
      marking := if done then x.marking else none, markOp := if done then x.markOp else none
      toks := x.toks.filter fun t => t.2.c.run != x.run
      early := [], earlyMarks := [] }
    let s := endWhere (s.updSync fun y => { y with quietSince := none }) (fun o => o.q == q) st
    let s := discardUnstarted s q
    let s := s.updQueue q fun x => { x with enable := false }
    if (s.queue q).state == .absent then s else setQState s q .halted

/-- Discard the held signals of a halted group (08 R325). -/
def dropHeld (s : State) (g : Nat) : State :=
  s.updSync fun y => { y with held := y.held.filter fun h => h.m.c.group != g }

/-- Send HALT to every present peer at every stage (05 R213). A quarantined engine sends no group traffic (02 R92)
(in part DEDUCED, log entry 24). -/
def sendHalt (s : State) (g cause : Nat) (missing : List Nat) : State :=
  if s.mayTradeIn g then
    sendAll s (s.allPeers g) (.halt { src := s.me, c := commonNow s g, cause, missing := missing.take 8 })
  else s

/-- Statuses of the started entries when the group halts for a given reason. -/
def endHalted : Op → Nat := fun _ => codeHalted
/-- At a mismatch the started entries have MISMATCH (03 R133); a WAIT and a SIGNAL have HALTED (08 R320, R325). -/
def endMismatch : Op → Nat := fun o =>
  if o.desc.opcode == opWait || o.desc.opcode == opSignal then codeHalted else codeMismatch
def endFault : Op → Nat := fun o => if o.desc.opcode == opWait then codeHalted else codeFault
/-- Statuses when a fault hits one entry: FAULT for it, HALTED for the others (03 R125; 07 R294; 10 R404). -/
def endFaultOf (num : Nat) : Op → Nat := fun o =>
  if isGroupWide o.desc.opcode && o.num == num then codeFault else codeHalted
def endTimeout : Op → Nat := fun o => if isGroupWide o.desc.opcode then codeTimeout else codeHalted

/-- Halt a group and tell its peers (05 R213, R224; 03 R133; 10 R392). -/
def haltNaming (s : State) (g cause : Nat) (st : Op → Nat) (missing : List Nat) : State :=
  if (s.group g).halted || !(s.gr g).valid then s
  else dropHeld (sendHalt (haltGroup s g cause st) g cause missing) g

/-- The same with no peer named. -/
def haltAndTell (s : State) (g cause : Nat) (st : Op → Nat) : State := haltNaming s g cause st []

/-- A unit fault halts a group: as above, and the sync unit dumps (08 R338). -/
def haltOnFault (s : State) (g cause : Nat) (st : Op → Nat) : State :=
  if (s.group g).halted || !(s.gr g).valid then s
  else
    let s := sendHalt (haltGroup s g cause st) g cause []
    dropHeld (writeDump s 2 g).1 g

/-- Pumps that can carry allocated work: not fenced, or stood in for by the spare (01 R39, R40). -/
def State.pumpRuns (s : State) (p : Nat) : Bool := !(s.warden.fenced.contains p) || s.warden.spareIn == some p

/-- Pumps of a group's allocation that run. -/
def State.groupPumps (s : State) (g : Nat) : List Nat :=
  (List.range 16).filter fun p => bit (s.gr g).pumpMask p && s.pumpRuns p

/-- Running groups left without a pump halt, each with a NO_PUMP record (01 R41): when a pump is fenced (its number is given), and
when a group would start or go on over an allocation that is fenced already. -/
def haltPumpless (s : State) (unit : Option Nat) : State × List Nat :=
  let gs := s.groups.filterMap fun (g, x) =>
    if x.gr.valid && !x.halted && x.gr.pumpMask != 0 && (s.groupPumps g).isEmpty then some g else none
  (gs.foldl (fun s g =>
    makeRecord (haltOnFault s g haltNoPump endHalted)
      { type := 0x0C, action := 5, operation := 0xFF, group := g, step := (s.group g).stepNow.1, count := 0xFFFFFFFF
        unit := unit.getD (((List.range 16).find? (bit (s.gr g).pumpMask)).getD 0), s0 := g }) s,
    if gs.isEmpty then [] else [5])

/-- Halt with MISMATCH (03 R133). -/
def haltMismatched (s : State) (g : Nat) : State := haltAndTell s g haltMismatch endMismatch

end Sys2Proof.Machine
end

