-- ==== Sys2Proof/Machine/Counters.lean ====
section
/-! DEFINITION. Sync counters (08 R306-R320): one change at a time, saturation and underflow, refusals, waiters in
parking order, wake pulses, and the release waits and landing credits of ROTATE (05 R219-R223). -/

namespace Sys2Proof.Machine

/-! ### The ring of ROTATE (05 R219) -/

/-- The place of a die in the snake order of a package's mesh (05 R205). -/
def snakeKey (d : Nat) : Nat := dieRow d * 8 + (if dieRow d % 2 = 0 then dieCol d else 7 - dieCol d)

/-- The ring of a group: the present positions in position order; where the first enabled stage covers only the package level
(05 R183), each package's members in snake order (05 R219) (in part DEDUCED, log entry 19). -/
def State.ring (s : State) (g : Nat) : List Nat :=
  let m := s.positions g
  let dies := ((List.range m).map (s.position g)).filter (·.present)
  let p1 := ((s.counts g)[0]?).getD 1
  let mask := (s.gr g).stageMask
  let snake := (enabled mask).head? == some 1 && [2, 3, 4].all fun l => coverStage mask l != 1
  if snake then
    (sortBy (fun a b => decide (a.1 < b.1) || (a.1 == b.1 && decide (snakeKey a.2.dieAddr ≤ snakeKey b.2.dieAddr)))
      (((List.range m).map fun q => (q / p1, s.position g q)).filter fun x => x.2.present)).map fun x => x.2.dieAddr
  else dies.map (·.dieAddr)

/-- The die `k` places before (or, with `fwd`, after) this one in the ring. -/
def State.ringAt (s : State) (g k : Nat) (fwd : Bool) : Nat :=
  let r := s.ring g
  let n := r.length
  let i := (r.findIdx? (· == s.me)).getD 0
  if n = 0 then s.me else (r[if fwd then (i + k) % n else (i + n * k - k) % n]?).getD s.me

/-! ### Changes of a counter (08 R307-R317) -/

/-- Kind codes of 08 R307. -/
def kindSignal : Nat := 1
def kindNotify : Nat := 2
def kindRotate : Nat := 3
def kindPause : Nat := 4
def kindDie : Nat := 5
def kindHost : Nat := 6
def kindRemote : Nat := 7
def kindWait : Nat := 8
def kindOwner : Nat := 9
def kindOther : Nat := 10

/-- The source of a change (08 R341). -/
structure ChangeSrc where
  kind : Nat
  die : Nat
  source : Nat
  deriving DecidableEq, Repr

/-- The outcome of a change: applied, saturated or underflowed, as an acknowledgement code (08 R323). -/
abbrev ChangeCode := Nat

/-- Record a change in SYNC_LAST (08 R341). -/
def stampLast (s : State) (x : Counter) (src : ChangeSrc) (ignored : Bool) : Counter :=
  { x with lastDie := src.die, lastKind := src.kind, lastSource := src.source, lastIgnored := ignored
           lastTally := s.stamp % 2 ^ 32 }

/-- A host counter whose mirror is on owes a mirror word after a change (08 R316). -/
def markMirror (n : Nat) (old new : Counter) : Counter :=
  if n < 64 && (new.value != old.value || new.sat != old.sat || new.under != old.under) then
    { new with mirrorDirty := true }
  else new

/-- Put a changed counter back; its wire pulses when the value changed (08 R317). -/
def putCounter (s : State) (n : Nat) (old new : Counter) : State :=
  let s := s.setCounter n (markMirror n old new)
  if new.value != old.value then pulse s (wakeWire n new) else s

/-- Record a refused change (08 R307, R344). -/
def refuse (s : State) (n : Nat) (src : ChangeSrc) (reason : Nat) : State :=
  s.updSync fun y => { y with refused := true, refCounter := n, refKind := src.kind, refDie := src.die
                              refSource := src.source, refReason := reason }

/-- A change of a local entry under 08 R308, checked again when it is applied: a counter bound to another group is
refused. -/
def boundElsewhere (s : State) (n : Nat) (noGroup : Bool) (g : Nat) : Bool :=
  let x := s.counter n
  !noGroup && x.bound && x.bind != g

/-- A consuming release subtracts its threshold (08 R310) (in part DEDUCED, log entry 27). -/
def consume (s : State) (n amount : Nat) (src : ChangeSrc) : State :=
  let x := s.counter n
  putCounter s n x (stampLast s { x with value := x.value - amount } src false)

/-- Whether a counter satisfies a threshold (08 R310). -/
def Counter.meets (x : Counter) (threshold : Nat) : Bool := !x.sat && !x.under && threshold ≤ x.value

/-- The landing credits a ROTATE owes its predecessor: block j + 2 may come once block j is released and, where it goes
on, forwarded (05 R221, R222). -/
def rotateCredits (s : State) (o : Op) : Nat → State
  | 0 => s
  | fuel + 1 =>
    let r := o.rot
    let j := r.credited + 1
    if j + 2 ≤ r.total && j ≤ r.released && (j + 1 > r.total || j ≤ r.forwarded) then
      let o' := { o with rot := { r with credited := j } }
      let g := o.desc.group
      let s := if s.mayTradeIn g then
          sendTo s (s.ringAt g 1 false) (.credit { src := s.me, c := commonOf s g 0 o.num, k := j + 2 })
        else s
      rotateCredits (s.updOp o.q o.c fun _ => o') o' fuel
    else s

/-- The counter of a ROTATE's release has been bound to another group since the entry was checked (08 R307, R308). -/
def State.releaseRefused (s : State) (w : Waiter) : Bool :=
  w.rotate && (s.op? w.q w.c).any fun o => boundElsewhere s w.counter o.desc.noGroup o.desc.group

/-- Release one waiter: a WAIT completes; a ROTATE has its release, also where the change of its counter is refused (08 R307, R310;
05 R221) (in part DEDUCED, log entry 27). -/
def releaseWaiter (s : State) (w : Waiter) : State :=
  let s := s.updSync fun y => { y with waiters := y.waiters.erase w, quietSince := none }
  let src : ChangeSrc := ⟨if w.rotate then kindRotate else kindWait, s.me, w.q⟩
  let s := if !w.consume then s
    else if s.releaseRefused w then refuse s w.counter src 1
    else consume s w.counter w.threshold src
  if w.rotate then
    let s := s.updOp w.q w.c fun o => { o with rot := { o.rot with released := o.rot.released + 1 } }
    match s.op? w.q w.c with
    | some o => rotateCredits s o o.rot.total
    | none => s
  else s.updOp w.q w.c fun o => { o with ready := true }

/-- Park a waiter, or release it at once when its condition holds (08 R310). -/
def parkOrRelease (s : State) (w : Waiter) : State :=
  let s' := s.updSync fun y => { y with waiters := y.waiters ++ [w] }
  if (s.counter w.counter).meets w.threshold then releaseWaiter s' w else s'

/-- The next release wait of a ROTATE: one at a time, each after its block has landed (05 R221, R223). -/
def rotateWait (s : State) (q c : Nat) : Nat → State
  | 0 => s
  | fuel + 1 =>
    match s.op? q c with
    | none => s
    | some o =>
      if o.ended.isNone && o.rot.released < o.rot.landedK &&
          !(s.sync.waiters.any fun w => w.q == q && w.c == c) then
        rotateWait (parkOrRelease s { counter := bits o.desc.aux16 0 12, q, c, threshold := 1, consume := true, rotate := true
                                      tally := s.stamp }) q c fuel
      else s

/-- Park the release waits that follow a release of a ROTATE. -/
def rotateWaits (s : State) : State :=
  s.ops.foldl (fun s o => if o.desc.opcode == opRotate then rotateWait s o.q o.c (o.rot.total + 1) else s) s

/-- Check a counter's waiters in parking order (08 R311); a released ROTATE then parks its next release wait. -/
def checkWaiters (s : State) (n : Nat) : State :=
  rotateWaits ((s.sync.waiters.filter fun w => w.counter == n).foldl (fun s w =>
    if (s.counter n).meets w.threshold then releaseWaiter s w else s) s)

/-- Apply a signal to a counter (08 R312-R314): the new state and the acknowledgement code. -/
def applySignal (s : State) (n : Nat) (sub : Bool) (amount : Nat) (src : ChangeSrc) : State × ChangeCode :=
  let x := s.counter n
  if x.sat || x.under then
    let s := s.setCounter n (stampLast s x src true)
    (s.updSync fun y => { y with satSeen := y.satSeen || x.sat, underSeen := y.underSeen || (!x.sat && x.under) },
      if x.sat then 1 else 2)
  else if sub then
    let low := decide (x.value < amount)
    let s := putCounter s n x (stampLast s { x with value := x.value - amount, under := low } src false)
    let s := s.updSync fun y => { y with underSeen := y.underSeen || low }
    (checkWaiters s n, if low then 2 else 0)
  else
    let high := decide (2 ^ 32 - 1 < x.value + amount)
    let s := putCounter s n x (stampLast s { x with value := min (2 ^ 32 - 1) (x.value + amount), sat := high } src false)
    let s := s.updSync fun y => { y with satSeen := y.satSeen || high }
    (checkWaiters s n, if high then 1 else 0)

/-- An owner write of SYNC_VALUE (08 R336): sets the value, clears SAT and UNDER, pulses the wake wire and checks the
waiters (in part DEDUCED, log entry 27). -/
def setValue (s : State) (n v agent : Nat) : State :=
  let x := s.counter n
  let y := stampLast s { x with value := v, sat := false, under := false } ⟨kindOwner, s.me, agent⟩ false
  checkWaiters (pulse (s.setCounter n (markMirror n x y)) (wakeWire n y)) n

/-- A local entry's change: misuse puts its queue in ERROR (08 R314). -/
def entrySignal (s : State) (q c n : Nat) (sub : Bool) (amount kind : Nat) : State :=
  let (s, code) := applySignal s n sub amount ⟨kind, s.me, q⟩
  if code == 0 then s else queueError s q 0x08 c

/-- Change a counter for a local entry, or refuse it (08 R307, R308). -/
def entryChange (s : State) (o : Op) (n : Nat) (sub : Bool) (amount kind : Nat) : State :=
  if boundElsewhere s n o.desc.noGroup o.desc.group then refuse s n ⟨kind, s.me, o.q⟩ 1
  else entrySignal s o.q o.c n sub amount kind

/-- A pulse on a wake wire: every waiter of a counter with that wire checks its
condition (08 R318). -/
def wakeWaiters (s : State) (w : Nat) : State :=
  (s.sync.waiters.map (·.counter)).eraseDups.foldl (fun s n =>
    if wakeWire n (s.counter n) == w then checkWaiters s n else s) s

end Sys2Proof.Machine
end

