-- ==== Sys2Proof/Machine/Fp.lean ====
section
/-! DEFINITION. Number formats and rounding (06): exact values, decoding, the rounding of R240 and R241, flushing,
native, strict and pair additions, comparisons, and the binary32 operations of the refiner (07 R277, R283). -/

namespace Sys2Proof.Machine

/-- An exact value: NaN, an infinity, or (-1)^neg × m × 2^e (a zero keeps its sign). -/
inductive Val where
  | nan
  | inf (neg : Bool)
  | fin (neg : Bool) (m : Nat) (e : Int)
  deriving DecidableEq, Repr

/-- A floating format: significand bits with the hidden bit, smallest normal exponent, widths, bias, the largest
exponent and fraction fields of a finite value, infinities, and the flush of fast sums and conversions (06 R228, R237). -/
structure Fmt where
  p : Nat
  emin : Int
  ew : Nat
  bias : Nat
  maxE : Nat
  maxF : Nat
  hasInf : Bool
  flush : Bool
  /-- low container bits of the encoding (W19 has 13) -/
  pad : Nat
  deriving DecidableEq, Repr

/-- Rounding modes: 0 nearest even, 1 toward zero, 2 stochastic (06 R240; 02, formats). -/
abbrev RMode := Nat

def fp32F : Fmt := ⟨24, -126, 8, 127, 254, 2 ^ 23 - 1, true, true, 0⟩
def bf16F : Fmt := ⟨8, -126, 8, 127, 254, 2 ^ 7 - 1, true, true, 0⟩
def fp16F : Fmt := ⟨11, -14, 5, 15, 30, 2 ^ 10 - 1, true, false, 0⟩
def w19F : Fmt := ⟨11, -126, 8, 127, 254, 2 ^ 10 - 1, true, true, 13⟩
def b8e4F : Fmt := ⟨4, -6, 4, 7, 15, 6, false, false, 0⟩
def b8e5F : Fmt := ⟨3, -14, 5, 15, 30, 3, true, false, 0⟩

/-- The floating format of a format code, for codes 0x0 to 0x5 (06 R228). -/
def fmtOf (code : Nat) : Option Fmt :=
  match code with
  | 0 => some fp32F
  | 1 => some bf16F
  | 2 => some fp16F
  | 3 => some w19F
  | 4 => some b8e4F
  | 5 => some b8e5F
  | _ => none

/-- The bytes one element occupies (06 R228). -/
def elemSize (code : Nat) : Nat :=
  match code with
  | 1 | 2 => 2
  | 4 | 5 | 7 => 1
  | 9 | 12 => 8
  | 10 => 12
  | _ => 4

/-- The codes whose elements share a scale byte (06 Shared scales). -/
def isBlockFmt (code : Nat) : Bool := code == 4 || code == 5 || code == 7

/-- A rounded encoding with the events that R266 and R267 count. -/
structure Rnd where
  bits : Nat
  sat : Bool := false
  flush : Bool := false
  deriving DecidableEq, Repr

/-- The canonical quiet NaN (06 R230). -/
def canonNan (code : Nat) : Nat :=
  match code with
  | 1 => 0x7FC0
  | 2 => 0x7E00
  | 4 => 0x7F
  | 5 => 0x7E
  | 11 => 0x7FC0
  | _ => 0x7FC00000

/-- Decode a floating encoding (06 R228, R230). -/
def decodeF (f : Fmt) (x : Nat) : Val :=
  let x := x >>> f.pad
  let fw := f.p - 1
  let fr := bits x 0 fw
  let ex := bits x fw f.ew
  let s := bit x (fw + f.ew)
  if f.hasInf && ex == 2 ^ f.ew - 1 then (if fr == 0 then .inf s else .nan)
  else if !f.hasInf && ex == 2 ^ f.ew - 1 && fr == 2 ^ fw - 1 then .nan
  else if ex == 0 then .fin s fr (f.emin - fw)
  else .fin s (fr + 2 ^ fw) ((ex : Int) - f.bias - fw)

/-- A two's-complement integer of `w` bits as an exact value. -/
def decodeI (w x : Nat) : Val :=
  let x := x % 2 ^ w
  if x < 2 ^ (w - 1) then .fin false x 0 else .fin true (2 ^ w - x) 0

/-- Exact addition of values, with the sign of a zero sum by 06 R242 and the special cases of R254. -/
def Val_add (a b : Val) : Val :=
  match a, b with
  | .nan, _ => .nan
  | _, .nan => .nan
  | .inf s, .inf t => if s == t then .inf s else .nan
  | .inf s, _ => .inf s
  | _, .inf t => .inf t
  | .fin s m e, .fin t n f =>
    let lo := min e f
    let x : Int := (if s then -1 else 1) * ((m <<< (e - lo).toNat : Nat) : Int)
    let y : Int := (if t then -1 else 1) * ((n <<< (f - lo).toNat : Nat) : Int)
    let z := x + y
    if z == 0 then .fin (s && t && m == 0 && n == 0) 0 0 else .fin (z < 0) z.natAbs lo

/-- The negated value. -/
def Val_neg : Val → Val
  | .nan => .nan
  | .inf s => .inf (!s)
  | .fin s m e => .fin (!s) m e

/-- Scale a value by 2^k (exact; 06 R265). -/
def Val_scale (k : Int) : Val → Val
  | .fin s m e => .fin s m (e + k)
  | v => v

/-- The exact product (06 R265). -/
def Val_mul (a b : Val) : Val :=
  match a, b with
  | .nan, _ => .nan
  | _, .nan => .nan
  | .inf s, .inf t => .inf (s != t)
  | .inf s, .fin t n _ => if n == 0 then .nan else .inf (s != t)
  | .fin s m _, .inf t => if m == 0 then .nan else .inf (s != t)
  | .fin s m e, .fin t n f => .fin (s != t) (m * n) (e + f)

/-- The value is zero. -/
def Val_isZero : Val → Bool
  | .fin _ m _ => m == 0
  | _ => false

/-- The value is finite. -/
def Val_isFin : Val → Bool
  | .fin _ _ _ => true
  | _ => false

/-- floor(log2 |v|) of a nonzero finite value. -/
def magExp (m : Nat) (e : Int) : Int := (m.log2 : Int) + e

/-- m × 2^e compared: true when the first magnitude is less. -/
def magLt (m : Nat) (e : Int) (n : Nat) (f : Int) : Bool :=
  let lo := min e f
  (m <<< (e - lo).toNat) < (n <<< (f - lo).toNat)

/-- v / 2^qe as an integer part and the discarded fraction rem / 2^k (06 R240). -/
def quantum (m : Nat) (e qe : Int) : Nat × Nat × Nat :=
  if qe ≤ e then (m <<< (e - qe).toNat, 0, 0)
  else
    let k := (qe - e).toNat
    (m >>> k, m % 2 ^ k, k)

/-- Whether the rounding goes away from zero (06 R240, R245). -/
def roundUp (mode : RMode) (u n rem k : Nat) : Bool :=
  if rem == 0 then false
  else match mode with
    | 0 => if 2 * rem == 2 ^ k then n % 2 == 1 else decide (2 ^ k < 2 * rem)
    | 1 => false
    | _ => decide (u < (rem * 2 ^ 32) / 2 ^ k)

/-- The encoding of an infinity or, toward zero or without infinities, of the largest finite value (06 R241). -/
def overflowBits (f : Fmt) (s : Bool) (mode : RMode) : Nat :=
  let sg := at_ (b1 s) (f.p - 1 + f.ew)
  (if f.hasInf && mode != 1 then sg + at_ (2 ^ f.ew - 1) (f.p - 1)
   else sg + at_ f.maxE (f.p - 1) + f.maxF) <<< f.pad

/-- Round an exact value into a floating format (06 R240, R241, R238). `keep` keeps subnormal results of a flushing
format (strict mode, pairs). -/
def roundF (f : Fmt) (code : Nat) (keep : Bool) (mode : RMode) (u : Nat) (v : Val) : Rnd :=
  match v with
  | .nan => ⟨canonNan code, !f.hasInf, false⟩
  | .inf s => if f.hasInf then ⟨(at_ (b1 s) (f.p - 1 + f.ew) + at_ (2 ^ f.ew - 1) (f.p - 1)) <<< f.pad, false, false⟩
    else ⟨overflowBits f s mode, true, false⟩
  | .fin s m e =>
    let sg := at_ (b1 s) (f.p - 1 + f.ew)
    if m == 0 then ⟨sg <<< f.pad, false, false⟩
    else
      let ex := max (magExp m e) f.emin
      let qe := ex - (f.p : Int) + 1
      let (n, rem, k) := quantum m e qe
      let n := n + b1 (roundUp mode u n rem k)
      let (n, ex) := if n == 2 ^ f.p then (n / 2, ex + 1) else (n, ex)
      if n == 0 then ⟨sg <<< f.pad, false, true⟩
      else if n < 2 ^ (f.p - 1) then
        if f.flush && !keep then ⟨sg <<< f.pad, false, true⟩ else ⟨(sg + n) <<< f.pad, false, false⟩
      else
        let ef := (ex + f.bias).toNat
        let fr := n - 2 ^ (f.p - 1)
        if f.maxE < ef || (ef == f.maxE && f.maxF < fr) then ⟨overflowBits f s mode, true, false⟩
        else ⟨(sg + at_ ef (f.p - 1) + fr) <<< f.pad, false, false⟩

/-- Round an exact value to a two's-complement integer of `w` bits within [lo, hi] (06 R240, R241). -/
def roundI (w : Nat) (lo hi : Nat) (mode : RMode) (u : Nat) (v : Val) : Rnd :=
  let enc (s : Bool) (n : Nat) : Nat := if s then (2 ^ w - n) % 2 ^ w else n
  match v with
  | .nan => ⟨0, true, false⟩
  | .inf s => ⟨if s then enc true lo else hi, true, false⟩
  | .fin s m e =>
    let (n, rem, k) := quantum m e 0
    let n' := n + b1 (roundUp mode u n rem k)
    if s then (if lo < n' then ⟨enc true lo, true, false⟩ else ⟨enc true n', false, n' == 0 && m != 0⟩)
    else if hi < n' then ⟨hi, true, false⟩ else ⟨n', false, n' == 0 && m != 0⟩

/-- The value of a pair from its components: an exact sum, so +0 where it is zero (06 R242). -/
def pairVal (h l : Val) : Val :=
  match Val_add h l with
  | .fin s m e => .fin (s && m != 0) m e
  | v => v

/-- Decode an element of a single storage format; scaled formats are decoded with scale byte `s` (06 R232), and I8s 0x80
reads as -127 (06 R231). -/
def decodeEl (code s x : Nat) : Val :=
  match code with
  | 6 => decodeI 32 x
  | 7 =>
    if s == 0xFF then .nan
    else Val_scale ((s : Int) - 127) (if x % 256 == 0x80 then .fin true 127 0 else decodeI 8 x)
  | 4 => if s == 0xFF then .nan else Val_scale ((s : Int) - 127) (decodeF b8e4F x)
  | 5 => if s == 0xFF then .nan else Val_scale ((s : Int) - 127) (decodeF b8e5F x)
  | 11 => pairVal (decodeF bf16F (bits x 0 16)) (decodeF bf16F (bits x 16 16))
  | 12 => pairVal (decodeF fp32F (bits x 0 32)) (decodeF fp32F (bits x 32 32))
  | 1 => decodeF bf16F x
  | 2 => decodeF fp16F x
  | 3 => decodeF w19F x
  | _ => decodeF fp32F x

/-- A subnormal of a flushing format, which a native sum or a conversion reads as zero (06 R237, R238). -/
def isFlushedInput (code x : Nat) : Bool :=
  match fmtOf code with
  | some f => f.flush && bits (x >>> f.pad) (f.p - 1) f.ew == 0 && bits (x >>> f.pad) 0 (f.p - 1) != 0
  | none => false

/-- Decode with input flushing (06 R238): the value and whether it was flushed. -/
def decodeFlush (code s x : Nat) : Val × Bool :=
  match decodeEl code s x with
  | .fin n m e => if isFlushedInput code x then (.fin n 0 0, true) else (.fin n m e, false)
  | v => (v, false)

/-- Round a value into a single (not block-scaled) target format (06 R247). -/
def encodeSingle (code : Nat) (keep : Bool) (mode : RMode) (u : Nat) (v : Val) : Rnd :=
  match code with
  | 6 => roundI 32 (2 ^ 31) (2 ^ 31 - 1) mode u v
  | 11 => let h := roundF bf16F 1 true mode u v
    { h with bits := if v == .nan then 0x7FC0 else h.bits }
  | 12 => roundF fp32F 0 true mode u v
  | c => match fmtOf c with
    | some f => roundF f c keep mode u v
    | none => ⟨0, false, false⟩

/-- A pair converted to the other pair format in two roundings (06 R247). -/
def encodePairFromPair (code : Nat) (mode : RMode) (u : Nat) (v : Val) : Rnd :=
  let f := if code == 11 then bf16F else fp32F
  let w := if code == 11 then 16 else 32
  let cc := if code == 11 then 1 else 0
  let h := roundF f cc true mode u v
  match decodeF f h.bits with
  | .fin _ _ _ =>
    let l := roundF f cc true 0 0 (Val_add v (Val_neg (decodeF f h.bits)))
    ⟨h.bits + at_ l.bits w, h.sat || l.sat, h.flush || l.flush⟩
  | _ => h

/-- The exponent parameter T of the scale choice (06 R236). -/
def scaleT (code : Nat) : Int :=
  match code with
  | 4 => 8
  | 5 => 15
  | _ => 7

/-- The scale byte of a block from its values before rounding (06 R236; 07 R285 gives T for state). -/
def chooseScale (t : Int) (vs : List Val) : Nat :=
  let e := vs.foldl (fun (acc : Option Int) v => match v with
    | .fin _ m e => if m == 0 then acc else some (match acc with | none => magExp m e | some a => max a (magExp m e))
    | _ => acc) none
  match e with
  | none => 127
  | some e => (max 0 (min 254 (e - t + 1 + 127))).toNat

/-- Round a value, already divided by its block's scale, into an element format (06 R236, R241) (in part DEDUCED, log entry 25). -/
def encodeBlockEl (code : Nat) (mode : RMode) (u : Nat) (v : Val) : Rnd :=
  match code with
  | 7 => roundI 8 127 127 mode u v
  | c => match fmtOf c with
    | some f => roundF f c true mode u v
    | none => ⟨0, false, false⟩

/-- The block rounding of 06 R236 and R241: the scale, and the elements with their events. An I8s block that holds a
NaN is written with scale 0xFF and elements 0; its NaN elements count as saturated. -/
def encodeBlock (code : Nat) (mode : RMode) (us : List Nat) (vs : List Val) : Nat × List Rnd :=
  if code == 7 && vs.any (· == .nan) then
    (0xFF, (vs.zip (us ++ List.replicate vs.length 0)).map fun (v, u) =>
      { encodeBlockEl 7 mode u (Val_scale (127 - (chooseScale 7 vs : Int)) v) with bits := 0 })
  else
    let s := chooseScale (scaleT code) vs
    (s, (vs.zip (us ++ List.replicate vs.length 0)).map fun (v, u) =>
      encodeBlockEl code mode u (Val_scale (127 - (s : Int)) v))

/-- The sign of a zero sum (06 R242): -0 only when both are -0. -/
def zeroSum (f : Fmt) (s t : Bool) : Nat := (at_ (b1 (s && t)) (f.p - 1 + f.ew)) <<< f.pad

/-- The fast addition (06 R253) with the special cases of R254; inputs have been flushed. -/
def addFast (f : Fmt) (code : Nat) (a b : Val) : Rnd :=
  match a, b with
  | .fin s m e, .fin t n g =>
    let swap := magLt m e n g
    let (s, m, e, t, n, g) := if swap then (t, n, g, s, m, e) else (s, m, e, t, n, g)
    if m == 0 then ⟨zeroSum f s t, false, false⟩
    else
      let qe := max (magExp m e) f.emin - (f.p : Int) + 1 - 2
      let (k, _, _) := quantum n g qe
      roundF f code false 0 0 (Val_add (.fin s m e) (.fin t k qe))
  | _, _ => roundF f code false 0 0 (Val_add a b)

/-- IEEE 754 addition, nearest even, subnormals kept (06 R256, R257) (in part DEDUCED, log entry 25). -/
def addStrict (f : Fmt) (code : Nat) (a b : Nat) : Rnd :=
  roundF f code true 0 0 (Val_add (decodeF f a) (decodeF f b))

/-- A native fast ⊕ on encodings, inputs flushed first (06 R238, R253) (in part DEDUCED, log entry 25). -/
def addNative (code a b : Nat) : Rnd :=
  match fmtOf code with
  | some f =>
    let (x, fx) := decodeFlush code 127 a
    let (y, fy) := decodeFlush code 127 b
    let r := addFast f code x y
    { r with flush := r.flush || fx || fy }
  | none => ⟨0, false, false⟩

/-- Saturating INT32 addition (06 R252). -/
def addInt32 (a b : Nat) : Rnd := roundI 32 (2 ^ 31) (2 ^ 31 - 1) 0 0 (Val_add (decodeI 32 a) (decodeI 32 b))

/-- two_sum of 06 R257 in the component format: sum, error, and whether some addition overflowed. -/
def twoSum (f : Fmt) (code a b : Nat) : Nat × Nat × Bool :=
  let neg (x : Nat) : Nat := x ^^^ (2 ^ (f.p - 1 + f.ew))
  let s := addStrict f code a b
  let bb := addStrict f code s.bits (neg a)
  let u := addStrict f code s.bits (neg bb.bits)
  let v := addStrict f code a (neg u.bits)
  let w := addStrict f code b (neg bb.bits)
  let e := addStrict f code v.bits w.bits
  (s.bits, e.bits, s.sat || bb.sat || u.sat || v.sat || w.sat || e.sat)

/-- Pair addition (06 R257): where the first sum is not finite it is the result's hi, as ±∞ ⊕ a finite value is ±∞ (R254)
(in part DEDUCED, log entry 25). -/
def addPair (code a b : Nat) : Rnd :=
  let f := if code == 11 then bf16F else fp32F
  let cc := if code == 11 then 1 else 0
  let w := if code == 11 then 16 else 32
  let lo (x : Nat) : Nat := bits x w w
  let hi (x : Nat) : Nat := bits x 0 w
  let (s, e, v) := twoSum f cc (hi a) (hi b)
  let l := addStrict f cc (lo a) (lo b)
  let t := addStrict f cc l.bits e
  let (h, l', v') := twoSum f cc s t.bits
  match decodeF f s with
  | .nan => ⟨canonNan cc, false, false⟩
  | .inf _ => ⟨s, (addStrict f cc (hi a) (hi b)).sat, false⟩
  | .fin _ _ _ =>
    let ovf := v || l.sat || t.sat || v'
    match decodeF f h with
    | .fin _ _ _ => ⟨h + at_ l' w, ovf, false⟩
    | .inf _ => ⟨h, ovf, false⟩
    | .nan => ⟨canonNan cc, ovf, false⟩

/-- A total order on values for max and min: -0 is less than +0 (06 R189). Both are not NaN. -/
def Val_lt (a b : Val) : Bool :=
  match a, b with
  | .inf s, .inf t => s && !t
  | .inf s, _ => s
  | _, .inf t => !t
  | .fin s m e, .fin t n f =>
    if s && !t then true
    else if !s && t then false
    else if s then magLt n f m e
    else magLt m e n f
  | _, _ => false

/-- The ⊕ of max (1), min (2) and absolute maximum (3) on encodings (06 R188, R189, R252). -/
def combineMax (operator code a b : Nat) : Rnd :=
  let x := decodeEl code 127 a
  let y := decodeEl code 127 b
  if x == .nan || y == .nan then ⟨canonNan code, false, false⟩
  else match operator with
    | 1 => ⟨if Val_lt x y then b else a, false, false⟩
    | _ => if operator == 2 then ⟨if Val_lt y x then b else a, false, false⟩
      else ⟨if Val_lt x y then b else a, false, false⟩

/-- The magnitude of a contribution to an absolute maximum, with the INT32 saturation of 06 R189. -/
def absEl (code x : Nat) : Rnd :=
  if code == 6 then
    if x % 2 ^ 32 == 2 ^ 31 then ⟨2 ^ 31 - 1, true, false⟩
    else if x % 2 ^ 32 < 2 ^ 31 then ⟨x % 2 ^ 32, false, false⟩ else ⟨2 ^ 32 - x % 2 ^ 32, false, false⟩
  else match fmtOf code with
    | some f => ⟨(bits (x >>> f.pad) 0 (f.p - 1 + f.ew)) <<< f.pad, false, false⟩
    | none => ⟨x, false, false⟩

/-- A contribution counts for `count` and for touch bits: it is not +0, -0 or integer 0; NaN counts (06 R189). -/
def isNonzero (code s x : Nat) : Bool := !(Val_isZero (decodeEl code s x))

/-! ### binary32 for the schedule engine (07 R283) -/

/-- Round to binary32, nearest even, keeping subnormals (07 R283). -/
def rnd32 (v : Val) : Nat := (roundF fp32F 0 true 0 0 v).bits

/-- The quotient as a value whose rounding is that of the exact quotient. -/
def Val_div (a b : Val) : Val :=
  match a, b with
  | .nan, _ => .nan
  | _, .nan => .nan
  | .inf _, .inf _ => .nan
  | .inf s, .fin t _ _ => .inf (s != t)
  | .fin s _ _, .inf t => .fin (s != t) 0 0
  | .fin s m e, .fin t n f =>
    if n == 0 then (if m == 0 then .nan else .inf (s != t))
    else if m == 0 then .fin (s != t) 0 0
    else
      let k := 64 + n.log2
      let x := m <<< k
      .fin (s != t) (2 * (x / n) + b1 (x % n != 0)) (e - k - f - 1)

/-- The integer square root, bit by bit from bit `i`. -/
def isqrtFrom (n : Nat) : Nat → Nat → Nat
  | 0, r => r
  | i + 1, r => let t := r + 2 ^ i; isqrtFrom n i (if t * t ≤ n then t else r)

/-- The square root as a value whose rounding is that of the exact root. -/
def Val_sqrt (a : Val) : Val :=
  match a with
  | .nan => .nan
  | .inf s => if s then .nan else .inf false
  | .fin s m e =>
    if m == 0 then .fin s 0 0
    else if s then .nan
    else
      let m := if e % 2 == 0 then m else 2 * m
      let e := if e % 2 == 0 then e else e - 1
      let x := m <<< 64
      let r := isqrtFrom x (x.log2 / 2 + 1) 0
      .fin false (2 * r + b1 (r * r != x)) ((e - 64) / 2 - 1)

def add32 (a b : Nat) : Nat := rnd32 (Val_add (decodeF fp32F a) (decodeF fp32F b))
def sub32 (a b : Nat) : Nat := rnd32 (Val_add (decodeF fp32F a) (Val_neg (decodeF fp32F b)))
def mul32 (a b : Nat) : Nat := rnd32 (Val_mul (decodeF fp32F a) (decodeF fp32F b))
def div32 (a b : Nat) : Nat := rnd32 (Val_div (decodeF fp32F a) (decodeF fp32F b))
def ofNat32 (n : Nat) : Nat := rnd32 (.fin false n 0)
def isNan32 (a : Nat) : Bool := decodeF fp32F a == .nan
def isFin32 (a : Nat) : Bool := Val_isFin (decodeF fp32F a)
def lt32 (a b : Nat) : Bool := match decodeF fp32F a, decodeF fp32F b with
  | .nan, _ => false
  | _, .nan => false
  | x, y => if Val_isZero x && Val_isZero y then false else Val_lt x y
def eq0 (a : Nat) : Bool := Val_isZero (decodeF fp32F a)

/-! ### The refiner's arithmetic, with its events (06 R238, R241, R265-R267; 07 R277) -/

/-- A result with the events of its operands. -/
def Rnd.from (r : Rnd) (xs : List Rnd) : Rnd :=
  { r with sat := r.sat || xs.any (·.sat), flush := r.flush || xs.any (·.flush) }

/-- An FP32 word with no event so far. -/
def word32 (x : Nat) : Rnd := ⟨x, false, false⟩

/-- A result rounded into FP32, nearest even; a subnormal one flushes (07 R277: FP32 intermediates and W19 operands flush). -/
def result32 (v : Val) (xs : List Rnd) : Rnd := (roundF fp32F 0 false 0 0 v).from xs

def addR (a b : Rnd) : Rnd := result32 (Val_add (decodeF fp32F a.bits) (decodeF fp32F b.bits)) [a, b]
def subR (a b : Rnd) : Rnd := result32 (Val_add (decodeF fp32F a.bits) (Val_neg (decodeF fp32F b.bits))) [a, b]
def divR (a b : Rnd) : Rnd := result32 (Val_div (decodeF fp32F a.bits) (decodeF fp32F b.bits)) [a, b]
def sqrtR (a : Rnd) : Rnd := result32 (Val_sqrt (decodeF fp32F a.bits)) [a]

/-- An FP32 multiplier operand brought into W19 (06 R265): toward zero when the entry rounds toward zero, else to
nearest even; subnormals flush (07 R277). -/
def toW19 (mode : RMode) (x : Rnd) : Val × Rnd :=
  let (v, f) := decodeFlush 0 127 x.bits
  let w := roundF w19F 3 false (if mode == 1 then 1 else 0) 0 v
  (decodeF w19F w.bits, { x with sat := x.sat || w.sat, flush := x.flush || f || w.flush })

/-- One product rounded once into FP32 (07 R277). -/
def mulW (mode : RMode) (x y : Rnd) : Rnd :=
  let (u, x) := toW19 mode x
  let (v, y) := toW19 mode y
  result32 (Val_mul u v) [x, y]

/-- The exact sum of a product group (06 R265): the products are aligned to the largest one's exponent P, truncated below
2^(P - 47), and summed as integers. -/
def groupSum (ps : List Val) : Val :=
  if ps.all Val_isFin then
    let top := ps.foldl (fun (acc : Option Int) v => match v with
      | .fin _ m e => if m == 0 then acc else some (match acc with | none => magExp m e | some a => max a (magExp m e))
      | _ => acc) none
    match top with
    | none => .fin false 0 0
    | some p => ps.foldl (fun acc v => match v with
        | .fin s m e => Val_add acc (let (n, _, _) := quantum m e (p - 47); .fin s n (p - 47))
        | _ => acc) (.fin false 0 0)
  else ps.foldl Val_add (.fin true 0 0)

/-- A product group rounded once into FP32 (06 R265). -/
def grpW (mode : RMode) (xs : List (Rnd × Rnd)) : Rnd :=
  let ys := xs.map fun (a, b) => (toW19 mode a, toW19 mode b)
  result32 (groupSum (ys.map fun (a, b) => Val_mul a.1 b.1)) (ys.flatMap fun (a, b) => [a.2, b.2])

end Sys2Proof.Machine
end

