-- ==== Sys2Proof/Machine/Operands.lean ====
section
/-! DEFINITION. Descriptors (03 R107-R111, R120) and the operand forms of every opcode (05 R192, 02 R76, 04 R155, 07 R287,
08 R309, R310, R329, 10 R406): decoding an entry, the checks in their order, the allowed formats (06 R249, R250, 07 R288),
and the sizes and layouts of operands (05 R186, R195; 06 R233-R235). -/

namespace Sys2Proof.Machine

/-! ### The descriptor (03 R107) -/

/-- Decode the 64 bytes of an entry (03 R107); `bad` gathers the layout's reserved bits. -/
def decodeDesc (bs : List Byte) : Desc :=
  let f := field bs
  let b (off lo w : Nat) : Nat := bits (f off 1) lo w
  { opcode := f 0 1
    v := bit (f 1 1) 0, fence := bit (f 1 1) 1, notify := bit (f 1 1) 2, launchAt := bit (f 1 1) 3
    group := bits (f 2 2) 0 12, noGroup := bit (f 2 2) 15
    agent := b 4 0 3
    operator := f 5 1
    inFmt := b 6 0 4, outFmt := b 6 4 4
    round := b 7 0 2, strict := bit (f 7 1) 2
    acc := b 8 0 4
    block := b 9 0 2, dir := b 9 2 1, override := bit (f 9 1) 3
    aux16 := f 0x0A 2
    sync := bits (f 0x0C 2) 0 12
    cookie := f 0x0E 2
    src := f 0x10 8, dst := f 0x18 8, length := f 0x20 4, aux32 := f 0x24 4, aux64 := f 0x28 8, launch := f 0x30 8
    own := bit (f 0x3F 1) 7
    bad := b 1 4 4 != 0 || bits (f 2 2) 12 3 != 0 || b 4 3 5 != 0 || b 7 3 5 != 0 || b 8 4 4 != 0 || b 9 4 4 != 0 ||
      bits (f 0x0C 2) 12 4 != 0 || f 0x38 7 != 0 || b 0x3F 0 7 != 0 }

/-! ### Element counts and layouts -/

/-- Elements of the input (05 R192). -/
def Desc.n (d : Desc) : Nat := d.length / elemSize d.inFmt

/-- The block size of a block code (03 R107, 06 R233). -/
def blockSize (code : Nat) : Nat := 16 * 2 ^ code

/-- The block size and direction of an entry (06 R235). -/
def State.blockOf (s : State) (d : Desc) : Nat × Nat :=
  if d.override then (blockSize d.block, d.dir) else (blockSize s.image.formats.block, s.image.formats.dir)

/-- The scale index of element `i` (06 R233): rows, or columns over rows of 128. -/
def scaleIndex (b dir i : Nat) : Nat :=
  if dir == 0 then i / b else 128 * (i / (128 * b)) + i % 128

/-- Scale bytes of an operand of `n` elements (06 R234): in columns, 128 per group of B rows. -/
def scaleCount (b dir n : Nat) : Nat := if dir == 0 then cdiv n b else 128 * cdiv n (128 * b)

/-- Bytes of an operand of `n` elements in memory: its elements and, if block-scaled, its scales (05 R195, 06 R234). -/
def operandBytes (code b n : Nat) : Nat :=
  if isBlockFmt code then up64 n + up64 (cdiv n b) else n * elemSize code

/-- The effective rounding mode of a conversion into a format (06 R239): 0 takes the image's default. -/
def State.roundFor (s : State) (round code : Nat) : RMode :=
  if round == 0 then bits s.image.formats.round (2 * code) 2 else round - 1

/-- The staging form of the input: the range it fills from SRC, scales included (06 R234). -/
def State.inputBytes (s : State) (d : Desc) : Nat :=
  if isBlockFmt d.inFmt then up64 d.n + scaleCount (s.blockOf d).1 (s.blockOf d).2 d.n else d.length

/-! ### Fields an opcode uses (03 R109; 05 R192) -/

/-- The fields whose use differs among opcodes. -/
structure Used where
  src : Bool := false
  dst : Bool := false
  length : Bool := false
  aux16 : Bool := false
  aux32 : Bool := false
  aux64 : Bool := false
  operator : Bool := false
  acc : Bool := false
  formats : Bool := false
  sync : Bool := false
  deriving DecidableEq, Repr

/-- Which fields each opcode uses. -/
def usedBy (opcode : Nat) : Used :=
  match opcode with
  | 0x01 | 0x02 => { src := true, dst := true, length := true, aux64 := true, operator := true, acc := true, formats := true }
  | 0x03 => { src := true, dst := true, length := true, formats := true }
  | 0x04 => { src := true, dst := true, length := true, aux32 := true, formats := true }
  | 0x05 | 0x06 => { src := true, dst := true, length := true, aux16 := true, aux32 := true, aux64 := true, formats := true }
  | 0x07 => { src := true, dst := true, length := true, aux16 := true, aux32 := true, formats := true, sync := true }
  | 0x08 => { src := true, dst := true, length := true, aux32 := true, aux64 := true, acc := true, formats := true }
  | 0x09 => { dst := true, length := true, aux16 := true }
  | 0x0A => { aux16 := true }
  | 0x0B => { aux16 := true, aux32 := true, aux64 := true, sync := true }
  | 0x0C => { aux16 := true, aux32 := true, sync := true }
  | 0x0D => { src := true, dst := true, length := true, formats := true }
  | _ => {}

/-- Every unused field is 0 (03 R109); NOTIFY uses SYNC (R111). GROUP counts as used also under NO_GROUP 1, and BLOCK and DIRECTION also
under OVERRIDE 0 where the opcode uses FORMATS: the manual names none of them unused there (DESIGN CHOICE, log entry 15). -/
def unusedZero (d : Desc) : Bool :=
  let u := usedBy d.opcode
  (u.src || d.src == 0) && (u.dst || d.dst == 0) && (u.length || d.length == 0) && (u.aux16 || d.aux16 == 0) &&
  (u.aux32 || d.aux32 == 0) && (u.aux64 || d.aux64 == 0) && (u.operator || d.operator == 0) && (u.acc || d.acc == 0) &&
  (u.formats || (d.inFmt == 0 && d.outFmt == 0 && d.round == 0 && !d.strict && d.block == 0 && d.dir == 0 && !d.override)) &&
  (u.sync || d.notify || d.sync == 0) && (d.launchAt || d.launch == 0)

/-- Whether a collective over group `g` has a position at or beyond a number. -/
def State.beyondPositions (s : State) (g p : Nat) : Bool := (s.gr g).valid && s.positions g ≤ p

/-- Reserved encodings of the opcode operands (05 R190, R192, R196, R199, R219, R221; 08 R309, R310, R329; 09 R354;
10 R406; 02 R76) (in part DEDUCED, log entry 15). -/
def reservedOperand (s : State) (d : Desc) : Bool :=
  match d.opcode with
  | 0x01 | 0x02 => bits d.aux64 0 6 != 0
  | 0x04 => s.beyondPositions d.group d.aux32 || (d.src != 0 && (s.gr d.group).valid && s.ownPos d.group != d.aux32)
  | 0x05 | 0x06 => d.aux16 == 0 || bits d.aux64 1 5 != 0
  | 0x07 => bits d.aux16 12 4 != 0 || ((s.gr d.group).valid && (s.gr d.group).memberCount ≤ d.aux32)
  | 0x09 => bits d.aux16 12 4 != 0
  | 0x0A => bits d.aux16 7 9 != 0
  | 0x0B => d.notify || d.aux32 == 0 || bits d.aux16 1 15 != 0 || bits d.aux64 18 45 != 0 ||
      (!bit d.aux64 63 && d.aux64 != 0)
  | 0x0C => d.notify || d.aux32 == 0xFFFFFFFF || bits d.aux16 1 15 != 0
  | _ => false

/-- The RESERVED check (03 R120). A LAUNCH more than 2^36 counts ahead of the tally is a reserved encoding (09 R354). -/
def breaksReserved (s : State) (d : Desc) : Bool :=
  d.bad || 6 < d.operator || 12 < d.inFmt || 12 < d.outFmt || 12 < d.acc || !unusedZero d || reservedOperand s d ||
  (d.launchAt && s.stamp + 2 ^ 36 < d.launch)

/-- MARK's own table: V 0, NO_GROUP 0 and the queue's bound group (02 R76); a MARK that breaks it is malformed with RESERVED. -/
def breaksMark (s : State) (q : Nat) (d : Desc) : Bool :=
  let m := (s.queue q).map
  d.opcode == opMark && (d.v || d.noGroup || (m.comm && d.group != m.group))

/-- The GROUP check (03 R120; 10 R406). -/
def breaksGroup (s : State) (q : Nat) (d : Desc) : Bool :=
  let m := (s.queue q).map
  (isGroupWide d.opcode && !m.comm) || (m.comm && (d.noGroup || d.group != m.group)) ||
  (!d.noGroup && (!(s.gr d.group).valid || !m.comm)) ||
  (d.opcode == opDigest && !(s.gr (bits d.aux16 0 12)).valid)

/-! ### Formats (06 R249, R250; 07 R288) -/

/-- The formats of a sum reduction (06 R249). -/
def sumFormats (inF acc : Nat) (strict : Bool) : Bool :=
  if strict then (inF == 0 || inF == 2) && acc == inF
  else (acc == inF && [0, 1, 2, 6, 4, 5, 7].contains inF) ||
    (acc == 0 && [1, 2, 4, 5, 7].contains inF) ||
    ([8, 9, 10].contains acc && [0, 1, 2].contains inF) ||
    (acc == 11 && (inF == 1 || inF == 11)) || (acc == 12 && (inF == 0 || inF == 12))

/-- OUT_FMT by ACC (06 R249). -/
def outByAcc (acc out : Nat) : Bool :=
  if acc == 6 then out == 6 || out == 0
  else [0, 1, 2, 4, 5, 7].contains out || ((acc == 11 || acc == 12) && out == acc)

/-- The formats of ALLREDUCE and REDUCE_SCATTER (06 R249). -/
def reductionFormats (d : Desc) : Bool :=
  match d.operator with
  | 0 => sumFormats d.inFmt d.acc d.strict && outByAcc d.acc d.outFmt
  | 1 | 2 | 3 => !d.strict && outByAcc d.acc d.outFmt &&
      ((d.acc == d.inFmt && [0, 1, 2, 6].contains d.inFmt) || (d.acc == 0 && isBlockFmt d.inFmt))
  | 4 | 5 => !d.strict && d.inFmt == 6 && d.acc == 6 && d.outFmt == 6
  | _ => !d.strict && [0, 1, 2, 6, 4, 5, 7].contains d.inFmt && d.acc == 6 && outByAcc 6 d.outFmt

/-- Formats that may stand in memory (06 R247): codes 0x0 to 0x7, 0xB and 0xC. -/
def storageFmt (code : Nat) : Bool := code ≤ 7 || code == 11 || code == 12

/-- The combination is allowed for the opcode (06 R249; 07 R288). -/
def formatsAllowed (d : Desc) : Bool :=
  match d.opcode with
  | 0x01 | 0x02 => reductionFormats d
  | 0x03 | 0x04 | 0x05 | 0x06 | 0x07 =>
    !d.strict && storageFmt d.inFmt && storageFmt d.outFmt && d.inFmt != 3 && d.outFmt != 3
  | 0x08 => sumFormats d.inFmt d.acc d.strict && [0, 1, 2, 4, 5, 7].contains d.outFmt
  | 0x0D => !d.strict && storageFmt d.inFmt && storageFmt d.outFmt
  | _ => true

/-- Every code the entry uses is enabled, and STRICT where it asks for it (06 R250). -/
def formatsEnabled (s : State) (d : Desc) : Bool :=
  let f := s.image.formats
  !(usedBy d.opcode).formats ||
    (bit f.enable d.inFmt && bit f.enable d.outFmt && (!(usedBy d.opcode).acc || bit f.enable d.acc) &&
      (!d.strict || bit f.strict (if d.inFmt == 0 then 0 else 1)))

/-- Whether the entry has a block-scaled operand. -/
def Desc.scaled (d : Desc) : Bool :=
  isBlockFmt d.inFmt || isBlockFmt d.outFmt || ((usedBy d.opcode).acc && isBlockFmt d.acc)

/-- The FORMAT check (03 R120; 06 R229, R235, R249, R250). -/
def breaksFormat (s : State) (d : Desc) : Bool :=
  !formatsAllowed d || !formatsEnabled s d ||
  (isGroupWide d.opcode && d.scaled && (s.blockOf d).2 == 1) ||
  ((d.opcode == opAlltoall || d.opcode == opExchange) && d.scaled && d.aux16 % (s.blockOf d).1 != 0)

/-- The V_CLASS check (03 R110). -/
def breaksV (s : State) (d : Desc) : Bool :=
  d.v && (s.image.forbidV || !(d.opcode == opAllreduce || d.opcode == opReduceScatter || d.opcode == opUpdate) ||
    d.operator != 0 || d.acc != d.inFmt || d.strict)

/-- The refiner row of a group in the active image (02 R60). -/
def State.rowOf (s : State) (g : Nat) : RowRec := tabGet (fun _ => {}) s.refiner.rows (s.gr g).refinerRow

/-- The LAYOUT check (03 R120; 07 R287; 10 R406). -/
def breaksLayout (s : State) (d : Desc) : Bool :=
  let row := s.rowOf d.group
  d.src % 64 != 0 || d.dst % 64 != 0 ||
  ((usedBy d.opcode).formats && d.length % elemSize d.inFmt != 0) ||
  (d.opcode == opDigest && d.length != 16) ||
  (d.opcode == opUpdate && (d.aux64 % 64 != 0 || ((s.gr d.group).refinerRow != 0xFF &&
    (if row.embedding then !([16, 32, 64, 128].contains d.aux32) || (row.blockScaled && d.aux32 < blockSize row.block)
     else d.aux32 != 0))))

/-! ### Maps of ALLTOALL and EXCHANGE (05 R197-R199) -/

/-- Rows of W elements in the input (05 R192, R200). -/
def Desc.rows (d : Desc) : Nat := d.n / max 1 d.aux16

/-- Entries of the map of the entry: one per position, or one per input row. -/
def State.mapEntries (s : State) (d : Desc) : Nat := if d.opcode == opAlltoall then s.positions d.group else d.rows

/-- Whether the entry has a map, and whether it is read before the start (05 R199). -/
def Desc.hasMap (d : Desc) : Bool := d.opcode == opExchange || (d.opcode == opAlltoall && d.aux64 != 0)
def Desc.staticMap (d : Desc) : Bool := d.hasMap && !bit d.aux64 0

/-- Bytes of a dynamic map. -/
def State.mapBytes (s : State) (d : Desc) : Nat :=
  if d.hasMap && !d.staticMap && d.length != 0 then 8 * s.mapEntries d else 0

/-- The 8 B entries of a map. -/
def mapWords (bs : List Byte) (n : Nat) : List Nat := (List.range n).map fun i => field bs (8 * i) 8

/-- Whether an EXCHANGE map entry is malformed (05 R198, R199). -/
def exchangeBad (m lanes e : Nat) : Bool :=
  bits e 18 2 != 0 || bits e 48 15 != 0 || (!bit e 63 && (m ≤ bits e 0 18 || lanes ≤ bits e 20 28))

/-- Whether the next ALLTOALL map entry is malformed after `given` assigned rows (05 R199). -/
def alltoallBad (rows lanes given e : Nat) : Bool :=
  let n := bits e 0 32
  rows < given + n || (n != 0 && lanes < bits e 32 32 + n)

/-- Whether any ALLTOALL map entry is malformed. -/
def alltoallAnyBad (rows lanes : Nat) : Nat → List Nat → Bool
  | _, [] => false
  | given, e :: es => alltoallBad rows lanes given e || alltoallAnyBad rows lanes (given + bits e 0 32) es

/-- The PERMUTATION check on a static map that has been read (05 R199). -/
def breaksPermutation (s : State) (d : Desc) (map : List Byte) : Bool :=
  d.staticMap && (65536 < s.mapEntries d ||
    (let es := mapWords map (s.mapEntries d)
     if d.opcode == opExchange then es.any (exchangeBad (s.positions d.group) d.aux32)
     else alltoallAnyBad d.rows d.aux32 0 es))

/-- The SYNC check (08 R308, R315, R328). -/
def breaksSync (s : State) (d : Desc) : Bool :=
  let remote := d.opcode == opSignal && bit d.aux64 63
  let names := (if d.notify || d.opcode == opWait || d.opcode == opRotate || (d.opcode == opSignal && !remote)
      then [d.sync] else []) ++ (if d.opcode == opRotate then [bits d.aux16 0 12] else [])
  let w := s.weir (bits d.aux16 0 6)
  names.any (fun n => boundElsewhere s n d.noGroup d.group) ||
  (remote && (d.noGroup || bits d.aux64 0 18 == s.me)) ||
  (d.opcode == opRotate && d.sync == bits d.aux16 0 12) ||
  (d.opcode == opBarrier && bit d.aux16 6 && (!w.engine || (w.bound && w.group != d.group)))

/-- The outcome of the checks of an entry (03 R120). -/
inductive CheckResult where
  | pass
  /-- AGENT is not the queue's bound agent (02 R87) -/
  | foreign
  | malformed (cause : Nat)
  /-- the static map must be read first (04 R142) -/
  | needMap
  deriving DecidableEq, Repr

/-- The checks in their order, up to the first that fails (03 R120). -/
def checkEntry (s : State) (q : Nat) (d : Desc) (map : Option (List Byte)) : CheckResult :=
  if 0x0E < d.opcode then .malformed 0x01
  else if d.agent != (s.queue q).map.agent then .foreign
  else if breaksReserved s d || breaksMark s q d then .malformed 0x02
  else if breaksGroup s q d then .malformed 0x03
  else if breaksFormat s d then .malformed 0x04
  else if breaksV s d then .malformed 0x05
  else if breaksLayout s d then .malformed 0x06
  else if d.staticMap && s.mapEntries d ≤ 65536 && 0 < s.mapEntries d && map.isNone then .needMap
  else if breaksPermutation s d (map.getD []) then .malformed 0x07
  else if breaksSync s d then .malformed 0x08
  else if d.opcode == opUpdate && (s.gr d.group).refinerRow == 0xFF then .malformed 0x09
  else .pass

/-! ### Low-water service and rebalancing (02 R96, R97; 03 R123) -/

/-- Whether a group has full service; local entries off a communication queue follow the engine's phase (02 R99). -/
def State.fullService (s : State) (d : Desc) : Bool :=
  if d.noGroup then s.keeper.phase == .full else (s.group d.group).full

/-- Whether an entry needs only what low-water service offers (02 R96): stages up to the package but for the weirs,
native FP32 sums, moving opcodes and COPY without arithmetic, and the sync opcodes. -/
def lowWaterAllows (s : State) (d : Desc) : Bool :=
  let packageOnly := (enabled (s.gr d.group).stageMask).all fun st => st ≤ 1
  match d.opcode with
  | 0x00 | 0x0A | 0x0B | 0x0C | 0x0E => true
  | 0x01 | 0x02 => packageOnly && d.operator == 0 && d.inFmt == 0 && d.acc == 0 && d.outFmt == 0 && !d.strict
  | 0x03 | 0x04 | 0x05 | 0x06 | 0x07 => packageOnly && d.inFmt == d.outFmt
  | 0x0D => d.inFmt == d.outFmt
  | _ => false

end Sys2Proof.Machine
end

