-- ==== Sys2Proof/Machine/Loader.lean ====
section
/-! DEFINITION. The image loader (02 R54-R71, R508, R509; 06 R239, R280; 07 R284; 10 R387; 11 R433, R435, R511): reading
the sections, and the checks in their phases. A check is (fails, code, section, index); the loader reports the first
that fails (02 R68). -/

namespace Sys2Proof.Machine

/-! ### Reading -/

/-- The bytes 0 to `n - 1` of a sparse buffer as a list. -/
def bytesFrom : Nat → Nat → Tab Byte → List Byte
  | 0, _, _ => []
  | n + 1, i, [] => 0 :: bytesFrom n (i + 1) []
  | n + 1, i, (j, b) :: t => if i = j then b :: bytesFrom n (i + 1) t else 0 :: bytesFrom n (i + 1) ((j, b) :: t)

def bytesOf (n : Nat) (t : Tab Byte) : List Byte := bytesFrom n 0 t

/-- A directory entry (02 R56), with its place in the directory. -/
structure DirEnt where
  idx : Nat
  type : Nat
  flags : Nat
  offset : Nat
  length : Nat
  count : Nat
  deriving DecidableEq, Repr

/-- The directory of an image in TYPE order (02 R56, R68). -/
def directory (bs : List Byte) : List DirEnt :=
  sortBy (fun a b => decide (a.type ≤ b.type)) <| (List.range (field bs 0x14 2)).map fun i =>
    let o := 0x40 + 16 * i
    { idx := i, type := field bs o 2, flags := field bs (o + 2) 2, offset := field bs (o + 4) 4, length := field bs (o + 8) 4
      count := field bs (o + 12) 4 : DirEnt }

/-- Record size and most records of a section type (02 R57). -/
def sectionShape (type : Nat) : Option (Nat × Nat) :=
  match type with
  | 0x01 => some (128, 1)
  | 0x02 => some (64, 4096)
  | 0x03 => some (16, 1048576)
  | 0x04 => some (8, 64)
  | 0x05 => some (8, 256)
  | 0x06 => some (32, 1)
  | 0x07 => some (8, 16)
  | 0x08 => some (64, 64)
  | 0x09 => some (32, 64)
  | 0x0A => some (32, 256)
  | 0x0B => some (8, 1)
  | _ => none

/-- The records of a section, as byte lists. -/
def sectionRecords (bs : List Byte) (ds : List DirEnt) (type : Nat) : List (List Byte) :=
  match ds.find? fun d => d.type == type, sectionShape type with
  | some d, some (size, _) =>
    let body := slice (bs.drop d.offset) 0 d.length
    (List.range d.count).map fun i => slice (body.drop (size * i)) 0 size
  | _, _ => []

def parseGroup (r : List Byte) : GroupRec :=
  let f := field r
  { group := f 0 2, valid := bit (f 2 2) 0, keepStep := bit (f 2 2) 1, flow := bit (f 2 2) 2
    stageMask := bits (f 2 2) 3 4, autoEvict := bit (f 2 2) 7, memberBase := f 4 4
    peers1 := f 8 2, peers2 := f 10 2, peers3 := f 12 2, peers4 := f 14 2
    memberCount := f 0x10 4, minMembers := f 0x14 4, maxMembers := f 0x18 4, pumpMask := f 0x1C 2
    partition := f 0x1E 1, refinerRow := f 0x1F 1, schedule := f 0x20 1, guardSet := f 0x21 1, queue := f 0x22 1
    replayPlace := f 0x23 1, stepInit := f 0x24 4, footprint := f 0x28 8, replayBytes := f 0x30 4
    timeoutUs := f 0x34 4, lagKib := f 0x38 4, roster := f 0x3C 4 }

def parseMember (r : List Byte) : Member :=
  let w := field r 0 8
  { dieAddr := bits w 0 18, stage := bits w 18 3, state := bits w 21 3, rank := bits w 24 18
    idCheck := BitVec.ofNat 64 (field r 8 8) }

def parseStage (r : List Byte) : StageTopo :=
  { stage := field r 0 1, small := field r 1 1, large := field r 2 1, ports := field r 3 1, threshold := field r 4 4 }

def parseCistern (r : List Byte) : CisternRec :=
  { partition := field r 0 1, baseBank := field r 1 1, banks := field r 2 1, kind := field r 3 1, owner := field r 4 2 }

def parseQueue (r : List Byte) : QueueRec :=
  { queue := field r 0 1, weight := field r 1 1, burst := field r 2 1, agent := bits (field r 3 1) 0 3
    comm := bit (field r 3 1) 3, group := field r 4 2, tagReserve := field r 6 2 }

def parseFormats (r : List Byte) : FormatsRec :=
  { enable := field r 0 2, strict := field r 2 2, round := field r 4 4, seed := BitVec.ofNat 64 (field r 8 8)
    block := field r 0x10 1, dir := field r 0x11 1 }

def parseGuard (r : List Byte) : GuardRec :=
  { l1 := field r 0 1, l2 := field r 1 1, l3 := field r 2 1, l4 := field r 3 1, digestD := field r 4 2 }

def parseRow (r : List Byte) : RowRec :=
  { a1 := field r 0 4, a2 := field r 4 4, b1 := field r 8 4, b2 := field r 12 4, beta1 := field r 16 4
    beta2 := field r 20 4, eps := field r 24 4, c1 := field r 28 4, c2 := field r 32 4, c3 := field r 36 4
    stateFmt := field r 0x28 1, blockScaled := bit (field r 0x29 1) 0, biasCorrect := bit (field r 0x29 1) 1
    embedding := bit (field r 0x29 1) 2, block := field r 0x2A 1, weightFmt := field r 0x2B 1 }

def parseSched (r : List Byte) : SchedRec :=
  { etaPeak := field r 0 4, etaFloor := field r 4 4, warmup := field r 8 4, decay := field r 12 1
    horizon := field r 16 4, gamma := field r 20 4, period := field r 24 4, restart := field r 28 4 }

def parsePour (r : List Byte) : PourRec :=
  { id := field r 0 2, target := field r 2 1, offset := field r 4 4, length := field r 8 4, answer := field r 12 4 }

/-- The image that the bytes hold (02 R54-R65) (in part DEDUCED, log entry 36). -/
def parseImage (bs : List Byte) : Image :=
  let ds := directory bs
  let recs := sectionRecords bs ds
  let topo := (recs 1).headD []
  let split := (recs 11).headD []
  { anchor := field bs 0x16 2, hash := BitVec.ofNat 64 (field bs 0x18 8)
    dieMemory := field topo 0 8, forbidV := bit (field topo 8 2) 0, cadence := bit (field topo 8 2) 1
    seeded := bit (field topo 8 2) 2
    stages := [0x10, 0x20, 0x30, 0x40].map fun o => parseStage (slice topo o 16)
    groups := (recs 2).map parseGroup, roster := (recs 3).map parseMember, cisterns := (recs 4).map parseCistern
    queues := (recs 5).map parseQueue, formats := parseFormats ((recs 6).headD []), guards := (recs 7).map parseGuard
    rows := (recs 8).map parseRow, scheds := (recs 9).map parseSched, pours := (recs 10).map parsePour
    pourBytes := match ds.find? fun d => d.type == 10 with
      | some d => slice (bs.drop d.offset) 0 d.length
      | none => []
    splitRead := field split 0 1, splitWrite := field split 1 1, splitRemote := field split 2 1 }

/-! ### Checks -/

/-- A check of the loader: whether it fails, the refusal code, SECTION and INDEX (02 R66, R70). -/
structure Check where
  fails : Bool
  code : Nat
  sec : Nat
  idx : Nat
  deriving DecidableEq, Repr

/-- Refusal codes (02 R70). -/
def refMagic : Nat := 0x01
def refVersion : Nat := 0x02
def refLength : Nat := 0x03
def refCrc : Nat := 0x04
def refHash : Nat := 0x05
def refDirectory : Nat := 0x06
def refMissing : Nat := 0x07
def refEncoding : Nat := 0x08
def refReference : Nat := 0x09
def refAnchor : Nat := 0x0A
def refCisterns : Nat := 0x10
def refTags : Nat := 0x11
def refMembers : Nat := 0x12
def refPumps : Nat := 0x13
def refQueues : Nat := 0x14
def refRefiner : Nat := 0x15
def refSplit : Nat := 0x16
def refFootprint : Nat := 0x17
def refReplay : Nat := 0x18
def refProofPour : Nat := 0x19
def refFetch : Nat := 0x20

/-- IMAGE_LEN before anything is fetched (02 R68). -/
def lengthBad (len : Nat) : Bool := len < 64 || len % 64 != 0 || 64 * 2 ^ 20 < len

/-- The checks of the fetched header: MAGIC, VERSION, LENGTH (02 R68). -/
def headerChecks (bs : List Byte) (len : Nat) : List Check :=
  [⟨field bs 0 4 != 0x4E464C55, refMagic, 0, 0⟩, ⟨field bs 4 2 != 1, refVersion, 0, 0⟩,
   ⟨field bs 8 8 != len, refLength, 0, 0⟩]

/-- CRC and HASH over the whole image (02 R55). -/
def sumChecks (bs : List Byte) : List Check :=
  [⟨crc32c (bs.take 0x10 ++ [0, 0, 0, 0] ++ bs.drop 0x14) != field bs 0x10 4, refCrc, 0, 0⟩,
   ⟨(crc64 (bs.drop 0x40)).toNat != field bs 0x18 8, refHash, 0, 0⟩]

/-- Every byte from `off` of `n` is 0. -/
def zeros (r : List Byte) (off n : Nat) : Bool := field r off n == 0

/-- Two byte ranges share a byte. -/
def rangesMeet (a n b m : Nat) : Bool := 0 < n && 0 < m && a < b + m && b < a + n

/-- A directory entry that breaks 02 R56 or R57. -/
def dirEntryBad (len dirEnd : Nat) (ds : List DirEnt) (d : DirEnt) : Bool :=
  d.flags / 2 != 0 || d.offset % 64 != 0 || len < d.offset + d.length || rangesMeet d.offset d.length 0 dirEnd ||
  (ds.any fun e => e.idx != d.idx && (e.type == d.type || rangesMeet d.offset d.length e.offset e.length)) ||
  (match sectionShape d.type with
    | none => !bit d.flags 0
    | some (size, most) => most < d.count || (most == 1 && d.count != 1) || d.length < d.count * size)

/-- The directory phase: DIRECTORY, MISSING (02 R57, R68, R70). A failure of the directory has SECTION 0 and names its entry
(02 R66) (in part DEDUCED, log entry 36). -/
def directoryChecks (bs : List Byte) (len : Nat) : List Check :=
  let n := field bs 0x14 2
  let dirEnd := 0x40 + 16 * n
  let ds := directory bs
  [⟨n == 0 || 64 < n || len < dirEnd || !zeros bs 0x20 0x20, refDirectory, 0, 0⟩] ++
  (ds.map fun d => ⟨dirEntryBad len dirEnd ds d, refDirectory, 0, d.idx⟩) ++
  ([1, 2, 3, 4, 5, 6, 7, 11].map fun t => ⟨!(ds.any fun d => d.type == t), refMissing, t, 0⟩)

/-! #### Encodings -/

def finite32 (x : Nat) : Bool := isFin32 x
def negative32 (x : Nat) : Bool := bit x 31 && !eq0 x
/-- 0 ≤ x < 1. -/
def unit32 (x : Nat) : Bool := !negative32 x && lt32 x 0x3F800000

def topologyBad (r : List Byte) : Bool :=
  field r 8 2 / 8 != 0 || !zeros r 0x0A 6 || !zeros r 0x50 0x30 ||
  ([1, 2, 3, 4].any fun st =>
    let t := slice r (16 * st) 16
    field t 0 1 != st || 1 < field t 1 1 || 1 < field t 2 1 || (field t 2 1 == 1 && st != 1) || !zeros t 8 8) ||
  bits (field r 0x13 1) 4 4 != 0

/-- A group record (02 R60, R509): a record that is not valid is checked for GROUP and the reserved FLAGS bits only. -/
def groupBad (r : List Byte) : Bool :=
  let g := parseGroup r
  4095 < g.group || field r 2 2 / 256 != 0 ||
  (g.valid && ((63 < g.refinerRow && g.refinerRow != 0xFF) || (63 < g.schedule && g.schedule != 0xFF) ||
    15 < g.guardSet || 1 < g.replayPlace || g.memberCount == 0 || 262144 < g.memberCount))

def memberBad (r : List Byte) : Bool :=
  let m := parseMember r
  field r 0 8 >>> 42 != 0 || 1 < m.state || 4 < m.stage

/-- A cistern partition record (02 R63, R70). OWNER 0xFFFF is accepted for every KIND, since the rule names no refusal for a read-cache or
replay partition (DESIGN CHOICE, log entry 36). -/
def cisternBad (r : List Byte) : Bool :=
  let p := parseCistern r
  63 < p.partition || 63 < p.baseBank || p.banks == 0 || 64 < p.banks || 2 < p.kind ||
  (4095 < p.owner && p.owner != 0xFFFF) || !zeros r 6 2

def queueBad (r : List Byte) : Bool :=
  let x := parseQueue r
  x.burst == 0 || 64 < x.burst || 4096 < x.tagReserve || bits (field r 3 1) 4 4 != 0 || (if x.comm then 4095 < x.group else x.group != 0xFFFF)

def formatsBad (r : List Byte) : Bool :=
  let f := parseFormats r
  !bit f.enable 0 || f.enable >>> 13 != 0 || f.strict / 4 != 0 || f.round >>> 26 != 0 ||
  ((List.range 13).any fun i => bits f.round (2 * i) 2 == 3) || 3 < f.block || 1 < f.dir || !zeros r 0x12 14

def guardBad (r : List Byte) : Bool :=
  let g := parseGuard r
  3 < g.l1 || 3 < g.l2 || 3 < g.l3 || 3 < g.l4 || g.digestD == 0 || 4096 < g.digestD || !zeros r 6 2

/-- The ENCODING rules of a refiner row's coefficients (07 R280); the same check meets staged rows (R281). -/
def rowCoeffsBad (x : RowRec) : Bool :=
  !([x.a1, x.a2, x.b1, x.b2, x.beta1, x.beta2, x.eps, x.c1, x.c2, x.c3].all finite32) || negative32 x.eps ||
  (x.biasCorrect && !(unit32 x.beta1 && unit32 x.beta2))

def rowBad (r : List Byte) : Bool :=
  let x := parseRow r
  rowCoeffsBad x || field r 0x29 1 / 8 != 0 || 3 < x.block || !zeros r 0x2C 20

/-- The ENCODING rules of a schedule (07 R284); the same check meets staged schedules (R282). -/
def schedFieldsBad (x : SchedRec) : Bool :=
  3 < x.decay || (x.horizon == 0 && (x.decay == 1 || x.decay == 2)) ||
  ([x.etaPeak, x.etaFloor, x.gamma, x.restart].any fun v => !finite32 v || negative32 v) || lt32 x.etaPeak x.etaFloor

def schedBad (r : List Byte) : Bool := schedFieldsBad (parseSched r) || !zeros r 13 3

def pourBad (r : List Byte) : Bool := !zeros r 3 1 || !zeros r 0x10 16
def splitBad (r : List Byte) : Bool := !zeros r 3 5

/-- A kernel body's header (11 R433). -/
structure Kernel where
  target : Nat
  operator : Nat
  inFmt : Nat
  outFmt : Nat
  acc : Nat
  round : Nat
  strict : Bool
  operands : Nat
  passes : Nat
  elements : Nat
  row : Nat
  eta : Nat
  t : Nat
  key : W64
  bad : Bool
  deriving DecidableEq, Repr

def parseKernel (r : List Byte) : Kernel :=
  { target := field r 0 1, operator := field r 1 1, inFmt := bits (field r 2 1) 0 4, outFmt := bits (field r 2 1) 4 4
    acc := field r 3 1, round := bits (field r 4 1) 0 2, strict := bit (field r 4 1) 2, operands := field r 5 1
    passes := field r 6 2, elements := field r 8 4, row := field r 12 1, eta := field r 0x10 4, t := field r 0x14 4
    key := BitVec.ofNat 64 (field r 0x18 8)
    bad := field r 4 1 / 8 != 0 || !zeros r 13 3 || !zeros r 0x20 32 }

/-- The format and block of each operand of a kernel (11 R511): the code, the block size, and whether it is scaled. -/
def kernelOperands (im : Image) (k : Kernel) : List (Nat × Nat × Bool) :=
  let b := blockSize im.formats.block
  match k.target with
  | 1 =>
    let row := (im.rows[k.row]?).getD {}
    ([(0, b, false), (row.weightFmt, b, false), (row.stateFmt, blockSize row.block, row.blockScaled),
      (row.stateFmt, blockSize row.block, row.blockScaled), (0, b, false)]).take k.operands
  | 3 => List.replicate k.operands (k.acc, b, isBlockFmt k.acc)
  | _ => List.replicate k.operands (k.inFmt, b, isBlockFmt k.inFmt)

/-- Bytes of an operand with its scales (11 R511). Only operands in the image's own blocks can run in columns. -/
def operandSpan (im : Image) (k : Kernel) (x : Nat × Nat × Bool) : Nat :=
  let raw := k.elements * elemSize x.1
  if x.2.2 then up64 raw + scaleCount x.2.1 (if k.target == 1 then 0 else im.formats.dir) k.elements else raw

/-- The bytes the operands of a kernel need after its header (11 R511). -/
def kernelSpan (im : Image) (k : Kernel) : Nat :=
  (kernelOperands im k).foldl (fun at_ x => up64 at_ + operandSpan im k x) 64

/-- The kernel of a pour, when its body lies in the section. -/
def kernelOf (im : Image) (p : PourRec) : Option Kernel :=
  if 64 ≤ p.length && p.offset + p.length ≤ im.pourBytes.length then some (parseKernel (slice im.pourBytes p.offset 64))
  else none

/-- A kernel with a reserved encoding, a value out of range, or formats that break 06 R249 or R250 (11 R435): those of a pump kernel as an
ALLREDUCE has them; of a kernel for the cisterns IN_FMT and for the check unit ACC is in use, and must be enabled (in part DEDUCED, log
entry 31). -/
def kernelBad (im : Image) (k : Kernel) : Bool :=
  k.bad || 6 < k.operator || 12 < k.inFmt || 12 < k.outFmt || 12 < k.acc || k.operands == 0 || 5 < k.operands ||
  k.passes == 0 || (k.target != 1 && k.row != 0) || ((kernelOperands im k).any fun x => 4096 < operandSpan im k x) ||
  (k.target == 0 &&
    !(reductionFormats { opcode := 1, operator := k.operator, inFmt := k.inFmt, acc := k.acc, strict := k.strict, outFmt := k.outFmt } &&
      bit im.formats.enable k.inFmt && bit im.formats.enable k.acc && bit im.formats.enable k.outFmt &&
      (!k.strict || bit im.formats.strict (if k.inFmt == 0 then 0 else 1)))) ||
  (k.target == 2 && !bit im.formats.enable k.inFmt) || (k.target == 3 && !bit im.formats.enable k.acc)

/-- The encodings phase (02 R68, R70). -/
def encodingChecks (bs : List Byte) (im : Image) : List Check :=
  let ds := directory bs
  let recs := sectionRecords bs ds
  let check (type : Nat) (bad : List Byte → Bool) : List Check :=
    (recs type).zipIdx.map fun (r, i) => ⟨bad r, refEncoding, type, i⟩
  check 1 topologyBad ++ check 2 groupBad ++ check 3 memberBad ++ check 4 cisternBad ++ check 5 queueBad ++
  check 6 formatsBad ++ check 7 guardBad ++ check 8 rowBad ++ check 9 schedBad ++
  (im.pours.zipIdx.map fun (p, i) =>
    ⟨pourBad (((recs 10)[i]?).getD []) || (match kernelOf im p with
      | some k => kernelBad im k
      | none => false), refEncoding, 10, i⟩) ++
  check 11 splitBad

/-! #### Cross-references -/

/-- A number occurs in an earlier record. -/
def repeatedAt (xs : List Nat) (i : Nat) : Bool := (xs.take i).contains ((xs[i]?).getD 0)

/-- A group record that names something absent (02 R70 REFERENCE). -/
def groupRefBad (im : Image) (r : GroupRec) : Bool :=
  r.valid &&
    (!(im.cisterns.any fun p => p.partition == r.partition && p.kind == 0 && (p.owner == r.group || p.owner == 0xFFFF)) ||
     !(im.queues.any fun x => x.queue == r.queue && x.weight != 0) ||
     (r.refinerRow != 0xFF && im.rows.length ≤ r.refinerRow) || (r.schedule != 0xFF && im.scheds.length ≤ r.schedule) ||
     im.guards.length ≤ r.guardSet || im.roster.length < r.memberBase + r.roster ||
     (r.replayPlace == 0 && r.replayBytes != 0 &&
       (im.cisterns.filter fun p => p.kind == 2 && p.owner == r.group).length != 1))

/-- The cross-references phase (02 R68, R70, R509). `own` gives the state of this engine's own entry per group while an
image is active (in part DEDUCED, log entry 36). -/
def referenceChecks (im : Image) (me : Nat) (own : Option (Nat → Nat)) : List Check :=
  (im.groups.zipIdx.map fun (r, i) =>
    ⟨repeatedAt (im.groups.map (·.group)) i || groupRefBad im r, refReference, 2, r.group⟩) ++
  (im.cisterns.zipIdx.map fun (_, i) => ⟨repeatedAt (im.cisterns.map (·.partition)) i, refReference, 4, i⟩) ++
  (im.queues.zipIdx.map fun (_, i) => ⟨repeatedAt (im.queues.map (·.queue)) i, refReference, 5, i⟩) ++
  (im.pours.zipIdx.map fun (p, i) => ⟨repeatedAt (im.pours.map (·.id)) i || (match kernelOf im p with
      | some k => k.target == 1 && im.rows.length ≤ k.row
      | none => false), refReference, 10, i⟩) ++
  [⟨!((im.rosterOf im.anchor).any fun m => m.dieAddr == me && m.state == stActive) ||
      (match own with
        | none => false
        | some f => !([stActive, stAdmit, stEvict].contains (f im.anchor))), refAnchor, 0, im.anchor⟩]

/-! #### Resources and footprint -/

/-- Record `i` of the members section breaks the order of a group's roster, or has a STAGE (02 R508). -/
def rosterBreaks (im : Image) (r : GroupRec) (m : Member) (i : Nat) : Bool :=
  r.memberBase ≤ i && i < r.memberBase + r.roster &&
    (m.stage != 0 || (r.memberBase < i && m.dieAddr ≤ ((im.roster[i - 1]?).getD {}).dieAddr))

/-- Member-table entries of this engine for the valid groups up to a group number (02 R508). -/
def tableBelow (im : Image) (me g : Nat) : Nat :=
  ((im.validGroups.filter fun x => x.group ≤ g).map fun x => (placeGroup im me 0 x).2.length).sum

/-- The MEMBERS conditions on a group and its roster (02 R70). -/
def groupMembersBad (im : Image) (r : GroupRec) : Bool :=
  let ros := im.rosterOf r.group
  r.peers1 != 0 || r.peers2 != 0 || r.peers3 != 0 || r.peers4 != 0 ||
  (ros.filter fun m => m.state == stActive).length != r.memberCount ||
  r.minMembers == 0 || r.memberCount < r.minMembers || r.maxMembers < r.memberCount

/-- The resources phase (02 R68, R70). -/
def resourceChecks (im : Image) (me : Nat) : List Check :=
  let vg := im.groups.filter (·.valid)
  (im.cisterns.zipIdx.map fun (p, i) =>
    ⟨64 < p.baseBank + p.banks || ((im.cisterns.take i).any fun o => rangesMeet p.baseBank p.banks o.baseBank o.banks) ||
      (p.kind == 1 && (p.banks != 2 || (im.cisterns.take i).any fun o => o.kind == 1)), refCisterns, 4, i⟩) ++
  [⟨!(im.cisterns.any fun p => p.kind == 1), refCisterns, 4, 0⟩] ++
  (im.queues.zipIdx.map fun (_, i) => ⟨4096 < ((im.queues.take (i + 1)).map (·.tagReserve)).sum, refTags, 5, i⟩) ++
  (vg.map fun r => ⟨groupMembersBad im r || 131072 < tableBelow im me r.group, refMembers, 2, r.group⟩) ++
  (im.roster.zipIdx.map fun (m, i) => ⟨vg.any fun r => rosterBreaks im r m i, refMembers, 3, i⟩) ++
  (vg.map fun r => ⟨r.pumpMask == 0, refPumps, 2, r.group⟩) ++
  (vg.map fun r => ⟨(im.queues.filter fun x => x.comm && x.weight != 0 && x.group == r.group).map (·.queue) != [r.queue] ||
    vg.any fun o => o.group != r.group && o.queue == r.queue, refQueues, 2, r.group⟩) ++
  (vg.map fun r => ⟨r.refinerRow != 0xFF && r.schedule == 0xFF, refRefiner, 2, r.group⟩) ++
  (im.rows.zipIdx.map fun (x, i) =>
    ⟨!([x.stateFmt, x.weightFmt].all fun c => c ≤ 2 && bit im.formats.enable c) || (x.blockScaled && x.stateFmt == 0),
      refRefiner, 8, i⟩) ++
  [⟨!([im.splitRead, im.splitWrite, im.splitRemote].all fun x => 1 ≤ x && x ≤ 14) ||
      im.splitRead + im.splitWrite + im.splitRemote != 16, refSplit, 11, 0⟩] ++
  [⟨256 * 1024 < im.pourBytes.length, refProofPour, 10, 0⟩] ++
  (im.pours.zipIdx.map fun (p, i) => ⟨3 < p.target || (match kernelOf im p with
      | some k => k.target != p.target || p.length < kernelSpan im k
      | none => true), refProofPour, 10, i⟩)

/-- Slot bytes of a group (02 R71). -/
def GroupRec.slotBytes (r : GroupRec) : Nat := (r.replayBytes + 4095) / 4096 * 4096

/-- need_mem of a group (02 R71). -/
def needMem (r : GroupRec) : Nat :=
  cdiv r.footprint r.minMembers + (if r.replayPlace == 1 then 2 * r.slotBytes else 0)

/-- The footprint phase (02 R71). Its REPLAY check, like its sum, is made for the valid groups that list this engine
(DESIGN CHOICE, log entry 36). -/
def footprintChecks (im : Image) (me : Nat) : List Check :=
  let mine := im.groups.filter fun r => r.valid && im.lists r.group me
  (mine.zipIdx.map fun (r, i) => ⟨im.dieMemory < ((mine.take (i + 1)).map needMem).sum, refFootprint, 2, r.group⟩) ++
  (mine.map fun r => ⟨r.replayPlace == 0 &&
    ((im.cisterns.find? fun p => p.kind == 2 && p.owner == r.group).map (·.banks)).getD 0 * 2 ^ 20 < 2 * r.slotBytes,
    refReplay, 2, r.group⟩)

/-- The first check that fails (in part DEDUCED, log entry 36). -/
def firstFailure (cs : List Check) : Option Check := cs.find? (·.fails)

/-- The loader's checks of a fetched image, phase by phase (02 R68): the first failure, or the image (in part DEDUCED, log entry 36). -/
def checkImage (bs : List Byte) (len me : Nat) (own : Option (Nat → Nat)) : Option Check × Image :=
  let im := parseImage bs
  let early := firstFailure (headerChecks bs len ++ sumChecks bs ++ directoryChecks bs len)
  match early with
  | some e => (some e, im)
  | none =>
    (firstFailure (encodingChecks bs im ++ referenceChecks im me own ++ resourceChecks im me ++ footprintChecks im me), im)

end Sys2Proof.Machine
end

