-- ==== Sys2Proof/Machine/Vectors.lean ====
section
/-! DEFINITION. Vectors of elements (06): reading an operand from its bytes, entry into the accumulation format, the ⊕ of
every accumulation, order-free words and their pre-pass, the final conversion and the conversions of the moving opcodes
and COPY, with the elements that saturated or flushed (R266, R267) and the running maximum (R248). -/

namespace Sys2Proof.Machine

/-- Events of a piece of arithmetic: the elements that saturated and those that flushed, by index (06 R266, R267). -/
structure Events where
  sat : List Nat := []
  flush : List Nat := []
  deriving DecidableEq, Repr

def Events.add (a b : Events) : Events := ⟨a.sat ++ b.sat, a.flush ++ b.flush⟩

/-- The events of a list of rounded elements whose first has index `i0`. -/
def eventsOf (i0 : Nat) (rs : List Rnd) : Events :=
  let xs := rs.zipIdx.map fun (r, k) => (r, i0 + k)
  ⟨(xs.filter fun x => x.1.sat).map (·.2), (xs.filter fun x => x.1.flush).map (·.2)⟩

/-! ### Elements of an operand -/

/-- An element as read: its encoding and its block's scale byte (127 for an unscaled format). -/
structure RawEl where
  enc : Nat
  scale : Nat := 127
  deriving DecidableEq, Repr

/-- Elements `i0` to `i0 + n - 1` of an operand whose `total` elements and scales stand in a staging buffer from byte 0
(06 R233, R234). -/
def readElements (buf : Tab Byte) (code b dir total i0 n : Nat) : List RawEl :=
  (List.range n).map fun k =>
    let i := i0 + k
    { enc := leNat (bufRead buf (i * elemSize code) (elemSize code))
      scale := if isBlockFmt code then leNat (bufRead buf (up64 total + scaleIndex b dir i) 1) else 127 }

/-- The bytes of elements in a storage format (06 R228). -/
def elementBytes (code : Nat) (els : List Nat) : List Byte := els.flatMap fun x => leBytes (elemSize code) x

/-! ### The context of a reduction -/

/-- What the arithmetic of an entry depends on: operator, formats, strictness and block size. -/
structure NumCtx where
  operator : Nat
  inF : Nat
  acc : Nat
  out : Nat
  strict : Bool
  b : Nat
  round : RMode
  deriving DecidableEq, Repr

/-- The context of an entry (06 R235, R239). -/
def State.numCtx (s : State) (d : Desc) : NumCtx :=
  { operator := d.operator, inF := d.inFmt, acc := d.acc, out := d.outFmt, strict := d.strict, b := (s.blockOf d).1
    round := s.roundFor d.round d.outFmt }

/-- Order-free accumulation (03 R107). -/
def NumCtx.orderFree (x : NumCtx) : Bool := x.acc == 8 || x.acc == 9 || x.acc == 10

/-- Bits of an order-free word (06 R228). -/
def wordBits (acc : Nat) : Nat := if acc == 8 then 32 else if acc == 9 then 64 else 96

/-! ### Identities (05 R188) -/

/-- The identity of an operator in an accumulation format. -/
def identityAcc (operator acc : Nat) : Nat :=
  match operator with
  | 1 => if acc == 6 then 2 ^ 31 else (roundF ((fmtOf acc).getD fp32F) acc true 0 0 (.inf true)).bits
  | 2 => if acc == 6 then 2 ^ 31 - 1 else (roundF ((fmtOf acc).getD fp32F) acc true 0 0 (.inf false)).bits
  | 4 => 2 ^ 32 - 1
  | _ => 0

/-- The identity as a value, for its conversion into OUT_FMT (05 R188, R191). -/
def identityVal (operator acc : Nat) : Val :=
  match operator with
  | 1 => if acc == 6 then .fin true (2 ^ 31) 0 else .inf true
  | 2 => if acc == 6 then .fin false (2 ^ 31 - 1) 0 else .inf false
  | 4 => .fin true 1 0
  | _ => .fin false 0 0

/-! ### Order-free reduction (06 R259-R263) -/

/-- The exact FP32 value of an input element, and the pre-pass byte (06 R259). -/
def prepassByte (code x : Nat) : Nat :=
  match decodeEl code 127 x with
  | .fin _ m e => if m == 0 then 0 else (max 1 (magExp m e + 127)).toNat
  | _ => 255

/-- λ of a block with byte `B` (06 R260). -/
def lambdaOf (byte w : Nat) : Int := (byte : Int) - 107 - w

/-- The word of a contribution in a block with byte `B` (06 R260, R263). -/
def toWord (code w byte x : Nat) : Nat :=
  let v := decodeEl code 127 x
  if byte == 255 then (match v with
    | .nan => 3
    | .inf neg => if neg then 2 else 1
    | .fin _ _ _ => 0)
  else if byte == 0 then 0
  else match v with
    | .fin neg m e => let (n, _, _) := quantum m e (lambdaOf byte w); if neg then (2 ^ w - n) % 2 ^ w else n
    | _ => 0

/-- The value of a summed word (06 R262). -/
def ofWord (w byte x : Nat) : Val :=
  match decodeI w x with
  | .fin neg m _ => if m == 0 then .fin false 0 0 else .fin neg m (lambdaOf byte w)
  | v => v

/-- The value of a poisoned block's element (06 R263). -/
def ofClass (x : Nat) : Val :=
  match x with
  | 1 => .inf false
  | 2 => .inf true
  | _ => .nan

/-- The residue of an order-free word (10 R380). -/
def wordResidue (w x : Nat) : Nat :=
  let v := x % 2 ^ w
  if v < 2 ^ (w - 1) then v % residueP else (residueP - (2 ^ w - v) % residueP) % residueP

/-- The residue of a payload whose first element has index `i0`; words of poisoned blocks are left out (10 R380). -/
def payloadResidue (acc : Nat) (pre : List Nat) (i0 : Nat) (els : List Nat) : Nat :=
  (els.zipIdx.foldl (fun r (x, k) =>
    if (pre[(i0 + k) / 32]?).getD 0 == 255 then r else r + wordResidue (wordBits acc) x) 0) % residueP

/-- Whether a payload holds an element of a poisoned block (10 R376 POISON). -/
def holdsPoison (pre : List Nat) (i0 n : Nat) : Bool :=
  (List.range n).any fun k => (pre[(i0 + k) / 32]?).getD 0 == 255

/-! ### Entry into the accumulation format (06 R251, R257, R260) -/

/-- One contribution in ACC (06 R239, R251): the encoding and its events. The inputs of a native sum whose format flushes
are flushed here (R238); a block-scaled element enters FP32 as its value; a block-scaled ACC keeps the element, with 0x80
read as -127 (R231). -/
def enterEl (x : NumCtx) (byte : Nat) (e : RawEl) : Rnd :=
  if x.operator == 6 then ⟨b1 (isNonzero x.inF e.scale e.enc), x.inF == 7 && e.enc == 0x80, false⟩
  else if x.orderFree then ⟨toWord x.inF (wordBits x.acc) byte e.enc, false, false⟩
  else if x.acc == 11 || x.acc == 12 then ⟨e.enc, false, false⟩
  else if isBlockFmt x.acc then ⟨if x.acc == 7 && e.enc == 0x80 then 0x81 else e.enc, x.acc == 7 && e.enc == 0x80, false⟩
  else
    let a := if x.acc == x.inF then
        (if x.operator == 0 && !x.strict && isFlushedInput x.acc e.enc then
          (roundF ((fmtOf x.acc).getD fp32F) x.acc false 0 0 (decodeEl x.acc 127 e.enc)) else ⟨e.enc, false, false⟩)
      else
        let (v, fl) := decodeFlush x.inF e.scale e.enc
        let r := roundF fp32F 0 true 0 0 v
        { r with flush := r.flush || fl, sat := r.sat || (x.inF == 7 && e.enc == 0x80) : Rnd }
    if x.operator == 3 then
      let m := absEl x.acc a.bits
      ⟨m.bits, m.sat || a.sat, a.flush⟩
    else a

/-- Whether something has contributed to element `k` of a vector (05 R190). -/
def PV.has (p : PV) (k : Nat) : Bool := !((p.bare[k]?).getD false)

/-- The marks of elements without a contribution; none where every element has one. -/
def bareMarks (l : List Bool) : List Bool := if l.any id then l else []

/-- A member's contribution: elements from index `i0`, with the mask of 05 R190 and the pre-pass bytes of an order-free entry. A
masked-out element is marked as left out; what stands in its place is the identity, and scale byte 0 in a block with no contribution
(in part DESIGN CHOICE, log entry 20). -/
def enterAcc (x : NumCtx) (pre : List Nat) (mask : Nat → Bool) (i0 : Nat) (els : List RawEl) : PV × Events :=
  let rs := els.zipIdx.map fun (e, k) =>
    if mask (i0 + k) then enterEl x ((pre[(i0 + k) / 32]?).getD 0) e
    else (⟨if x.orderFree || isBlockFmt x.acc then 0 else identityAcc x.operator x.acc, false, false⟩ : Rnd)
  ({ els := rs.map (·.bits)
     scales := if isBlockFmt x.acc then
         (List.range (cdiv els.length x.b)).map fun j =>
           if (List.range (min x.b (els.length - j * x.b))).any fun k => mask (i0 + j * x.b + k) then
             ((els[j * x.b]?).map (·.scale)).getD 127
           else 0
       else []
     bare := bareMarks ((List.range els.length).map fun k => !mask (i0 + k)) },
   eventsOf i0 rs)

/-- Touch bits of a contribution's rows of `w` elements (07 R295). -/
def touchBits (x : NumCtx) (mask : Nat → Bool) (w i0 : Nat) (els : List RawEl) : List Bool :=
  (List.range (els.length / max 1 w)).map fun r =>
    ((els.drop (r * w)).take w).zipIdx.any fun (e, k) => mask (i0 + r * w + k) && isNonzero x.inF e.scale e.enc

/-! ### The ⊕ (06 R252) -/

/-- The ⊕ of two encodings in a format without shared scales (06 R252) (in part DEDUCED, log entry 25). -/
def combineEl (x : NumCtx) (poisoned : Bool) (a b : Nat) : Rnd :=
  if x.orderFree then
    (if poisoned then ⟨a ||| b, false, false⟩ else ⟨(a + b) % 2 ^ wordBits x.acc, false, false⟩)
  else match x.operator with
    | 1 | 2 | 3 => combineMax x.operator x.acc a b
    | 4 => ⟨a &&& b, false, false⟩
    | 5 => ⟨a ||| b, false, false⟩
    | 6 => addInt32 a b
    | _ =>
      if x.acc == 6 then addInt32 a b
      else if x.acc == 11 || x.acc == 12 then addPair x.acc a b
      else if x.strict then addStrict ((fmtOf x.acc).getD fp32F) x.acc a b
      else addNative x.acc a b

/-- Round the exact sums of a block at scale `sc` (06 R255); a NaN or an infinity follows R254 and is no overflow. -/
def roundBlock (code sc : Nat) (vs : List Val) : List Rnd :=
  vs.map fun v =>
    let r := encodeBlockEl code 0 0 (Val_scale (127 - (sc : Int)) v)
    { r with sat := r.sat && Val_isFin v }

/-- An element of a block with its scale: its encoding, and whether it has a contribution. -/
abbrev BlockEl := Nat × Bool

/-- The block merge (06 R255): the merged scale and elements; an element without a contribution leaves the other as it is (05 R190)
(in part DEDUCED, log entry 25). -/
def mergeBlock (code sa sb : Nat) (as bs : List BlockEl) : Nat × List Rnd :=
  let plain (xs : List BlockEl) : List Rnd := xs.map fun x => ⟨x.1, false, false⟩
  if !(as.any (·.2)) then (sb, plain bs)
  else if !(bs.any (·.2)) then (sa, plain as)
  else if sa == 0xFF || sb == 0xFF then (0xFF, as.map fun _ => ⟨0, false, false⟩)
  else
    let vs := (as.zip bs).map fun (a, b) =>
      if !a.2 then decodeEl code sb b.1 else if !b.2 then decodeEl code sa a.1
      else Val_add (decodeEl code sa a.1) (decodeEl code sb b.1)
    let sc := max sa sb
    let rs := roundBlock code sc vs
    if (rs.any (·.sat)) && sc < 254 then (sc + 1, roundBlock code (sc + 1) vs) else (sc, rs)

/-- Cut a list into pieces of `n`. -/
def chunksOf {α : Type} (n : Nat) : Nat → List α → List (List α)
  | 0, _ => []
  | fuel + 1, l => if l.isEmpty then [] else l.take n :: chunksOf n fuel (l.drop n)

/-- The ⊕ of two pieces of a vector whose first element has index `i0` (06 R252): an element that only one of them has is taken as
it is (05 R190); touch bits combine by OR (07 R295). -/
def combinePV (x : NumCtx) (pre : List Nat) (i0 : Nat) (p q : PV) : PV × Events :=
  let touch := if p.touch.isEmpty then q.touch else (p.touch.zip q.touch).map fun (a, b) => a || b
  let bare := bareMarks ((List.range p.els.length).map fun k => !p.has k && !q.has k)
  if isBlockFmt x.acc && x.operator == 0 then
    let els (v : PV) : List BlockEl := v.els.zipIdx.map fun (e, k) => (e, v.has k)
    let ms := ((chunksOf x.b p.els.length (els p)).zip (chunksOf x.b q.els.length (els q))).zip (p.scales.zip q.scales)
    let rs := ms.map fun ((a, b), (sa, sb)) => mergeBlock x.acc sa sb a b
    let es := rs.flatMap (·.2)
    ({ els := es.map (·.bits), scales := rs.map (·.1), touch, bare }, eventsOf i0 es)
  else
    let rs := (p.els.zip q.els).zipIdx.map fun ((a, b), k) =>
      if !q.has k then (⟨a, false, false⟩ : Rnd) else if !p.has k then ⟨b, false, false⟩
      else combineEl x ((pre[(i0 + k) / 32]?).getD 0 == 255) a b
    ({ els := rs.map (·.bits), touch, bare }, eventsOf i0 rs)

/-! ### Conversions (06 R239-R248) -/

/-- The values that ACC holds at the owner (06 R206, R262, R263), each with its input flush. An order-free element to which nobody
contributes is the identity, in a poisoned block too (05 R191; in part DEDUCED, log entry 25). -/
def accValues (x : NumCtx) (pre : List Nat) (i0 : Nat) (p : PV) : List (Val × Bool) :=
  p.els.zipIdx.map fun (e, k) =>
    let byte := (pre[(i0 + k) / 32]?).getD 0
    if x.orderFree then (if byte == 0 || !p.has k then .fin false 0 0 else if byte == 255 then ofClass e
      else ofWord (wordBits x.acc) byte e, false)
    else if isBlockFmt x.acc then (decodeEl x.acc ((p.scales[k / x.b]?).getD 127) e, false)
    else if x.acc == 6 || x.operator == 6 then (decodeI 32 e, false)
    else if x.acc == 11 || x.acc == 12 || x.strict then (decodeEl x.acc 127 e, false)
    else decodeFlush x.acc 127 e

/-- The running maximum over presented values (06 R248, R273). -/
def amaxOf (vs : List Val) : AmaxRec :=
  vs.foldl (fun r v => match v with
    | .nan => { r with valid := true, nan := true }
    | .inf _ => { r with valid := true, inf := true }
    | .fin _ m e => { r with valid := true, amax := max r.amax (roundF fp32F 0 true 1 0 (.fin false m e)).bits }) {}

/-- Two running maxima of one entry. -/
def mergeAmax (a : Option AmaxRec) (b : AmaxRec) : Option AmaxRec :=
  match a with
  | none => some b
  | some a => some { b with amax := max a.amax b.amax, nan := a.nan || b.nan, inf := a.inf || b.inf }

/-- Elements converted into a target format: encodings, scale bytes, events and the running maximum. -/
structure Converted where
  els : List Nat
  scales : List Nat := []
  ev : Events := {}
  amax : Option AmaxRec := none
  deriving DecidableEq, Repr

/-- Round values into a format with row blocks of `b` (06 R236, R240, R241, R247): the values with their input flush, the
draws of R245 per element, and whether subnormal results are kept (strict). -/
def convertVals (out b : Nat) (keep : Bool) (mode : RMode) (u : Nat → Nat) (i0 : Nat) (vs : List (Val × Bool)) :
    Converted :=
  let us := (List.range vs.length).map fun k => if mode == 2 then u (i0 + k) else 0
  if isBlockFmt out then
    let bl := (chunksOf b vs.length (vs.zip us)).map fun part =>
      encodeBlock out mode (part.map (·.2)) (part.map (·.1.1))
    let rs := ((bl.flatMap (·.2)).zip vs).map fun (r, v) => { r with flush := r.flush || v.2 : Rnd }
    { els := rs.map (·.bits), scales := bl.map (·.1), ev := eventsOf i0 rs, amax := some (amaxOf (vs.map (·.1))) }
  else
    let rs := (vs.zip us).map fun (v, u) =>
      let r := encodeSingle out keep mode u v.1
      { r with flush := r.flush || v.2 : Rnd }
    { els := rs.map (·.bits), ev := eventsOf i0 rs, amax := some (amaxOf (vs.map (·.1))) }

/-- A pair with a NaN component as the engine writes it (06 R230). -/
def canonPair (code e : Nat) : Nat :=
  let f := if code == 11 then bf16F else fp32F
  let w := if code == 11 then 16 else 32
  if decodeF f (bits e 0 w) == .nan || decodeF f (bits e w w) == .nan then canonNan code else e

/-- The owner's conversion of a finished piece into OUT_FMT (06 R239, R262): a pair into the same pair is unchanged but for
its NaN (R230, R247), and so is the word of AND and OR; a strict sum keeps its subnormals in its own format (R237). What is presented
enters the running maximum in every case (R248). -/
def finishPV (x : NumCtx) (pre : List Nat) (u : Nat → Nat) (i0 : Nat) (p : PV) : Converted :=
  let amax := some (amaxOf ((accValues x pre i0 p).map (·.1)))
  if x.out == x.acc && (x.acc == 11 || x.acc == 12) then { els := p.els.map (canonPair x.acc), amax }
  else if x.operator == 4 || x.operator == 5 then { els := p.els, amax }
  else convertVals x.out x.b (x.strict && x.out == x.acc) x.round u i0 (accValues x pre i0 p)

/-- The gradient of UPDATE: the reduced sum rounded once into FP32, to nearest even (07 R289). -/
def gradientOf (x : NumCtx) (pre : List Nat) (i0 : Nat) (p : PV) : Converted :=
  convertVals 0 x.b x.strict 0 (fun _ => 0) i0 (accValues x pre i0 p)

/-- Poisoned blocks that begin in a piece (06 R263: counted once at the owner). -/
def poisonedBlocks (pre : List Nat) (i0 n : Nat) : Nat :=
  ((List.range n).filter fun k => (i0 + k) % 32 == 0 && (pre[(i0 + k) / 32]?).getD 0 == 255).length

/-- The conversion of a moving opcode or COPY (06 R239, R247): equal formats are unchanged; a pair to the other pair
takes two roundings. A target in columns is scaled by its own blocks, of which the first starts with the list. -/
def convertEls (inF out b dir : Nat) (mode : RMode) (u : Nat → Nat) (i0 : Nat) (els : List RawEl) : Converted :=
  if inF == out then { els := els.map (·.enc), scales := [] }
  else
    let vs := els.map fun e =>
      let (v, fl) := decodeFlush inF e.scale e.enc
      (v, fl)
    let i8 := eventsOf i0 (els.map fun e => (⟨0, inF == 7 && e.enc == 0x80, false⟩ : Rnd))
    let bothPairs := (inF == 11 || inF == 12) && (out == 11 || out == 12)
    if bothPairs then
      let rs := vs.zipIdx.map fun (v, k) => encodePairFromPair out mode (if mode == 2 then u (i0 + k) else 0) v.1
      { els := rs.map (·.bits), ev := (eventsOf i0 rs).add i8, amax := some (amaxOf (vs.map (·.1))) }
    else if isBlockFmt out && dir == 1 then
      let n := scaleCount b 1 els.length
      let members := fun j => (vs.zipIdx.filter fun (_, k) => scaleIndex b 1 k == j).map (·.1.1)
      let sc := (List.range n).map fun j =>
        let ms := members j
        if out == 7 && ms.any (· == .nan) then 0xFF else if ms.isEmpty then 0x7F else chooseScale (scaleT out) ms
      let rs := vs.zipIdx.map fun (v, k) =>
        let j := scaleIndex b 1 k
        let sj := (sc[j]?).getD 127
        if sj == 0xFF then
          let ms := members j
          let r := encodeBlockEl out mode (if mode == 2 then u (i0 + k) else 0)
            (Val_scale (127 - (chooseScale (scaleT out) ms : Int)) v.1)
          (⟨0, r.sat, r.flush || v.2⟩ : Rnd)
        else
          let r := encodeBlockEl out mode (if mode == 2 then u (i0 + k) else 0) (Val_scale (127 - (sj : Int)) v.1)
          { r with flush := r.flush || v.2 : Rnd }
      { els := rs.map (·.bits), scales := sc, ev := (eventsOf i0 rs).add i8, amax := some (amaxOf (vs.map (·.1))) }
    else
      let r := convertVals out b false mode u i0 vs
      { r with ev := r.ev.add i8 }

/-- The GROUP value of an entry's draws: the twin's while its queue is paired (09 R367). -/
def State.drawGroup (s : State) (o : Op) : Nat :=
  if s.twin.paired && s.twin.queue == o.q then s.twin.rngGroup
  else if o.desc.noGroup then o.q else o.desc.group

/-- The draw of element `i` of an entry (06 R243, R245, R271): USE 2 of a moving opcode takes the converter's position. -/
def entryDraw (s : State) (o : Op) (use : Nat) (i : Nat) : Nat :=
  let pos := if use == 2 && isGroupWide o.desc.opcode then s.ownPos o.desc.group else 0
  let entry := if isGroupWide o.desc.opcode then o.num else o.c
  elementDraw o.key i entry o.step (s.drawGroup o) use pos

end Sys2Proof.Machine
end

