-- ==== Sys2Proof/Machine/Plan.lean ====
section
/-! DEFINITION. The plan of a collective (05 R182-R207, R510; 10 R375): chunks and their owners, the schemes of the
stages, the parcels of a chunk, the tree of combinations that R206 fixes with the position each one is made on, and the
edges along which a finished piece reaches every member. -/

namespace Sys2Proof.Machine

/-! ### Chunks, owners, parcels -/

/-- Grains of a vector of `n` elements (05 R186). -/
def grains (n : Nat) : Nat := cdiv n 128

/-- The first grain of chunk `c` of `m`, and its number of grains (05 R186). -/
def chunkGrains (g m c : Nat) : Nat × Nat :=
  let base := g / max 1 m
  let extra := g % max 1 m
  (c * base + min c extra, base + (if c < extra then 1 else 0))

/-- The schemes of a stage (05 R205). -/
inductive Scheme where
  | halving
  | tree
  | ring
  | ring2
  deriving DecidableEq, Repr

/-- Parts into which a scheme splits each chunk (05 R510). -/
def Scheme.parts : Scheme → Nat
  | .ring => 2
  | .ring2 => 4
  | _ => 1

/-- Whether a scheme is a ring (05 R204). -/
def Scheme.isRing : Scheme → Bool
  | .ring | .ring2 => true
  | _ => false

/-- The part of a chunk of `gc` grains that grain `off` lies in (05 R510). -/
def partOf (n gc off : Nat) : Nat := ((List.range n).filter fun j => j * gc / n ≤ off).length - 1

/-- The scheme of a stage for `n` bytes per member (05 R202, R205). -/
def schemeFor (t : StageTopo) (p n : Nat) : Scheme :=
  if t.threshold ≤ n then (if t.large == 1 && t.stage == 1 && p == 64 then .ring2 else .ring)
  else if t.small == 1 then .tree else .halving

/-- The schemes of the stages of a moving opcode in ascending order: `n` grows by each stage's slots in an ALLGATHER, or stays
(05 R202, R203). -/
def schemesFrom (im : Image) (change : Nat → Nat → Nat) : List (Nat × Nat) → Nat → List Scheme
  | [], _ => []
  | (st, p) :: rest, n =>
    schemeFor ((im.stages.find? fun r => r.stage == st).getD {}) p n :: schemesFrom im change rest (change n p)

/-- The geometry of a group as one of its members sees it (05 R182-R185): enabled stages, slot counts, this member's
position, and each position's presence and die address. -/
structure Lay where
  stages : List Nat
  counts : List Nat
  own : Nat
  present : Nat → Bool
  die : Nat → Nat

/-- The geometry of a group (05 R182-R185). -/
def State.lay (s : State) (g : Nat) : Lay :=
  { stages := enabled (s.gr g).stageMask, counts := s.counts g, own := s.ownPos g
    present := fun p => (s.position g p).present, die := fun p => (s.position g p).dieAddr }

def Lay.m (x : Lay) : Nat := x.counts.foldl (· * ·) 1
def Lay.stride (x : Lay) (i : Nat) : Nat := (x.counts.take i).foldl (· * ·) 1
def Lay.p (x : Lay) (i : Nat) : Nat := max 1 ((x.counts[i]?).getD 1)
def Lay.digit (x : Lay) (q i : Nat) : Nat := q / x.stride i % x.p i

/-- The stage code of an index: that of an enabled stage, or, past them, of a level that the group's stages leave out (10 R386). -/
def Lay.stage (x : Lay) (i : Nat) : Nat := (x.stages[i]?).getD (i - x.stages.length)

/-- Position `q` with its slot at stage `i` replaced. -/
def Lay.withDigit (x : Lay) (q i j : Nat) : Nat := q - x.digit q i * x.stride i + j * x.stride i

/-- The first present candidate for position `q`, widening stage by stage (05 R187) (in part DEDUCED, log entry 19). -/
def substituteFrom (x : Lay) (q : Nat) : Nat → Nat → Option Nat
  | 0, _ => none
  | fuel + 1, i =>
    let span := x.stride i
    let lo := q - q % span
    match ((List.range span).map fun d => lo + (q % span + d) % span).find? x.present with
    | some r => some r
    | none => substituteFrom x q fuel (i + 1)

/-- The position that owns chunk `q` (05 R187): itself when present, else its substitute. -/
def Lay.owner (x : Lay) (q : Nat) : Nat :=
  if x.present q then q else (substituteFrom x q x.counts.length 1).getD q

/-- The schemes of the stages for the portion that position `q` carries up: `n` at a stage is the bytes of the chunks carried there;
a tree's root takes the whole portion on, every other scheme leaves the chunks of the own slot (05 R202, R203, R205)
(in part DEDUCED, log entry 19). -/
def schemesUp (im : Image) (x : Lay) (bytes : Nat → Nat) (q : Nat) : List Scheme :=
  ((x.stages.zip x.counts).zipIdx.foldl (fun (acc : List Scheme × List Nat) (y, i) =>
    let k := schemeFor ((im.stages.find? fun r => r.stage == y.1).getD {}) y.2 (acc.2.map bytes).sum
    (acc.1 ++ [k], if k == .tree then acc.2 else acc.2.filter fun c => x.digit (x.owner c) i == x.digit q i))
    ([], List.range x.m)).1

/-- Elements that share a scale byte in a parcel: a block, or a row of an embedding table where rows are shorter, since only touched
rows are sent (06 R233; 07 R296) (in part DEDUCED, log entry 26). -/
def scaleRun (b w : Nat) : Nat := if w = 0 then b else min b w

/-- Elements of a full parcel of a format (10 R375): whole grains, with scales of blocks of `b` and touch bits of rows of
`w` elements (0 for none). -/
def parcelGrains (code b w : Nat) : Nat :=
  let bytes (g : Nat) : Nat := 128 * g * elemSize code + (if isBlockFmt code then 128 * g / b else 0) +
    (if w = 0 then 0 else cdiv (128 * g / w) 8)
  (((List.range 33).filter fun g => bytes g ≤ 4096).getLast?).getD 1

/-- Grains of a full pre-pass parcel: one byte per 32 elements (05 R207). -/
def prepassGrains : Nat := 1024

/-- A run of grains that travels as one parcel. -/
structure Piece where
  idx : Nat
  grain : Nat
  grains : Nat
  deriving DecidableEq, Repr

/-- Cut `count` grains from `start` into runs of at most `mx` whose grains share a signature: the parts of every stage that
splits the chunk (05 R510; 10 R375). -/
def cutFrom (sig : Nat → List Nat) (mx : Nat) : Nat → Nat → List Piece → List Piece
  | 0, _, acc => acc.reverse
  | count + 1, g, acc =>
    match acc with
    | p :: rest =>
      if p.grains < mx && sig p.grain == sig g then cutFrom sig mx count (g + 1) ({ p with grains := p.grains + 1 } :: rest)
      else cutFrom sig mx count (g + 1) ({ idx := p.idx + 1, grain := g, grains := 1 } :: p :: rest)
    | [] => cutFrom sig mx count (g + 1) [{ idx := 0, grain := g, grains := 1 }]

/-- The parcels of chunk `c` of a vector of `n` elements, under the schemes of the stages (in part DEDUCED, log entry 19). -/
def chunkPieces (x : Lay) (ks : List Scheme) (n mx c : Nat) : List Piece :=
  let (g0, gc) := chunkGrains (grains n) x.m c
  cutFrom (fun g => ks.map fun k => partOf k.parts gc (g - g0)) (max 1 mx) gc g0 []

/-- First element and number of elements of a piece. -/
def Piece.elems (p : Piece) (n : Nat) : Nat × Nat := (128 * p.grain, min n (128 * (p.grain + p.grains)) - 128 * p.grain)

/-! ### Orders -/

/-- The folded order of the two-dimensional ring (05 R205). -/
def foldOrder : List Nat := [0, 2, 4, 6, 7, 5, 3, 1]

/-- The place of a die in a snake over one or more packages (05 R205). -/
def snakePlace (d : Nat) : Nat :=
  64 * (d / 64) + dieRow d * 8 + (if dieRow d % 2 = 0 then dieCol d else 7 - dieCol d)

/-- The ring order of a stage's slots (05 R205): slot order above the package, the snake order of the mesh positions at
the package stage. `base` is a position of the domain with slot 0 at the stage (in part DEDUCED, log entry 19). -/
def Lay.ringOrder (x : Lay) (i base : Nat) : List Nat :=
  if x.stage i == 1 then
    sortBy (fun a b => decide (snakePlace (x.die (base + a * x.stride i)) ≤ snakePlace (x.die (base + b * x.stride i))))
      (List.range (x.p i))
  else List.range (x.p i)

/-- A list turned so that it starts after an element. -/
def turnAfter (l : List Nat) (o : Nat) : List Nat :=
  let k := (l.findIdx? (· == o)).getD 0
  l.drop (k + 1) ++ l.take (k + 1)

/-- The direction of a part: odd parts travel in decreasing order (05 R205). -/
def directed (part : Nat) (l : List Nat) : List Nat := if part % 2 = 1 then l.reverse else l

/-! ### The tree of combinations (05 R206) -/

/-- What is combined for one piece, and where: a position's contribution, a combination made on a position at a stage
(its index), or a value passed to a position (the end of halving for a slot at or above P'). -/
inductive RTree where
  | leaf (pos : Nat)
  | node (si pos : Nat) (l r : RTree)
  | move (si pos : Nat) (t : RTree)
  deriving DecidableEq, Repr

/-- The position where the value of a tree stands. -/
def RTree.loc : RTree → Nat
  | .leaf p => p
  | .node _ p _ _ => p
  | .move _ p _ => p

/-- Combine two operands on a position; an absent slot contributes nothing and is passed over, and what an absent
position would have combined is combined where the first operand stands (05 R185, R206) (in part DEDUCED, log entry 19). -/
def Lay.join (x : Lay) (si pos : Nat) : Option RTree → Option RTree → Option RTree
  | none, r => r
  | l, none => l
  | some l, some r => some (.node si (if x.present pos then pos else l.loc) l r)

/-- A ring: the partial value starts at the slot after the owner and the owner is last (05 R206). -/
def ringFold (order : List Nat) (o : Nat) (get : Nat → Option RTree)
    (at_ : Nat → Option RTree → Option RTree → Option RTree) : Option RTree :=
  (turnAfter order o).foldl (fun acc j => at_ j acc (get j)) none

/-- Steps of halving, from the highest bit down: each computes lower ⊕ higher on the slot whose bit matches the owner's
(05 R205, R206). -/
def halvingSteps (eff : Nat) (at_ : Nat → Option RTree → Option RTree → Option RTree) :
    Nat → List (Option RTree) → List (Option RTree)
  | 0, vs => vs
  | b + 1, vs =>
    halvingSteps eff at_ b (vs.zipIdx.map fun (v, j) =>
      if bit j b == bit eff b then
        let other := ((vs[Nat.xor j (2 ^ b)]?).getD none)
        if bit j b then at_ j other v else at_ j v other
      else none)

/-- The largest power of two that is at most `p`, as its exponent (05 R205). -/
def log2Slots (p : Nat) : Nat := p.log2

/-- Recursive halving for an owner's slot (05 R205, R206). -/
def halvingFold (p o : Nat) (get : Nat → Option RTree) (at_ : Nat → Option RTree → Option RTree → Option RTree)
    (give : Nat → RTree → RTree) : Option RTree :=
  let k := log2Slots p
  let eff := if o < 2 ^ k then o else o - 2 ^ k
  let start := (List.range (2 ^ k)).map fun j => at_ j (get j) (if j + 2 ^ k < p then get (j + 2 ^ k) else none)
  let v := ((halvingSteps eff at_ k start)[eff]?).getD none
  if o < 2 ^ k then v else v.map (give o)

/-- The tree of fan-in 4 below slot `j` (05 R205, R206). -/
def treeFold (p : Nat) (get : Nat → Option RTree) (at_ : Nat → Option RTree → Option RTree → Option RTree) :
    Nat → Nat → Option RTree
  | 0, j => get j
  | fuel + 1, j =>
    ([4 * j + 1, 4 * j + 2, 4 * j + 3, 4 * j + 4].filter (· < p)).foldl
      (fun acc k => at_ j acc (treeFold p get at_ fuel k)) (get j)

/-- The two-dimensional ring over 64 slots (05 R205, R206): quarters 0 and 1 run rows then columns, 2 and 3 columns then
rows. -/
def ring2Fold (part o : Nat) (get : Nat → Option RTree) (at_ : Nat → Option RTree → Option RTree → Option RTree) :
    Option RTree :=
  let ord := directed part foldOrder
  let (r, c) := (o / 8, o % 8)
  if part < 2 then
    ringFold ord r (fun i => ringFold ord c (fun j => get (8 * i + j)) fun j => at_ (8 * i + j)) fun i => at_ (8 * i + c)
  else
    ringFold ord c (fun j => ringFold ord r (fun i => get (8 * i + j)) fun i => at_ (8 * i + j)) fun j => at_ (8 * r + j)

/-- The slot that holds a chunk after a stage: the owner's slot, or 0 at a tree stage (05 R205). -/
def holdSlot (k : Scheme) (o : Nat) : Nat := if k == .tree then 0 else o

/-- The position with the holding slots of an owner at the first `i` stages and 0 above. -/
def Lay.holdBase (x : Lay) (ks : List Scheme) (owner i : Nat) : Nat :=
  ((List.range i).map fun l => holdSlot ((ks[l]?).getD .halving) (x.digit owner l) * x.stride l).sum

/-- The value of a stage for one piece: the stage's operands are the values of the stage below (05 R206). `parts` gives
the piece's part at each stage and `tail` the slots of the stages above. -/
def Lay.tree (x : Lay) (ks : List Scheme) (parts : List Nat) (owner : Nat) : Nat → Nat → Option RTree
  | 0, tail => if x.present tail then some (.leaf tail) else none
  | i + 1, tail =>
    let get (j : Nat) : Option RTree := x.tree ks parts owner i (tail + j * x.stride i)
    let pos (j : Nat) : Nat := x.holdBase ks owner i + j * x.stride i + tail
    let at_ (j : Nat) := x.join i (pos j)
    let o := x.digit owner i
    let part := (parts[i]?).getD 0
    if x.p i = 1 then get 0
    else match (ks[i]?).getD .halving with
      | .halving => halvingFold (x.p i) o get at_ fun j t => if x.present (pos j) then .move i (pos j) t else t
      | .tree => treeFold (x.p i) get at_ (x.p i) 0
      | .ring => ringFold (directed part (x.ringOrder i (x.holdBase ks owner i + tail))) o get at_
      | .ring2 => ring2Fold part o get at_

/-- The parts of a piece at each stage. -/
def pieceParts (x : Lay) (ks : List Scheme) (n c : Nat) (p : Piece) : List Nat :=
  let (g0, gc) := chunkGrains (grains n) x.m c
  ks.map fun k => partOf k.parts gc (p.grain - g0)

/-- The tree of combinations of a piece of chunk `c` (05 R206) (in part DEDUCED, log entry 19). -/
def Lay.pieceTree (x : Lay) (ks : List Scheme) (n c : Nat) (p : Piece) : Option RTree :=
  x.tree ks (pieceParts x ks n c p) (x.owner c) x.counts.length 0

/-- Values that a position passes to another: the stage index, the receiver, and the tree of the value. -/
def RTree.outs (me : Nat) : RTree → List (Nat × Nat × RTree)
  | .leaf _ => []
  | .node si p l r =>
    (if p != me && l.loc == me then [(si, p, l)] else []) ++ (if p != me && r.loc == me then [(si, p, r)] else []) ++
      l.outs me ++ r.outs me
  | .move si p t => (if p != me && t.loc == me then [(si, p, t)] else []) ++ t.outs me

/-- Positions from which a position receives in a tree, with the stage index. -/
def RTree.ins (me : Nat) : RTree → List (Nat × Nat)
  | .leaf _ => []
  | .node si p l r =>
    (if p == me && l.loc != me then [(si, l.loc)] else []) ++ (if p == me && r.loc != me then [(si, r.loc)] else []) ++
      l.ins me ++ r.ins me
  | .move si p t => (if p == me && t.loc != me then [(si, t.loc)] else []) ++ t.ins me

/-! ### Distribution (05 R203, R205) -/

/-- An edge of a distribution: stage index, sender, receiver. -/
structure Edge where
  si : Nat
  src : Nat
  dst : Nat
  deriving DecidableEq, Repr

/-- Where each virtual position's copy stands: an absent position's copy stays with the position that would have sent
it. -/
abbrev Holders := List (Nat × Nat)

/-- Pass a copy from virtual position `a` to virtual position `b`. -/
def Lay.pass (x : Lay) (si : Nat) (h : Holders × List Edge) (a b : Nat) : Holders × List Edge :=
  match h.1.lookup b, h.1.lookup a with
  | none, some la =>
    if x.present b && b != la then ((b, b) :: h.1, h.2 ++ [⟨si, la, b⟩]) else ((b, if x.present b then b else la) :: h.1, h.2)
  | _, _ => h

/-- Pass a copy along a list of virtual positions. -/
def Lay.chain (x : Lay) (si : Nat) (h : Holders × List Edge) : Nat → List Nat → Holders × List Edge
  | _, [] => h
  | a, b :: rest => x.chain si (x.pass si h a b) b rest

/-- The all-gather steps of halving, from the lowest bit up (05 R205). -/
def Lay.doubling (x : Lay) (si : Nat) (pos : Nat → Nat) (p2 : Nat) (h : Holders × List Edge) (b : Nat) :
    Holders × List Edge :=
  ((List.range p2).filter fun j => (h.1.lookup (pos j)).isSome).foldl
    (fun h j => x.pass si h (pos j) (pos (Nat.xor j (2 ^ b)))) h

/-- Spread a copy held at slot `o` of a stage over the stage's slots, by the scheme (05 R205); `base` is the domain's
position with slot 0. The two-dimensional ring runs the phases of its reduction in reverse, for an ALLGATHER as for the downward phase
(DESIGN CHOICE, log entry 19). -/
def Lay.spread (x : Lay) (k : Scheme) (part i base o : Nat) (h : Holders × List Edge) : Holders × List Edge :=
  let pos (j : Nat) : Nat := base + j * x.stride i
  let p := x.p i
  match k with
  | .ring => x.chain i h (pos o) (((turnAfter (directed part (x.ringOrder i base)) o).map pos))
  | .ring2 =>
    let ord := directed part foldOrder
    let (r, c) := (o / 8, o % 8)
    if part < 2 then
      let h := x.chain i h (pos o) ((turnAfter ord r).map fun y => pos (8 * y + c))
      (List.range 8).foldl (fun h y => x.chain i h (pos (8 * y + c)) ((turnAfter ord c).map fun z => pos (8 * y + z))) h
    else
      let h := x.chain i h (pos o) ((turnAfter ord c).map fun z => pos (8 * r + z))
      (List.range 8).foldl (fun h z => x.chain i h (pos (8 * r + z)) ((turnAfter ord r).map fun y => pos (8 * y + z))) h
  | .halving =>
    let n := log2Slots p
    let eff := if o < 2 ^ n then o else o - 2 ^ n
    let h := if o = eff then h else x.pass i h (pos o) (pos eff)
    let h := (List.range n).foldl (x.doubling i pos (2 ^ n)) h
    ((List.range (2 ^ n)).filter (· + 2 ^ n < p)).foldl (fun h j => x.pass i h (pos j) (pos (j + 2 ^ n))) h
  | .tree => (List.range p).foldl (fun h j => if j = 0 then h
      else x.pass i h (pos ((o + (j - 1) / 4) % p)) (pos ((o + j) % p))) h

/-- One stage of a distribution: every virtual position that holds a copy spreads it over its slots at the stage. -/
def Lay.spreadStage (x : Lay) (k : Scheme) (part i : Nat) (h : Holders × List Edge) : Holders × List Edge :=
  h.1.foldl (fun acc (v, _) =>
    x.spread k part i (v - x.digit v i * x.stride i) (x.digit v i) acc) h

/-- The edges of the downward phase of a piece: from the holder of the final value through the stages from the top down
(05 R203). -/
def Lay.downEdges (x : Lay) (ks : List Scheme) (parts : List Nat) (owner loc : Nat) : List Edge :=
  let k := x.counts.length
  ((List.range k).reverse.foldl (fun h i => x.spreadStage ((ks[i]?).getD .halving) ((parts[i]?).getD 0) i h)
    ([(x.holdBase ks owner k, loc)], [])).2

/-- The edges of REDUCE_SCATTER after its reductions: at each tree stage, from the top down, the root sends the owner's
slot its chunk (05 R203). -/
def Lay.scatterEdges (x : Lay) (ks : List Scheme) (owner loc : Nat) : List Edge :=
  let k := x.counts.length
  ((List.range k).reverse.foldl (fun (st : (Nat × Nat) × List Edge) i =>
    if (ks[i]?).getD .halving == .tree then
      let v := x.withDigit st.1.1 i (x.digit owner i)
      let l := if x.present v then v else st.1.2
      ((v, l), if l == st.1.2 then st.2 else st.2 ++ [⟨i, st.1.2, l⟩])
    else st) ((x.holdBase ks owner k, loc), [])).2

/-- The edges of a block of ALLGATHER: from its position through the stages from the bottom up (05 R203). -/
def Lay.gatherEdges (x : Lay) (ks : List Scheme) (parts : List Nat) (p : Nat) : List Edge :=
  ((List.range x.counts.length).foldl
    (fun h i => x.spreadStage ((ks[i]?).getD .halving) ((parts[i]?).getD 0) i h) ([(p, p)], [])).2

/-- One stage of BROADCAST (05 R203): a SMALL stage uses the tree rooted at the holder; a LARGE stage sends the piece to
the slot `t` that takes this share of the data, and spreads it from there. The tree rooted at a holder, as that of a block of an
ALLGATHER, takes the slots in cyclic order from it (DESIGN CHOICE, log entry 19). -/
def Lay.castStage (x : Lay) (k : Scheme) (t part i : Nat) (h : Holders × List Edge) : Holders × List Edge :=
  h.1.foldl (fun acc (v, _) =>
    let base := v - x.digit v i * x.stride i
    if k.isRing then x.spread k part i base t (x.pass i acc v (base + t * x.stride i))
    else x.spread .tree part i base (x.digit v i) acc) h

/-- The slot and the part of a grain at a LARGE stage of BROADCAST: the data is cut over the stage's slots as R186 cuts a
vector. -/
def castShare (k : Scheme) (p g grain : Nat) : Nat × Nat :=
  if k.isRing then
    match (List.range p).find? fun c => let (g0, gc) := chunkGrains g p c; g0 ≤ grain && grain < g0 + gc with
    | some c => let (g0, gc) := chunkGrains g p c; (c, partOf k.parts gc (grain - g0))
    | none => (0, 0)
  else (0, 0)

/-- The parcels of a BROADCAST (05 R203; 10 R375). -/
def castPieces (x : Lay) (ks : List Scheme) (n mx : Nat) : List Piece :=
  let g := grains n
  cutFrom (fun a => (ks.zipIdx.map fun (k, i) => let (c, p) := castShare k (x.p i) g a; 4 * c + p)) (max 1 mx) g 0 []

/-- The edges of a piece of a BROADCAST (05 R203). -/
def Lay.castEdges (x : Lay) (ks : List Scheme) (n root : Nat) (p : Piece) : List Edge :=
  ((List.range x.counts.length).reverse.foldl (fun h i =>
    let k := (ks[i]?).getD .halving
    let (t, part) := castShare k (x.p i) (grains n) p.grain
    x.castStage k t part i h) ([(root, root)], [])).2

end Sys2Proof.Machine
end

