-- ==== Sys2Proof/Machine/Parcels.lean ====
section
/-! DEFINITION. Parcels (10 R375-R389): guard levels, header bytes and CRC, payloads, sending and keeping; and what an
entry still has outstanding of its operands and results (04 R165, R181). -/

namespace Sys2Proof.Machine

/-! ### Guard levels (10 R385, R386) -/

/-- The guard level of stage `st` of a group; 0 in low-water service. -/
def State.levelAt (s : State) (g st : Nat) : Nat :=
  if !(s.group g).full then 0
  else
    let x := (s.image.guards[(s.gr g).guardSet]?).getD {}
    match st with
    | 1 => x.l1
    | 2 => x.l2
    | 3 => x.l3
    | 4 => x.l4
    | _ => 0

/-- The digest latch is on when any stage of the group is at level 3. -/
def State.digestOn (s : State) (g : Nat) : Bool := (enabled (s.gr g).stageMask).any fun st => s.levelAt g st == 3

/-- DIGEST_D of the group's guard set. -/
def State.digestD (s : State) (g : Nat) : Nat := ((s.image.guards[(s.gr g).guardSet]?).getD {}).digestD

/-- The level of the group's highest enabled stage: that of the owner's rounding and of the refiner (10 R386). -/
def State.topLevel (s : State) (g : Nat) : Nat :=
  ((enabled (s.gr g).stageMask).getLast?.map (s.levelAt g)).getD 0

/-! ### The pumps of a formation (01 R38-R40; 10 R383, R391) -/

/-- The pump of an allocation after a pump, taken cyclically. -/
def nextPump (ps : List Nat) (p : Nat) : Nat := (ps.find? (p < ·)).getD (ps.headD p)

/-- The pump that forms a parcel: the group's pumps take its parcels in turn (DESIGN CHOICE, log entry 18). -/
def State.railA (s : State) (g chunk idx : Nat) : Nat :=
  let ps := s.groupPumps g
  (ps[(chunk + idx) % max 1 ps.length]?).getD 0

/-- The second rail of a dual-rail formation, as a pump and a rotation of its lanes (10 R383). -/
def State.railB (s : State) (g p : Nat) : Nat × Nat :=
  let ps := s.groupPumps g
  if ps.length ≤ 1 then (p, 1) else (nextPump ps p, 0)

/-- Where a dual-rail repair runs the work a third time (01 R39; 10 R391). -/
def State.railC (s : State) (p : Nat) : Nat × Nat :=
  if s.warden.spareIn.isSome || s.warden.fenced.contains 16 then (p, 2) else (16, 0)

/-- A refiner lane's work, and the second rail of it, pass to the next unfenced lane (10 R384; 11 R427). -/
def State.laneFrom (s : State) (l : Nat) : Nat :=
  (((List.range 96).map fun k => (l + k) % 96).find? fun k => !(s.warden.lanes.contains k)).getD l
def State.laneB (s : State) (l : Nat) : Nat :=
  let b := (l + 48) % 96
  if s.warden.lanes.contains b then s.laneFrom ((b + 1) % 96) else b

/-! ### Headers and payloads (10 R376, R379) -/

/-- Header bytes 0x00 to 0x13. -/
def hdrBytes (h : PHdr) : List Byte :=
  leBytes 2 (h.group + at_ h.stage 12) ++ leBytes 1 (h.format + at_ h.kind 4) ++
  leBytes 1 (b1 h.skew + 2 * b1 h.poison + 4 * b1 h.rail + 8 * b1 h.last + 16 * b1 h.touch) ++
  leBytes 4 h.step ++ leBytes 2 h.entry ++ leBytes 1 (b1 h.retry + at_ h.run 4) ++ leBytes 1 0 ++
  leBytes 4 h.chunk ++ leBytes 4 (h.index + at_ (h.count - 1) 20)

/-- The CRC of a parcel (10 R379). -/
def parcelCrc (h : PHdr) (payload : List Byte) : Nat := crc32c (hdrBytes h ++ payload)

/-- The bits of a list, eight to a byte, the first lowest. -/
def packBits (bs : List Bool) : List Byte :=
  (List.range (cdiv bs.length 8)).map fun i =>
    BitVec.ofNat 8 (((bs.drop (8 * i)).take 8).zipIdx.map fun (b, k) => at_ (b1 b) k).sum

/-- Element size in a parcel: bytes for the pre-pass, 8 B words for a DIGEST comparison. -/
def parcelElem (kind fmt : Nat) : Nat := if kind == 3 then 1 else if kind == 5 then 8 else elemSize fmt

/-- The payload of a vector (10 R375): elements, then scale bytes, then touch bits. -/
def packPV (kind fmt : Nat) (p : PV) : List Byte :=
  p.els.flatMap (leBytes (parcelElem kind fmt)) ++ p.scales.map (BitVec.ofNat 8) ++ packBits p.touch

/-- The vector of a payload of `count` elements with scale blocks of `b`; what follows them with TOUCH is touch bits. -/
def unpackPV (kind fmt count b : Nat) (touch : Bool) (bs : List Byte) : PV :=
  let sz := parcelElem kind fmt
  let nsc := if isBlockFmt fmt && kind != 3 && kind != 5 then cdiv count b else 0
  let tail := bs.drop (sz * count + nsc)
  { els := (List.range count).map fun i => field bs (sz * i) sz
    scales := (List.range nsc).map fun i => field bs (sz * count + i) 1
    touch := if touch then (List.range (8 * tail.length)).map fun i => bit (field tail (i / 8) 1) (i % 8) else [] }

/-- The part of a vector from element `lo` with `n` elements, scale blocks of `b` and touch rows of `w`. -/
def slicePV (p : PV) (b w lo n : Nat) : PV :=
  { els := (p.els.drop lo).take n
    scales := if p.scales.isEmpty then [] else (p.scales.drop (lo / max 1 b)).take (cdiv n b)
    touch := if p.touch.isEmpty then [] else (p.touch.drop (lo / max 1 w)).take (n / max 1 w)
    bare := bareMarks ((p.bare.drop lo).take n) }

/-- Two neighbouring vectors as one. -/
def appendPV (p q : PV) : PV :=
  { els := p.els ++ q.els, scales := p.scales ++ q.scales, touch := p.touch ++ q.touch
    bare := if p.bare.isEmpty && q.bare.isEmpty then []
      else ((List.range p.els.length).map fun k => !p.has k) ++ ((List.range q.els.length).map fun k => !q.has k) }

/-! ### What is outstanding of an entry -/

/-- Transfers of an entry that have not returned or that a fault holds back (04 R165). -/
def State.openXfers (s : State) (o : Op) : List Xfer :=
  s.entryXfers o.q o.c ++ (match o.pause with
    | some p => p.faulted
    | none => [])

/-- Whether a byte range of a region of an entry is still on its way. -/
def State.rangeBusy (s : State) (o : Op) (r : Region) (off len : Nat) : Bool :=
  (s.openXfers o).any fun x => match x.pur with
    | .payload _ _ r' o' => r' == r && rangesMeetAt off len o' x.len
    | _ => false
where
  rangesMeetAt (a n b m : Nat) : Bool := 0 < n && 0 < m && a < b + m && b < a + n

/-- The end of the part from `pos` on that ranges cover without a gap, in `fuel` extensions. -/
def ackedPrefix (rs : List (Nat × Nat)) : Nat → Nat → Nat
  | 0, pos => pos
  | fuel + 1, pos => match rs.find? fun r => r.1 ≤ pos && pos < r.1 + r.2 with
    | some r => ackedPrefix rs fuel (r.1 + r.2)
    | none => pos

/-- Whether bytes of the input have been asked for (04 R152). -/
def Op.hasAsked (o : Op) (off len : Nat) : Bool := o.whole || off + len ≤ ackedPrefix o.asked o.asked.length off

/-- Whether bytes of the input are staged: the pair is held and no window is being looked through, their reads have been
asked for, and none of the range is on its way (04 R150, R152; 10 R404). -/
def State.inputHere (s : State) (o : Op) (off len : Nat) : Bool :=
  o.pair == .held && o.probeAt.isNone && o.hasAsked off len && !(s.rangeBusy o .src off len) && !(s.rangeBusy o .window off len)

/-- Whether any write of results to a range is still on its way. -/
def State.resultBusy (s : State) (o : Op) (off len : Nat) : Bool :=
  (s.openXfers o).any fun x => match x.pur with
    | .result _ _ o' => off < o' + x.len && o' < off + len
    | _ => false

/-- Input bytes below which every read has returned, wherever the input is read from (04 R181); what lies between its elements and its
scales is no input, and is not read (06 R234). -/
def State.readPos (s : State) (o : Op) : Nat :=
  let asked := o.asked ++ (if isBlockFmt o.desc.inFmt then [(o.desc.n, up64 o.desc.n - o.desc.n)] else [])
  if o.pair == .held && o.probeAt.isNone then
    (s.openXfers o).foldl (fun m x => match x.pur with
      | .payload _ _ .src off | .payload _ _ .window off => min m off
      | _ => m) (if o.whole then s.inputBytes o.desc else min (s.inputBytes o.desc) (ackedPrefix asked asked.length 0))
  else 0

/-! ### Staging pairs and kept bytes (04 R150, R151, R153; 05 R215-R218; 10 R389) -/

/-- The cistern-map record of a working partition. -/
def State.partition (s : State) (p : Nat) : Option CisternRec :=
  s.image.cisterns.find? fun r => r.partition == p && r.kind == 0

/-- Staging pairs of a partition: one per bank. -/
def State.pairs (s : State) (p : Nat) : Nat := ((s.partition p).map (·.banks)).getD 0

/-- The pairs that an operation holds, by number: its staging pair, that of an UPDATE's stream, then those that hold what it keeps. -/
def Op.pairNos (o : Op) : List Nat :=
  (if o.pair == .held then [o.slot] else []) ++ (if o.stPair == .held then [o.stSlot] else []) ++ o.keeps

/-- The pairs of a partition that operations hold. -/
def State.pairsUsed (s : State) (p : Nat) : List Nat := (s.ops.filter fun o => o.partition == p).flatMap Op.pairNos
def State.pairsHeld (s : State) (p : Nat) : Nat := (s.pairsUsed p).length

/-- The lowest pair of a partition that is free. -/
def State.freePair (s : State) (p : Nat) : Option Nat :=
  if s.pairsHeld p < s.pairs p then (List.range (s.pairs p)).find? fun k => !((s.pairsUsed p).contains k) else none

/-- Bytes of a pair, of its halves and of a staged parcel (04 R150, R153). -/
def pairSize : Nat := 2 ^ 20
def halfSize : Nat := 2 ^ 19
def stagedSize : Nat := 4096

/-- Where staged parcel `k` of pair `n` of a partition lies: parcels are interleaved over its banks, one 4 KiB parcel per bank in
turn; the bank and the first word of 32 bits in it (04 R153; 01 R34) (in part DEDUCED, log entry 17). -/
def CisternRec.place (r : CisternRec) (n k : Nat) : Nat × Nat :=
  let i := n * (pairSize / stagedSize) + k % (pairSize / stagedSize)
  (r.baseBank + i % max 1 r.banks, i / max 1 r.banks * (stagedSize / 4))

/-- The pair and the parcel in it that a word of a bank belongs to. -/
def CisternRec.at_ (r : CisternRec) (bank word : Nat) : Nat × Nat :=
  let i := word / (stagedSize / 4) * max 1 r.banks + (bank - r.baseBank)
  (i / (pairSize / stagedSize), i % (pairSize / stagedSize))

/-- The operation whose pair holds a word of a bank (04 R150, R153). -/
def State.stagedAt (s : State) (bank word : Nat) : Option Op :=
  match s.image.cisterns.find? fun r => r.kind == 0 && r.baseBank ≤ bank && bank < r.baseBank + r.banks with
  | none => none
  | some r => s.ops.find? fun o => o.partition == r.partition && o.pairNos.contains (r.at_ bank word).1

/-- What a word of a working partition belongs to: an operation, or a parcel that came before its entry. -/
inductive WordOwner where
  | op (o : Op)
  | parcel (p : Parcel)
  deriving DecidableEq, Repr

/-- The parcels that wait in a partition, in the order in which they lie over its free pairs: the bytes of each paused entry that
some have come for, then each parcel that came before its entry, group by group (01 R34; 04 R170) (in part DEDUCED, log entry 17). -/
def State.waiting (s : State) (p : Nat) : List (WordOwner × Nat) :=
  ((s.ops.filter fun o => o.partition == p && o.waitBytes != 0).map fun o => (.op o, o.waitBytes)) ++
  (s.groups.filter fun x => x.2.gr.valid && x.2.gr.partition == p).flatMap fun x =>
    x.2.early.map fun y => (.parcel y, y.payload.length)

/-- What waits at a byte of the free pairs of a partition. -/
def waitingAt : List (WordOwner × Nat) → Nat → Option WordOwner
  | [], _ => none
  | (y, n) :: rest, pos => if pos < n then some y else waitingAt rest (pos - n)

/-- What a word of a working partition belongs to: the operation that holds its pair, or a parcel that waits there (01 R34; 04 R150,
R153, R170). -/
def State.wordOwner (s : State) (bank word : Nat) : Option WordOwner :=
  match s.stagedAt bank word with
  | some o => some (.op o)
  | none => match s.image.cisterns.find? fun r => r.kind == 0 && r.baseBank ≤ bank && bank < r.baseBank + r.banks with
    | none => none
    | some r =>
      let (pair, k) := r.at_ bank word
      let free := (List.range (s.pairs r.partition)).filter fun j => !((s.pairsUsed r.partition).contains j)
      match free.findIdx? (· == pair) with
      | none => none
      | some j => waitingAt (s.waiting r.partition) (j * pairSize + k * stagedSize + 4 * (word % (stagedSize / 4)))

/-- The parcels that an operation keeps, one of a fan-out once (05 R215). -/
def Op.keptOnce (o : Op) : List Kept :=
  o.kept.foldl (fun l k => if k.fan != 0 && l.any (fun y => y.fan == k.fan && y.p == k.p) then l else l ++ [k]) []

/-- Bytes of the parcels and operands that an operation keeps (10 R389). -/
def Op.keptBytes (o : Op) : Nat := (o.keptOnce.map fun k => k.p.payload.length + k.operands).sum

/-- Whether an operation must have another pair before it keeps `n` bytes more: they occupy its staging pair, then further ones
(05 R218; 10 R389). -/
def Op.needsPair (o : Op) (n : Nat) : Bool := (b1 (o.pair == .held) + o.keeps.length) * pairSize < o.keptBytes + n

/-- Give up the further pairs that what is kept no longer fills. -/
def Op.trimKeeps (o : Op) : Op :=
  { o with keeps := o.keeps.take (cdiv o.keptBytes pairSize - b1 (o.pair == .held)), wants := false }

/-- Parcels that arrive for paused operations wait in their partition: whether there is room for `n` bytes more (04 R170)
(in part DEDUCED, log entry 17). -/
def State.roomFor (s : State) (o : Op) (n : Nat) : Bool :=
  let wait := ((s.waiting o.partition).map (·.2)).sum
  wait + n ≤ (s.pairs o.partition - s.pairsHeld o.partition) * pairSize

/-! ### Lag (05 R215-R217) -/

/-- The lag of a receiver: every receiver is sent each parcel at once, so it is the bytes it has not acknowledged
(in part DEDUCED, log entry 26). -/
def Op.lagOf (o : Op) (die : Nat) : Nat :=
  ((o.kept.filter fun k => k.dest == die && k.fan != 0).map fun k => k.p.payload.length).sum

/-- The lag allowance of a group in bytes (05 R216). -/
def State.lagAllowance (s : State) (g : Nat) : Nat := (s.gr g).lagKib * 1024

/-- Follow the lags of an operation after it has sent or a receiver has acknowledged: who is at the allowance, and the
record of the first (05 R216, R217) (in part DEDUCED, log entry 26). -/
def noteLag (s : State) (q c : Nat) : State :=
  match s.op? q c with
  | none => s
  | some o =>
    let g := o.desc.group
    let top := s.lagAllowance g
    let still := o.paced.filter fun d => top / 2 < o.lagOf d
    let new := (((o.kept.filter fun k => k.fan != 0).map fun k => (k.dest, k.fan)).eraseDups).filter fun (d, _) =>
      !(still.contains d) && 0 < o.lagOf d && top ≤ o.lagOf d
    let s := s.updOp q c fun o => { o with paced := still ++ (new.map (·.1)).eraseDups }
    match new with
    | [] => s
    | (d, st) :: _ => if o.lag then s else
      (s.updOp q c fun o => { o with lag := true }).updGroup g fun x => { x with lag := true, lagDie := d, lagStage := st }

/-! ### Sending (10 R389) -/

/-- The header of a parcel of a group-wide entry (10 R376), its CRC left to `sendParcel`. -/
def headerOf (o : Op) (stage kind fmt chunk idx n : Nat) (last : Bool) : PHdr :=
  { group := o.desc.group, stage, format := fmt, kind, skew := false, poison := false, rail := false, last
    touch := false, step := o.step, entry := o.num % 65536, retry := false, run := o.run, chunk, index := idx, count := n
    crc := 0, residue := 0 }

/-- A received header as a parcel goes on with some of its fields changed: the CRC it came with, altered by just what the fields
alter, so that a change of the payload since then still shows at the next point (10 R379). The manual has a forward keep its CRC,
which cannot stand where RETRY, STAGE or a ROTATE's CHUNK changes, since the CRC covers them (R376, R377) (DESIGN CHOICE, log
entry 23). -/
def rewrite (old new : PHdr) (payload : List Byte) : PHdr :=
  { new with crc := Nat.xor old.crc (Nat.xor (parcelCrc old payload) (parcelCrc new payload)) }

/-- Send a parcel of an entry and keep it until it is acknowledged (10 R389). -/
def sendParcel (s : State) (q c : Nat) (k : Kept) : State :=
  sendTo (s.updOp q c fun o => { o with kept := o.kept ++ [k], sentParcel := true }) k.dest (.parcel k.p)

/-- The vector that a parcel carries, under the formats of its entry. -/
def State.parcelPV (s : State) (o : Op) (p : Parcel) : PV :=
  let b := scaleRun (s.blockOf o.desc).1 (if p.h.kind == 4 && p.h.touch then o.desc.aux32 else 0)
  { unpackPV p.h.kind p.h.format p.h.count b p.h.touch p.payload with bare := p.bare }

/-- Write bytes of an entry's result at an offset from DST (04 R143): class 1 WRITE, 2 REMOTE. -/
def writeResult (s : State) (o : Op) (cls off : Nat) (bs : List Byte) : State :=
  if bs.isEmpty then s
  else
    let s := s.updOp o.q o.c fun o => { o with digest :=
      if o.desc.opcode == opUpdate || o.desc.opcode == opAllgather || (s.twin.paired && s.twin.queue == o.q) then bufWrite o.digest off bs else o.digest }
    enqueueWrite s cls o.q (o.desc.dst + off) bs siphonOf (fun k => .result o.q o.c (off + k))

end Sys2Proof.Machine
end

