-- ==== Sys2Proof/Machine/Reduce.lean ====
section
/-! DEFINITION. The value of a piece of a reduction at this member (05 R206-R208; 06 R251-R263; 09 R364; 10 R380, R381):
its own contribution, the parcels it has received, and the combinations that the plan places on it. -/

namespace Sys2Proof.Machine

/-- A value on its way up: the vector, its place in the order of arrival (0 for this member's own), the residue its
header carries, the first foreign step value that fed it (07 R298), and the events of forming it here. -/
structure Part where
  pv : PV
  stamp : Nat := 0
  residue : Nat := 0
  step : Option (Nat × Nat) := none
  ev : Events := {}
  deriving DecidableEq, Repr

/-- What the evaluation of one piece needs: this member's position, its contribution, the parcels received (by the
sender's position), the combination, whether the entry is of V class, and which stages run a tree. -/
structure EvalCx where
  me : Nat
  own : Option Part
  rx : Nat → Option Part
  comb : PV → PV → PV × Events
  v : Bool
  isTree : Nat → Bool

/-- The earlier of two foreign steps, by arrival. -/
def firstStep (a b : Option (Nat × Nat)) : Option (Nat × Nat) :=
  match a, b with
  | none, b => b
  | a, none => a
  | some a, some b => some (if b.1 < a.1 then b else a)

/-- Combine two values. -/
def EvalCx.join (cx : EvalCx) (a b : Part) : Part :=
  let (pv, ev) := cx.comb a.pv b.pv
  { pv, stamp := max a.stamp b.stamp, residue := (a.residue + b.residue) % residueP, step := firstStep a.step b.step
    ev := (a.ev.add b.ev).add ev }

/-- Combine the operands of one combining point: in plan order, or, in a tree of a V-class entry, the first and then the
others in order of arrival (09 R364). -/
def EvalCx.fuse (cx : EvalCx) (xs : List Part) : Part :=
  match xs with
  | [] => { pv := {} }
  | x :: rest =>
    (if cx.v then sortBy (fun a b => decide (a.stamp ≤ b.stamp)) rest else rest).foldl cx.join x

/-- Whether a tree is a combination at the same point. -/
def RTree.samePoint (si pos : Nat) : RTree → Bool
  | .node a b _ _ => a == si && b == pos
  | _ => false

/-- The operands that this member holds for the point at the root of a tree; none until all have arrived. -/
def EvalCx.operands (cx : EvalCx) : RTree → Option (List Part)
  | .leaf p => (if p == cx.me then cx.own else cx.rx p).map fun x => [x]
  | .node si p l r =>
    if p == cx.me then
      let ls := (cx.operands l).map fun xs => if cx.v && cx.isTree si && l.samePoint si p then xs else [cx.fuse xs]
      match ls, cx.operands r with
      | some xs, some ys => some (xs ++ [cx.fuse ys])
      | _, _ => none
    else (cx.rx p).map fun x => [x]
  | .move _ p t =>
    if p == cx.me then (cx.operands t).map fun xs => [cx.fuse xs] else (cx.rx p).map fun x => [x]

/-- The value of a tree at this member. -/
def EvalCx.eval (cx : EvalCx) (t : RTree) : Option Part := (cx.operands t).map cx.fuse

/-! ### The reductions of an entry -/

/-- Which reduction of an entry runs: the pre-pass of an order-free entry, its main reduction, or a DIGEST. -/
inductive Red where
  | pre
  | main
  | digest
  deriving DecidableEq, Repr

/-- The KIND of an upward parcel (10 R377). -/
def Red.kind : Red → Nat
  | .pre => 3
  | .main => 0
  | .digest => 5

/-- The geometry, element count and formats of a reduction of an entry, with the schemes of the stages for each chunk and those of
the portion that this member carries. -/
structure RedCx where
  red : Red
  lay : Lay
  ks : Nat → List Scheme
  mine : List Scheme
  n : Nat
  num : NumCtx
  touchW : Nat
  mx : Nat

/-- Whether an entry's row is an embedding row: its width then, else 0 (07 R295). -/
def State.touchWidth (s : State) (o : Op) : Nat :=
  if o.desc.opcode == opUpdate && (s.rowOf o.desc.group).embedding then o.desc.aux32 else 0

/-- Elements of chunk `c` of a vector of `n` elements (05 R186). -/
def Lay.chunkLen (x : Lay) (n c : Nat) : Nat :=
  let (g0, gc) := chunkGrains (grains n) x.m c
  min n (128 * (g0 + gc)) - min n (128 * g0)

/-- The bytes of `n` elements of a format as they enter a stage, scales among them (05 R202; 06 R234). -/
def stageBytes (code b n : Nat) : Nat := n * elemSize code + (if isBlockFmt code then cdiv n b else 0)

/-- The context of a reduction (05 R202, R207; 10 R407). -/
def State.redCx (s : State) (o : Op) (red : Red) : RedCx :=
  let lay := s.lay o.desc.group
  let d := o.desc
  let num := s.numCtx d
  let up (bytes : Nat → Nat) : Nat → List Scheme := schemesUp s.image lay bytes
  match red with
  | .pre =>
    let ks := up fun c => cdiv (lay.chunkLen d.n c) 32
    { red, lay, n := d.n, num, touchW := 0, mx := prepassGrains, ks := fun c => ks (lay.owner c), mine := ks lay.own }
  | .main =>
    let ks := up fun c => stageBytes num.acc num.b (lay.chunkLen d.n c)
    { red, lay, n := d.n, num, touchW := s.touchWidth o, mx := parcelGrains num.acc num.b (s.touchWidth o)
      ks := fun c => ks (lay.owner c), mine := ks lay.own }
  | .digest =>
    let ks := lay.stages.map fun st =>
      if ((s.image.stages.find? fun r => r.stage == st).getD {}).small == 1 then Scheme.tree else .halving
    { red, lay, n := 2, num, touchW := 0, mx := 1, ks := fun _ => ks, mine := ks }

/-- Elements of a piece as the reduction counts them: pre-pass bytes stand for 32 elements each. -/
def RedCx.span (x : RedCx) (p : Piece) : Nat × Nat :=
  let (i0, n) := p.elems x.n
  if x.red == .pre then (i0 / 32, cdiv n 32) else (i0, n)

/-- The parcels of chunk `c`. -/
def RedCx.pieces (x : RedCx) (c : Nat) : List Piece := chunkPieces x.lay (x.ks c) x.n x.mx c

/-- The parts of a piece of chunk `c` at each stage. -/
def RedCx.parts (x : RedCx) (c : Nat) (p : Piece) : List Nat := pieceParts x.lay (x.ks c) x.n c p

/-- The tree of a piece; in an UPDATE the root of a tree stage passes the sum on to the chunk's owner (07 R289, R291). -/
def RedCx.tree (x : RedCx) (toOwner : Bool) (c : Nat) (p : Piece) : Option RTree :=
  let t := x.lay.pieceTree (x.ks c) x.n c p
  if toOwner then
    let owner := x.lay.owner c
    (List.range x.lay.counts.length).reverse.foldl (fun t i =>
      t.map fun t =>
        let v := x.lay.withDigit t.loc i (x.lay.digit owner i)
        if ((x.ks c)[i]?).getD .halving == .tree && v != t.loc && x.lay.present v then .move i v t else t) t
  else t

/-- Whether an entry has a mask (05 R190). -/
def Desc.masked (d : Desc) : Bool := (d.opcode == opAllreduce || d.opcode == opReduceScatter) && d.aux64 != 0

/-- Where the mask stands among what an entry asks for: beyond every byte of an operand (04 R152). -/
def maskAt : Nat := 2 ^ 60

/-- The bytes of the mask that `n` elements from `i0` take. -/
def maskRange (i0 n : Nat) : Nat × Nat := (i0 / 8, cdiv (i0 + n) 8 - i0 / 8)

/-- Bit `i` of an operand's mask (05 R190). -/
def Op.maskBit (o : Op) (i : Nat) : Bool :=
  !o.desc.masked || bit (tabGet (fun _ => (0 : Byte)) o.maskBuf (i / 8)).toNat (i % 8)

/-- This member's contribution to elements `i0` to `i0 + n - 1`, once they and their mask are staged (06 R251; 05 R190). -/
def State.contribution (s : State) (o : Op) (x : RedCx) (i0 n : Nat) : Option Part :=
  let d := o.desc
  match x.red with
  | .digest =>
    let v := (s.group (bits d.aux16 0 12)).digest.toNat
    some { pv := { els := [v, v] } }
  | red =>
    let size := elemSize d.inFmt
    let (e0, cnt) := if red == .pre then (32 * i0, min d.n (32 * (i0 + n)) - 32 * i0) else (i0, n)
    let here := s.inputHere o (e0 * size) (cnt * size) &&
      (!isBlockFmt d.inFmt || s.inputHere o (up64 d.n + e0 / x.num.b) (cdiv cnt x.num.b)) &&
      (!d.masked || (o.hasAsked (maskAt + (maskRange e0 cnt).1) (maskRange e0 cnt).2 &&
        !(s.rangeBusy o .mask (maskRange e0 cnt).1 (maskRange e0 cnt).2)))
    if !here then none
    else
      let els := readElements o.inBuf d.inFmt x.num.b 0 d.n e0 cnt
      if red == .pre then
        let bs := els.zipIdx.map fun (e, k) => if o.maskBit (e0 + k) then prepassByte d.inFmt e.enc else 0
        some { pv := { els := (chunksOf 32 bs.length bs).map fun b => b.foldl max 0 } }
      else
        let pre := o.coll.pre.getD []
        let (pv, ev) := enterAcc x.num pre o.maskBit e0 els
        let pv := if x.touchW = 0 then pv else { pv with touch := touchBits x.num o.maskBit x.touchW e0 els }
        some { pv, ev, residue := if x.num.orderFree then payloadResidue x.num.acc pre e0 pv.els else 0 }

/-- The combination of a reduction on elements from `i0`. -/
def State.combiner (o : Op) (x : RedCx) (i0 : Nat) (p q : PV) : PV × Events :=
  match x.red with
  | .pre => ({ els := (p.els.zip q.els).map fun (a, b) => max a b }, {})
  | .digest => ({ els := [max ((p.els[0]?).getD 0) ((q.els[0]?).getD 0), min ((p.els[1]?).getD 0) ((q.els[1]?).getD 0)] }, {})
  | .main => combinePV x.num (o.coll.pre.getD []) i0 p q

/-- The parcels of a KIND received for a piece from a die, in order of arrival, with their stamps. -/
def Op.received (o : Op) (kind chunk idx die : Nat) : List (Nat × RxParcel) :=
  (o.coll.rx.zipIdx.map fun (r, k) => (k + 1, r)).filter fun (_, r) =>
    r.h.kind == kind && r.h.chunk == chunk && r.h.index == idx && r.src == die

/-- The chunk number in the headers of a reduction: 0 in a DIGEST (10 R377). -/
def RedCx.chunkNo (x : RedCx) (c : Nat) : Nat := if x.red == .digest then 0 else c

/-- A received parcel of a KIND that stands for grains of a piece of chunk `c` (07 R298). -/
def RedCx.feeds (x : RedCx) (kind c : Nat) (p : Piece) (r : RxParcel) : Bool :=
  r.h.kind == kind && r.h.chunk == x.chunkNo c && (x.pieces c).any fun y =>
    y.idx == r.h.index && y.grain < p.grain + p.grains && p.grain < y.grain + y.grains

/-- The first foreign step among the received parcels that a condition names, with its place in the order of arrival (07 R298). -/
def Op.foreignStep (o : Op) (fed : RxParcel → Bool) : Option (Nat × Nat) :=
  (o.coll.rx.zipIdx.find? fun (r, _) => fed r && r.h.step != o.step).map fun (r, k) => (k + 1, r.h.step)

/-- The context in which the trees of a piece of chunk `c` are evaluated at this member. An upward parcel of the pre-pass
or of a DIGEST, whose KIND both phases share, arrives before any downward one from the same sender. -/
def State.evalCx (s : State) (o : Op) (x : RedCx) (c : Nat) (p : Piece) : EvalCx :=
  let (i0, n) := x.span p
  { me := x.lay.own
    own := s.contribution o x i0 n
    rx := fun pos => (o.received x.red.kind (x.chunkNo c) p.idx (x.lay.die pos)).head?.map fun (k, r) =>
      { pv := r.pv, stamp := k, residue := r.h.residue, step := if r.h.step == o.step then none else some (k, r.h.step) }
    comb := fun a b => State.combiner o x i0 a b
    v := o.desc.v && !(s.twin.paired && s.twin.queue == o.q)
    isTree := fun i => ((x.ks c)[i]?).getD .halving == .tree }

/-- The pieces of every chunk, with their trees. -/
def RedCx.all (x : RedCx) (toOwner : Bool) : List (Nat × Piece × RTree) :=
  (List.range x.lay.m).flatMap fun c => (x.pieces c).filterMap fun p => (x.tree toOwner c p).map fun t => (c, p, t)

/-- Whether the entry's sums go on to the chunks' owners. -/
def Op.toOwner (o : Op) : Bool := o.desc.opcode == opUpdate

/-- The combinations that a tree places on a position, with their stages. -/
def RTree.nodesAt (me : Nat) : RTree → List (Nat × RTree)
  | .leaf _ => []
  | .node si p l r => (if p == me then [(si, .node si p l r)] else []) ++ l.nodesAt me ++ r.nodesAt me
  | .move si p t => (if p == me then [(si, .move si p t)] else []) ++ t.nodesAt me

/-- A stage of a reduction has finished on this member: every combination at it or below is made, and every value that this member
passes on there is sent (05 R204), as is so of the pre-pass once its result is here. The last way of a sum to its chunk's owner, from the
root of a tree stage (07 R289), follows all stages and holds none of them. -/
def State.upDone (s : State) (o : Op) (x : RedCx) (i : Nat) : Bool :=
  (x.red == .pre && o.coll.pre.isSome) || (x.all false).all fun (c, p, t) =>
    (((t.nodesAt x.lay.own).filter fun y => y.1 ≤ i).all fun y => ((s.evalCx o x c p).eval y.2).isSome) &&
    ((t.outs x.lay.own).filter fun y => y.1 ≤ i).all fun y =>
      o.coll.sent.contains ⟨x.red.kind, x.chunkNo c, p.idx, y.2.1, true⟩

/-- The stages that have started, in the order given: each once the one before has finished, or piece by piece between two
rings (05 R204). -/
def openStages (ring done : Nat → Bool) : List Nat → List Nat
  | [] => []
  | [a] => [a]
  | a :: b :: rest => a :: (if done a || (ring a && ring b) then openStages ring done (b :: rest) else [])

/-- Whether a stage of a reduction runs a ring on this member. -/
def RedCx.ringAt (x : RedCx) (i : Nat) : Bool := ((x.mine[i]?).getD .halving).isRing

/-- The upward stages that have started on this member; none of the main reduction before the pre-pass result
(05 R207). -/
def State.upOpen (s : State) (o : Op) (x : RedCx) : List Nat :=
  if x.red == .main && x.num.orderFree && o.coll.pre.isNone then []
  else openStages x.ringAt (s.upDone o x) (List.range x.lay.counts.length)

/-- The final value of a piece of a chunk when it is finished on this member (05 R206). -/
def State.pieceFinal (s : State) (o : Op) (x : RedCx) (c : Nat) (p : Piece) : Option Part :=
  (x.tree o.toOwner c p).bind fun t => if t.loc == x.lay.own then (s.evalCx o x c p).eval t else none

/-- The final value of a chunk when all of it is finished on this member: the pieces in order (05 R206). -/
def State.chunkFinal (s : State) (o : Op) (x : RedCx) (c : Nat) : Option Part :=
  let ps := x.pieces c
  if ps.isEmpty then none
  else
    let vs := ps.map (s.pieceFinal o x c)
    if vs.all (·.isSome) then
      some ((vs.filterMap id).foldl (fun a v =>
        { pv := appendPV a.pv v.pv, stamp := 0, residue := 0, step := firstStep a.step v.step, ev := a.ev.add v.ev })
        { pv := {} })
    else none

/-- First element and number of elements of chunk `c`. -/
def RedCx.chunkSpan (x : RedCx) (c : Nat) : Nat × Nat :=
  let (g0, gc) := chunkGrains (grains x.n) x.lay.m c
  (128 * g0, min x.n (128 * (g0 + gc)) - min x.n (128 * g0))

/-- The chunks of a group that this member owns (05 R187, R194). -/
def RedCx.owned (x : RedCx) : List Nat := (List.range x.lay.m).filter fun c => x.lay.owner c == x.lay.own

/-- Elements that this member owns below chunk `c` (05 R194; 07 R291). -/
def RedCx.ownedBelow (x : RedCx) (c : Nat) : Nat := ((x.owned.filter (· < c)).map fun k => (x.chunkSpan k).2).sum

end Sys2Proof.Machine
end

