-- ==== Sys2Proof/Machine/Twins.lean ====
section
/-! DEFINITION. Lock-step twins (09 R365-R371): the check records of what the twinned queue produces, their matching with the
partner's, divergence, and the disabling of a queue (03 R128; 08 R320). -/

namespace Sys2Proof.Machine

/-! ### Disabling a queue (03 R128; 08 R320) -/

/-- Clear ENABLE of a queue: a RUNNING queue discards its unstarted entries, its started WAITs are cancelled, and it drains. -/
def disableQueue (s : State) (q : Nat) : State :=
  if (s.queue q).state == .running then
    let s := discardUnstarted (s.updQueue q fun x => { x with enable := false }) q
    let s := endWhere (setQState s q .draining) (fun o => o.q == q && o.desc.opcode == opWait && !o.ready) fun _ => codeCancelled
    settleQueue s q
  else s.updQueue q fun x => { x with enable := false }

/-! ### Keys (09 R368, R370) -/

/-- A key as a list whose lexicographic order is that of R370: STAGE counts down in PHASE 1. -/
def keyList (k : TwinKey) : List Nat :=
  [k.k, k.phase, if k.phase == 1 then 7 - k.stage else k.stage, k.round, k.chunk, k.parcel]

/-- Lexicographic order. -/
def lexLt : List Nat → List Nat → Bool
  | [], [] => false
  | [], _ => true
  | _, [] => false
  | a :: as, b :: bs => a < b || (a == b && lexLt as bs)

/-- The distance of a slot from the slot after (or at) an owner in an order. -/
def placeAfter (order : List Nat) (o j : Nat) : Nat := ((turnAfter order o).findIdx? (· == j)).getD 0

/-- The step within a stage at which an edge is taken, counted from 0; in halving the pre-step is 0 and the steps count from 1, and in a
BROADCAST the scatter is 0 (09 R368; 05 R203, R205), as far as the key's four bits hold it (R374). `o` is the slot that a chunk's owner has at the stage, or, where
`rooted`, the slot from which a moving opcode's data spread there (in part DEDUCED, log entry 26). -/
def roundOf (x : Lay) (k : Scheme) (part o si src dst : Nat) (up rooted : Bool) : Nat :=
  let a := x.digit src si
  let b := x.digit dst si
  let fold := directed part foldOrder
  let root := if rooted then o else 0
  (if rooted && k.isRing && b == o then 0 else match k with
  | .halving =>
    let n := log2Slots (x.p si)
    if up then (if 2 ^ n ≤ a then 0 else n - (Nat.xor a b).log2)
    else if 2 ^ n ≤ b then n + 1 else (Nat.xor a b).log2 + 1
  | .tree =>
    let depth (j : Nat) : Nat := ((List.range 8).filter fun l => (4 ^ l - 1) / 3 ≤ (j + x.p si - root) % x.p si).length
    if up then depth (x.p si - 1) - depth a else depth b - 2
  | .ring =>
    let ord := directed part (x.ringOrder si (x.withDigit src si 0))
    if up then placeAfter ord o a else (placeAfter ord o a + 1) % x.p si
  | .ring2 =>
    let sameRow := a / 8 == b / 8
    let i := if sameRow then placeAfter fold (o % 8) (a % 8) else placeAfter fold (o / 8) (a / 8)
    let first := sameRow == decide (part < 2)
    if up then (if first then i else i + 7) else (if first then (i + 1) % 8 + 7 else (i + 1) % 8)) % 16

/-! ### Records (09 R368-R370) -/

/-- The queue is twinned with a partner. -/
def State.twinnedQ (s : State) (q : Nat) : Bool := s.twin.paired && s.twin.queue == q

/-- The pair index of an entry; none when it is not compared (09 R366). -/
def State.pairIndex (s : State) (q c : Nat) : Option Nat :=
  if s.twinnedQ q && diff32 c s.twin.start < 2 ^ 31 then some (diff32 c s.twin.start % 2 ^ 24) else none

/-- The hold of R369 follows the backlog. -/
def TwinSt.setHold (x : TwinSt) : TwinSt :=
  { x with held := if 8192 ≤ x.own.length then true else if x.own.length < 4096 then false else x.held }

/-- A pair of records has been matched (09 R369, R370): the first mismatch sets DIVERGED, and the lowest is remembered. -/
def twinMatch (s : State) (key : TwinKey) (own theirs : Nat) : State :=
  let s := s.updTwin fun x => { x with compared := wrap32 (x.compared + 1) }
  if own == theirs then s
  else
    let first := !s.twin.diverged
    let s := s.updTwin fun x => { x with
      diverged := true, mismatchAt := if first then some s.now else x.mismatchAt
      best := match x.best with
        | some (k, a, b) => if lexLt (keyList key) (keyList k) then some (key, own, theirs) else some (k, a, b)
        | none => some (key, own, theirs) }
    if first && s.twin.haltOnDiverge then disableQueue s s.twin.queue else s

/-- The engine forms a check record: it goes to the partner, and is matched or joins the backlog (09 R368, R369). -/
def twinNote (s : State) (key : TwinKey) (crc : Nat) : State :=
  let s := sendTo s s.twin.partner (.twinRecord [⟨key, crc⟩])
  match s.twin.theirs.find? fun r => r.key == key with
  | some r => twinMatch (s.updTwin fun x => { x with theirs := x.theirs.erase r }) key crc r.crc
  | none => s.updTwin fun x => TwinSt.setHold { x with
      own := x.own ++ [TwinRec.mk key crc], lastAt := if x.own.isEmpty then s.now else x.lastAt }

/-- A record of the partner arrives (09 R369). -/
def twinTheirs (s : State) (r : TwinRec) : State :=
  match s.twin.own.find? fun y => y.key == r.key with
  | some y => twinMatch (s.updTwin fun x => TwinSt.setHold { x with own := x.own.erase y }) r.key y.crc r.crc
  | none => s.updTwin fun x => { x with theirs := x.theirs ++ [r] }

/-- The record of a parcel that an entry of the twinned queue sends, with the CRC-32C of its payload: the header, which the CRC field of
the parcel covers too (10 R376), names the group and its step, in which sound twins may differ (09 R367, R368) (DEDUCED, log entry 30). -/
def twinParcel (s : State) (o : Op) (p : Parcel) (up : Bool) (round : Nat) : State :=
  match s.pairIndex o.q o.c with
  | some k => twinNote s ⟨k, if up then 0 else 1, p.h.stage, round, p.h.chunk, p.h.index⟩ (crc32c p.payload)
  | none => s

/-- The records of the 4 KiB pieces of a byte buffer that were written (09 R368, phases 2 and 3). -/
def twinBlocks (s : State) (o : Op) (phase : Nat) (t : Tab Byte) : State :=
  match s.pairIndex o.q o.c with
  | none => s
  | some k =>
    ((t.map fun y => y.1 / 4096).eraseDups).foldl (fun s n =>
      twinNote s ⟨k, phase, 0, 0, n % 2 ^ 18, n / 2 ^ 18⟩ (crc32c (bufRead t (4096 * n) 4096))) s

end Sys2Proof.Machine
end

