-- ==== Sys2Proof/Machine/Refiner.lean ====
section
/-! DEFINITION. The refiner (07 R274-R305): schedules and bias factors, the recurrence on blocks of elements, the state
block with its header, commit units, and embedding rows. -/

namespace Sys2Proof.Machine

/-! ### The schedule engine (07 R283) -/

/-- x to the power n, by 32 squarings (07 R283). -/
def pwFrom (x n : Nat) : Nat → Nat → Nat
  | 0, r => r
  | b + 1, r =>
    let r := mul32 r r
    pwFrom x n b (if bit n b then mul32 r x else r)

def pw (x n : Nat) : Nat := pwFrom x n 32 0x3F800000

/-- The FP32 value nearest to (-1)^j / (2j)! (07 R283). -/
def cosCoeff (j : Nat) : Nat :=
  let f := (List.range (2 * j)).foldl (fun a k => a * (k + 1)) 1
  rnd32 (Val_div (.fin (j % 2 == 1) 1 0) (.fin false f 0))

/-- 0.5 (1 + cos(pi x)) (07 R283). -/
def hc (x : Nat) : Nat :=
  let half : Nat := 0x3F000000
  let one : Nat := 0x3F800000
  let flip := lt32 half x
  let y := if flip then sub32 one x else x
  let a := mul32 0x40490FDB y
  let z := mul32 a a
  let k := [5, 4, 3, 2, 1, 0].foldl (fun acc j => add32 (mul32 acc z) (cosCoeff j)) (cosCoeff 6)
  let k := if flip then Nat.xor k (2 ^ 31) else k
  mul32 half (add32 one k)

/-- η of a schedule at a step (07 R283). -/
def etaOf (x : SchedRec) (step : Nat) : Nat :=
  let div (a b : Nat) : Nat := div32 (ofNat32 a) (ofNat32 b)
  if step < x.warmup then mul32 x.etaPeak (div (wrap32 (step + 1)) x.warmup)
  else
    let k := step - x.warmup
    let peak := if x.period != 0 then mul32 x.etaPeak (pw x.restart (k / x.period)) else x.etaPeak
    let k := if x.period != 0 then k % x.period else k
    let span := sub32 peak x.etaFloor
    match x.decay with
    | 0 => peak
    | 1 => if x.horizon ≤ k then x.etaFloor
      else add32 x.etaFloor (mul32 span (sub32 0x3F800000 (div k x.horizon)))
    | 2 => if x.horizon ≤ k then x.etaFloor else add32 x.etaFloor (mul32 span (hc (div k x.horizon)))
    | _ => let e := mul32 peak (pw x.gamma k); if lt32 x.etaFloor e then e else x.etaFloor

/-- A bias factor 1 / (1 - β^t) (07 R276, R283). -/
def biasFactor (beta t : Nat) : Nat := div32 0x3F800000 (sub32 0x3F800000 (pw beta t))

/-! ### The recurrence (07 R277, R278, R285) -/

/-- An owned element as the refiner reads it: its index in the full vector, gradient, the stored words of p, m and v, and
their values as FP32, with the events of reading the moments (06 R241, R266, R267); `kept` when its update is already in memory or is
not applied (07 R294, R299). -/
structure RefEl where
  i : Nat
  g : Rnd
  pw : Nat
  p : Nat
  mw : Nat := 0
  m : Rnd := word32 0
  vw : Nat := 0
  v : Rnd := word32 0
  kept : Bool := false
  deriving DecidableEq, Repr

/-- The parameters of an update: the latched row and factors, W19's rounding mode, the storage modes, draws, and which
moments are kept (07 R275-R279). -/
structure RefCx where
  row : RowRec
  eta : Nat
  k1 : Nat
  k2 : Nat
  mode : RMode
  storeP : RMode
  storeS : RMode
  draw : Nat → Draw
  keepM : Bool
  keepV : Bool

/-- T of the scale choice of a state format (07 R285). -/
def stateT (fmt : Nat) : Int := if fmt == 1 then 1 else 15

/-- Store values of a block in STATE_FMT: the scale byte (127 without one) and the rounded elements (07 R277, R285). -/
def storeState (x : RefCx) (us vs : List Nat) : Nat × List Rnd :=
  let vals := vs.map (decodeF fp32F)
  let sc := if x.row.blockScaled then chooseScale (stateT x.row.stateFmt) vals else 127
  (sc, (vals.zip us).map fun (v, u) => encodeSingle x.row.stateFmt false x.storeS u (Val_scale (127 - (sc : Int)) v))

/-- A stored state element as FP32: one that its scale takes beyond FP32 overflows, or becomes zero (06 R241, R265, R267). -/
def loadState (fmt sc e : Nat) : Rnd :=
  if sc == 0xFF then word32 0x7FC00000 else roundF fp32F 0 true 0 0 (Val_scale ((sc : Int) - 127) (decodeEl fmt 127 e))

/-- The new moments before they are stored (07 R277). -/
def newM (x : RefCx) (e : RefEl) : Rnd :=
  let a2 := word32 x.row.a2
  if x.keepM then grpW x.mode [(word32 x.row.a1, e.m), (a2, e.g)] else mulW x.mode a2 e.g
def newV (x : RefCx) (e : RefEl) : Rnd :=
  let gg := mulW x.mode e.g e.g
  let b2 := word32 x.row.b2
  if x.keepV then grpW x.mode [(word32 x.row.b1, e.v), (b2, gg)] else mulW x.mode b2 gg

/-- q of the new weight, from the moments as stored (07 R277). -/
def quotient (x : RefCx) (ms vs : Rnd) : Rnd :=
  if eq0 x.row.c1 then word32 0
  else
    let mh := if x.row.biasCorrect then mulW x.mode (word32 x.k1) ms else ms
    let vh := if x.row.biasCorrect then mulW x.mode (word32 x.k2) vs else vs
    let d := addR (sqrtR vh) (word32 x.row.eps)
    if eq0 d.bits then (word32 0).from [mh, d] else divR mh d

/-- The new weight from the moments as stored: q, u and p1 (07 R277). -/
def newP (x : RefCx) (e : RefEl) (ms vs : Rnd) : Rnd × Rnd × Rnd :=
  let q := quotient x ms vs
  let u := grpW x.mode [(word32 x.row.c1, q), (word32 x.row.c2, word32 e.p), (word32 x.row.c3, e.g)]
  (q, u, subR (word32 e.p) (mulW x.mode (word32 x.eta) u))

/-- An element after the refiner: the words stored, whether it was skipped, and its events. -/
structure RefOut where
  p : Nat
  m : Nat := 0
  v : Nat := 0
  skip : Bool := false
  sat : Bool := false
  flush : Bool := false
  deriving DecidableEq, Repr

/-- The stored moments of a block in which some elements keep their old values: an old value enters the scale choice (07
R278). -/
def storedMoments (x : RefCx) (els : List RefEl) (old : List Bool) : (Nat × List Rnd) × (Nat × List Rnd) :=
  let pick (f was : RefEl → Nat) : List Nat := (els.zip old).map fun (e, k) => if k then was e else f e
  (storeState x (els.map fun e => (x.draw e.i).x1.toNat) (pick (fun e => (newM x e).bits) (·.m.bits)),
   storeState x (els.map fun e => (x.draw e.i).x2.toNat) (pick (fun e => (newV x e).bits) (·.v.bits)))

/-- The moments that the weight of element `k` of a block is formed from: as stored, or as formed (07 R277). -/
def usedMoments (x : RefCx) (st : (Nat × List Rnd) × (Nat × List Rnd)) (k : Nat) (e : RefEl) : Rnd × Rnd :=
  let use (keep : Bool) (y : Nat × List Rnd) (r : Rnd) : Rnd :=
    if keep then
      let s := (y.2[k]?).getD (word32 0)
      (loadState x.row.stateFmt y.1 s.bits).from [r, s]
    else r
  (use x.keepM st.1 (newM x e), use x.keepV st.2 (newV x e))

/-- Whether an element of a block is skipped, given the block's moments as stored (07 R277). -/
def skips (x : RefCx) (st : (Nat × List Rnd) × (Nat × List Rnd)) (k : Nat) (e : RefEl) : Bool :=
  let (ms, vs) := usedMoments x st k e
  let (q, u, p1) := newP x e ms vs
  !isFin32 e.g.bits || isNan32 (newM x e).bits || isNan32 (newV x e).bits || isNan32 q.bits || isNan32 u.bits ||
    isNan32 p1.bits

/-- The elements of a block that keep their old values: the kept ones and those skipped. A skipped one changes the
scale and so may bring others in, until none is added (07 R277, R278; DEDUCED, log entry 26). -/
def oldSet (x : RefCx) (els : List RefEl) : Nat → List Bool → List Bool
  | 0, old => old
  | fuel + 1, old =>
    let st := storedMoments x els old
    let more := (els.zip old).zipIdx.map fun ((e, o), k) => o || skips x st k e
    if more == old then old else oldSet x els fuel more

/-- Refine one block: the scale bytes of m and v and the elements (07 R277, R278, R286) (in part DEDUCED, log entry 26). -/
def refineBlock (x : RefCx) (els : List RefEl) : (Nat × Nat) × List RefOut :=
  let old := oldSet x els (els.length + 1) (els.map fun e => e.kept || !isFin32 e.g.bits)
  let st := storedMoments x els old
  ((st.1.1, st.2.1), (els.zip old).zipIdx.map fun ((e, k), j) =>
    let rm := (st.1.2[j]?).getD (word32 0)
    let rv := (st.2.2[j]?).getD (word32 0)
    let scaled := x.row.blockScaled
    if k then
      -- the arithmetic that has led to a skip flushes too, the moments' stores among it; there is none where the gradient is not
      -- finite (06 R267, R268)
      let tried := !e.kept && isFin32 e.g.bits
      let (ms, vs) := usedMoments x (storedMoments x els (old.set j false)) j e
      let (_, _, p1) := newP x e ms vs
      { p := e.pw, m := if scaled then rm.bits else e.mw, v := if scaled then rv.bits else e.vw
        skip := !e.kept, sat := !e.kept
        flush := e.g.flush || (tried && (p1.flush || ms.flush || vs.flush)) ||
          (scaled && ((x.keepM && rm.flush) || (x.keepV && rv.flush))) }
    else
      let (ms, vs) := usedMoments x st j e
      let (_, _, p1) := newP x e ms vs
      let r := (encodeSingle x.row.weightFmt false x.storeP (x.draw e.i).x0.toNat (decodeF fp32F p1.bits)).from
        [p1, ms, vs]
      { p := r.bits, m := rm.bits, v := rv.bits, sat := r.sat, flush := r.flush })

/-! ### The state block (07 R291, R292) -/

/-- The layout of a member's state block: offsets from AUX64. -/
structure StLay where
  k : Nat
  wsz : Nat
  ssz : Nat
  scaled : Bool
  b : Nat
  keepM : Bool
  keepV : Bool
  w : Nat
  mAt : Nat
  vAt : Nat
  tAt : Nat
  deriving DecidableEq, Repr

/-- Elements of a commit unit (07 R293). -/
def unitSize : Nat := 16384

/-- The latched row of a group (07 R282). -/
def State.latchedRow (s : State) (g : Nat) : RowRec := (s.group g).row.getD (s.rowOf g)

/-- A group's row as the active image gives it: the layout of its state blocks changes only with a new image (07 R281). -/
def State.imageRow (s : State) (g : Nat) : RowRec := (s.image.rows[(s.gr g).refinerRow]?).getD {}

/-- The layout of the state block of an UPDATE on this member: its parts are those of the image's row, and a moment is kept when the
latched coefficient keeps it and it has a part; one without a part is formed afresh (07 R275, R281) (in part DEDUCED, log entry 26). -/
def State.stLay (s : State) (o : Op) (x : RedCx) : StLay :=
  let row := s.latchedRow o.desc.group
  let image := s.imageRow o.desc.group
  let k := (x.owned.map fun c => (x.chunkSpan c).2).sum
  let b := blockSize row.block
  let wsz := elemSize row.weightFmt
  let ssz := elemSize row.stateFmt
  let part := up64 (k * ssz) + (if row.blockScaled then up64 (cdiv k b) else 0)
  let hasM := !eq0 image.a1
  let hasV := !eq0 image.b1
  let mAt := 64 + up64 (k * wsz)
  let vAt := mAt + (if hasM then part else 0)
  { k, wsz, ssz, scaled := row.blockScaled, b, keepM := hasM && !eq0 row.a1, keepV := hasV && !eq0 row.b1
    w := if row.embedding then o.desc.aux32 else 0, mAt, vAt, tAt := vAt + (if hasV then part else 0) }

/-- The byte ranges of the state of owned elements `a` to `b - 1`: weights, and with `all` the moments with their
scales. -/
def StLay.ranges (x : StLay) (a b : Nat) (all : Bool) : List (Nat × Nat) :=
  let mom (at_ : Nat) : List (Nat × Nat) := (at_ + a * x.ssz, (b - a) * x.ssz) ::
    (if x.scaled then [(at_ + up64 (x.k * x.ssz) + a / x.b, cdiv b x.b - a / x.b)] else [])
  if b ≤ a then [] else
  (64 + a * x.wsz, (b - a) * x.wsz) ::
    (if all then (if x.keepM then mom x.mAt else []) ++ (if x.keepV then mom x.vAt else []) else [])

/-- The chunk, and the index in the full vector, of owned element `k`. -/
def RedCx.ownedIndex (x : RedCx) (k : Nat) : Nat × Nat :=
  let f := x.owned.foldl (fun (acc : Option (Nat × Nat) × Nat) c =>
    let (i0, n) := x.chunkSpan c
    match acc.1 with
    | some r => (some r, acc.2)
    | none => if k < acc.2 + n then (some (c, i0 + (k - acc.2)), acc.2) else (none, acc.2 + n)) (none, 0)
  f.1.getD (0, 0)

/-- The elements that the refiner takes at a time: owned elements `a` to `b - 1`, with the first element, in the full vector, of the
owned parcel that holds them and the parcel's final value (07 R289). -/
structure Take where
  a : Nat
  b : Nat
  first : Nat
  sum : Part

/-- The part of owned element `k`'s parcel from it to the end of its commit unit, once the parcel is final (07 R289, R293). -/
def State.takeAt (s : State) (o : Op) (x : RedCx) (k : Nat) : Option Take :=
  let (c, i) := x.ownedIndex k
  ((x.pieces c).find? fun p => let (e, n) := p.elems x.n; e ≤ i && i < e + n).bind fun p =>
    (s.pieceFinal o x c p).map fun f =>
      let (e, n) := p.elems x.n
      { a := k, b := min (k + (e + n - i)) (unitSize * (k / unitSize + 1)), first := e, sum := f }

/-- The touch bit of the row of owned element `k`, from its parcel's final value (07 R295). -/
def rowTouched (x : RedCx) (w : Nat) (t : Take) (k : Nat) : Bool :=
  w = 0 || (t.sum.pv.touch[((x.ownedIndex k).2 - t.first) / w]?).getD false

/-- Whether the update of owned element `k` is applied: at or above UPTO of a header of this step (07 R294), and not in a
chunk whose writing had not begun when a skew was seen (07 R299). -/
def applies (o : Op) (k : Nat) : Bool :=
  let u := o.upd
  !(u.hdrStep == o.step && k < u.hdrUpto) && (o.coll.skew.isNone || k < o.coll.skewFrom)

/-- Whether any of the owned elements `k` to `k + n - 1` is updated. -/
def appliesAny (o : Op) (k n : Nat) : Bool := (List.range n).any fun j => applies o (k + j)

/-- The first owned element of the chunks that begin at or after element `k` (07 R299). -/
def RedCx.chunkFrom (x : RedCx) (k : Nat) : Nat :=
  ((x.owned.map x.ownedBelow).find? (k ≤ ·)).getD (2 ^ 32)

/-- The step of the blocks in which a unit is refined: state blocks when BLOCK_SCALED, embedding rows, or runs of 128. -/
def StLay.grain (l : StLay) : Nat :=
  if l.scaled then (if l.w = 0 then l.b else min l.b l.w) else if l.w = 0 then 128 else l.w

/-- Where the blocks of what is taken begin. -/
def Take.blocks (t : Take) (l : StLay) : List Nat := (List.range (cdiv (t.b - t.a) l.grain)).map fun r => t.a + r * l.grain

/-- UPDATEs of one state block refine it one after another in the order they started, so that the later one reads the header
that the earlier one leaves (07 R294) (in part DEDUCED, log entry 26). -/
def State.blockInUse (s : State) (o : Op) : Bool :=
  (s.ops.takeWhile fun y => !(y.is o.q o.c)).any fun y =>
    y.desc.opcode == opUpdate && y.desc.aux64 == o.desc.aux64 && y.desc.length != 0 &&
      !(if y.ended.isSome then y.upd.phase == .idle
        else y.upd.headerRead && (s.stLay y (s.redCx y .main)).k ≤ unitSize * y.upd.unit)

/-- The stream of an UPDATE has its place: the pair it takes for it, or the entry's one pair in a partition that has no other (04 R150;
in part DEDUCED, log entry 17). -/
def Op.streams (o : Op) : Bool := o.pair == .held && o.stPair != .waiting

/-- Read the headers that are due and whose state block is free (in part DEDUCED, log entry 26). -/
def askHeaders (s : State) : State :=
  (s.ops.filter fun o => o.upd.headerDue && o.ended.isNone && o.streams).foldl (fun s o =>
    if s.blockInUse o then s
    else enqueueRead (s.updOp o.q o.c fun o => { o with upd := { o.upd with headerDue := false } }) o.q o.desc.aux64 64
      siphonOf fun k => .payload o.q o.c .header k) s

/-- Ask for the state of what is taken (07 R289, R290, R296): weights everywhere, moments and the row's step where an update is
applied. -/
def askState (s : State) (o : Op) (x : RedCx) (l : StLay) (t : Take) : State :=
  let (a, b) := (t.a, t.b)
  let read (s : State) (r : Nat × Nat) : State :=
    enqueueRead s o.q (o.desc.aux64 + r.1) r.2 siphonOf (fun k => .payload o.q o.c .state (r.1 + k))
  let s := s.updOp o.q o.c fun o => { o with upd := { o.upd with reading := true } }
  if l.w = 0 then
    let on := (t.blocks l).filter fun k => appliesAny o k (min l.grain (b - k))
    match on.head? with
    | none => (l.ranges a b false).foldl read s
    | some lo =>
      let hi := lo + l.grain * on.length
      (l.ranges a lo false ++ l.ranges lo (min b hi) true ++ l.ranges (min b hi) b false).foldl read s
  else
    ((List.range ((b - a) / l.w)).map fun r => a + r * l.w).foldl (fun s k =>
      if rowTouched x l.w t k then
        let on := appliesAny o k l.w
        (l.ranges k (k + l.w) on ++ (if on then [(l.tAt + 4 * (k / l.w), 4)] else [])).foldl read s
      else s) s

/-- The refiner's parameters for a row of the state block with its own step count, or for the group (07 R276, R296). -/
def State.refCx (s : State) (o : Op) (l : StLay) (t : Option Nat) : RefCx :=
  let g := s.group o.desc.group
  let row := s.latchedRow o.desc.group
  { row, eta := g.eta
    k1 := match t with
      | some t => biasFactor row.beta1 t
      | none => g.k1
    k2 := match t with
      | some t => biasFactor row.beta2 t
      | none => g.k2
    mode := s.roundFor o.desc.round o.desc.outFmt
    storeP := bits s.image.formats.round (2 * row.weightFmt) 2
    storeS := bits s.image.formats.round (2 * row.stateFmt) 2
    draw := fun i => refinerDraw o.key i (o.num % 65536) o.step (s.drawGroup o)
    keepM := l.keepM, keepV := l.keepV }

/-- The stored word of a moment of owned element `k`, and its FP32 value, from the staged state. -/
def stMoment (o : Op) (l : StLay) (row : RowRec) (at_ k : Nat) : Nat × Rnd :=
  let e := leNat (bufRead o.stBuf (at_ + k * l.ssz) l.ssz)
  let sc := if l.scaled then leNat (bufRead o.stBuf (at_ + up64 (l.k * l.ssz) + k / l.b) 1) else 127
  (e, loadState row.stateFmt sc e)

/-- One block after the refiner: where it starts, and its elements with what is written and sent. -/
structure BlockOut where
  k : Nat
  applied : Bool
  scales : Nat × Nat
  els : List (RefEl × RefOut)

/-- Owned element `k` as the refiner reads it: its gradient, one element of the parcel's sum rounded into FP32 (07 R289),
and its stored words. -/
def readEl (s : State) (o : Op) (x : RedCx) (l : StLay) (t : Take) (k : Nat) : RefEl :=
  let row := s.latchedRow o.desc.group
  let i := (x.ownedIndex k).2
  let y := gradientOf x.num (o.coll.pre.getD []) i (slicePV t.sum.pv x.num.b 1 (i - t.first) 1)
  let g : Rnd := ⟨(y.els[0]?).getD 0, !y.ev.sat.isEmpty, !y.ev.flush.isEmpty⟩
  let pw := leNat (bufRead o.stBuf (64 + k * l.wsz) l.wsz)
  let m := if l.keepM && applies o k then stMoment o l row l.mAt k else (0, word32 0)
  let v := if l.keepV && applies o k then stMoment o l row l.vAt k else (0, word32 0)
  { i, g, pw, p := rnd32 (decodeEl row.weightFmt 127 pw), mw := m.1, m := m.2, vw := v.1, v := v.2
    kept := !applies o k }

/-- The refined block of owned elements `k` to `k + n - 1` (07 R277, R294, R296, R299). -/
def formBlock (s : State) (o : Op) (x : RedCx) (l : StLay) (t : Take) (k n : Nat) : BlockOut :=
  let els := (List.range n).map fun j => readEl s o x l t (k + j)
  if appliesAny o k n then
    let t := if l.w = 0 then none else some (min 0xFFFFFFFF (leNat (bufRead o.stBuf (l.tAt + 4 * (k / l.w)) 4) + 1))
    let (sc, outs) := refineBlock (s.refCx o l t) els
    { k, applied := true, scales := sc, els := els.zip outs }
  else
    { k, applied := false, scales := (0, 0)
      els := els.map fun e => (e, { p := e.pw, sat := e.g.sat, flush := e.g.flush : RefOut }) }

/-- The blocks of what is taken whose rows are touched. -/
def formBlocks (s : State) (o : Op) (x : RedCx) (l : StLay) (t : Take) : List BlockOut :=
  (t.blocks l).filterMap fun k =>
    if rowTouched x l.w t k then some (formBlock s o x l t k (min l.grain (t.b - k))) else none

/-- What a formed block writes, at offsets of the state block: weights, moments with scales, the row's step (07 R290, R293, R296). -/
def BlockOut.writes (b : BlockOut) (o : Op) (l : StLay) : List (Nat × List Byte) :=
  let mom (at_ sc : Nat) (es : List Nat) : List (Nat × List Byte) :=
    (at_ + b.k * l.ssz, es.flatMap (leBytes l.ssz)) ::
      (if l.scaled then [(at_ + up64 (l.k * l.ssz) + b.k / l.b, leBytes 1 sc)] else [])
  (64 + b.k * l.wsz, b.els.flatMap fun e => leBytes l.wsz e.2.p) ::
    ((if l.keepM then mom l.mAt b.scales.1 (b.els.map fun e => e.2.m) else []) ++
     (if l.keepV then mom l.vAt b.scales.2 (b.els.map fun e => e.2.v) else []) ++
     (if l.w = 0 || b.k % l.w != 0 then []
      else [(l.tAt + 4 * (b.k / l.w), leBytes 4 (min 0xFFFFFFFF (leNat (bufRead o.stBuf (l.tAt + 4 * (b.k / l.w)) 4) + 1)))]))

/-- Issue a write into the state block; the record of the twin's block takes it too (09 R368 PHASE 3). -/
def putState (s : State) (o : Op) (off : Nat) (data : List Byte) (pur : Purpose) : State :=
  let s := if s.twinnedQ o.q then s.updOp o.q o.c fun o => { o with stOut := bufWrite o.stOut off data } else s
  enqueueWrite s 1 o.q (o.desc.aux64 + off) data siphonOf (fun _ => pur)

/-- The header words of a state block (07 R292). -/
def stHeader (step upto : Nat) (torn : Bool) : List Byte :=
  leBytes 4 step ++ leBytes 4 upto ++ leBytes 1 (b1 torn) ++ leBytes 55 0

/-- Write the header of the state block (07 R292, R293) (in part DEDUCED, log entry 26). -/
def writeStHeader (s : State) (o : Op) (upto : Nat) (torn : Bool) : State :=
  putState s o 0 (stHeader o.step upto torn) (.headerWrite o.q o.c o.upd.unit)

/-- Cut a list where a key changes. -/
def runsBy {α : Type} (key : α → Nat) : List α → List (List α)
  | [] => []
  | a :: l => match runsBy key l with
    | (b :: r) :: rest => if key a == key b then (a :: b :: r) :: rest else [a] :: (b :: r) :: rest
    | rest => [a] :: rest

/-- What was formed, converted into OUT_FMT: block `k` of the vector takes its scale from those of its elements that are here
(06 R233, R236; 07 R277, R278) (in part DEDUCED, log entry 26). -/
def refinedOutputs (s : State) (o : Op) (x : RedCx) (bs : List BlockOut) : List Converted :=
  let row := s.latchedRow o.desc.group
  let dr (i : Nat) : Nat := (refinerDraw o.key i (o.num % 65536) o.step (s.drawGroup o)).x3.toNat
  (runsBy (fun e => if isBlockFmt x.num.out then e.1.i / x.num.b else 0) (bs.flatMap (·.els))).map fun es =>
    let idx := es.map (·.1.i)
    let y := convertVals x.num.out x.num.b false x.num.round (fun k => dr ((idx[k]?).getD 0)) 0
      (es.map fun e => decodeFlush row.weightFmt 127 e.2.p)
    let pick (js : List Nat) : List Nat := js.map fun j => (idx[j]?).getD 0
    { y with ev := ⟨pick y.ev.sat, pick y.ev.flush⟩ }

/-- Form what is taken once its state is staged: its outputs enter the all-gather, and its writes wait for the rest of its unit, which
then waits for its turn to be written (07 R289, R293). -/
def formTake (s : State) (o : Op) (x : RedCx) (l : StLay) (t : Take) : State :=
  let bs := formBlocks s o x l t
  let outs := refinedOutputs s o x bs
  let els := bs.flatMap fun b => b.els.zipIdx.map fun (e, j) => (b.k + j, e)
  let words := outs.flatMap fun y => y.els.zipIdx.map fun (e, j) => (e, (y.scales[j / x.num.b]?).getD 0)
  let table := (els.zip words).foldl (fun t ((k, _), w) => tabSet (fun _ => (0, 0)) t k w) o.upd.out
  let ev := outs.foldl (fun a y => a.add y.ev) t.sum.ev
  let applied := bs.filter (·.applied)
  let done := applied.flatMap fun b => b.els.filter fun e => !e.1.kept
  let f := o.upd.forming
  let unit : UnitSt :=
    { writes := f.writes ++ applied.flatMap fun b => b.writes o l
      updated := f.updated + (done.filter fun e => !e.2.skip).length
      skipped := f.skipped + (done.filter fun e => e.2.skip).length }
  let whole := t.b == min l.k (unitSize * (t.a / unitSize + 1))
  s.updOp o.q o.c fun o => { o with
    satEls := o.satEls ++ ev.sat ++ (els.filter fun y => y.2.2.sat).map (·.2.1.i)
    flushEls := o.flushEls ++ ev.flush ++ (els.filter fun y => y.2.2.flush).map (·.2.1.i)
    amax := outs.foldl (fun a y => match y.amax with
      | some m => mergeAmax a m
      | none => a) o.amax
    upd := { o.upd with
      out := table, formed := t.b, reading := false
      forming := if whole then {} else unit, units := if whole then o.upd.units ++ [unit] else o.upd.units
      touched := o.upd.touched ++ (if l.w = 0 then [] else (bs.map fun b => b.k / l.w).eraseDups) } }

/-- A whole unit's writes are asked for, and its elements are counted (07 R293). A unit in which nothing is applied writes nothing. -/
def writeUnit (s : State) (o : Op) (l : StLay) (f : UnitSt) : State :=
  let a := unitSize * o.upd.unit
  let b := min l.k (a + unitSize)
  let any := !f.writes.isEmpty || (l.w != 0 && appliesAny o a (b - a))
  let s := s.updOp o.q o.c fun o => { o with upd := { o.upd with
    upto := if o.coll.skew.isNone then b else min b o.coll.skewFrom, issued := false, units := o.upd.units.drop 1
    phase := if any then .writing else .idle, unit := if any then o.upd.unit else o.upd.unit + 1 } }
  let s := { s with refiner := { s.refiner with
    updates := (s.refiner.updates + f.updated) % 2 ^ 64, skipped := (s.refiner.skipped + f.skipped) % 2 ^ 64 } }
  f.writes.foldl (fun s w => putState s o w.1 w.2 (.stateWrite o.q o.c o.upd.unit)) s

/-- Whether the unit's writes, or its header write, are still on their way. -/
def State.unitBusy (s : State) (o : Op) (header : Bool) : Bool :=
  (s.openXfers o).any fun x => match x.pur with
    | .stateWrite _ _ _ => !header
    | .headerWrite _ _ _ => header
    | _ => false

/-- The refiner takes the next owned parcel, whether an earlier unit is still being written or not: it asks for its state once it is
final and the stream has its pair, and forms it once that is here (07 R289, R293). -/
def takeNext (s : State) (o : Op) (x : RedCx) (l : StLay) : State :=
  if l.k ≤ o.upd.formed || (o.upd.reading && s.rangeBusy o .state 0 (2 ^ 63)) then s
  else match s.takeAt o x o.upd.formed with
    | some t => if o.upd.reading then formTake s o x l t else if o.streams then askState s o x l t else s
    | none => s

/-- One advance of the refiner: write a unit that is whole, then its header once its writes are acknowledged, and go on to the next;
else take the next parcel (07 R289, R293) (in part DEDUCED, log entry 26). -/
def refineStep (s : State) (o : Op) : State :=
  let x := s.redCx o .main
  let l := s.stLay o x
  let u := o.upd
  if !u.headerRead || l.k ≤ unitSize * u.unit then s
  else match u.phase, u.units with
    | .idle, f :: _ => writeUnit s o l f
    | .idle, [] => takeNext s o x l
    | .writing, _ =>
      if s.unitBusy o false then takeNext s o x l
      else writeStHeader (s.updOp o.q o.c fun o => { o with upd := { o.upd with phase := .header } }) o u.upto false
    | .header, _ =>
      if s.unitBusy o true then takeNext s o x l
      else s.updOp o.q o.c fun o => { o with upd := { o.upd with phase := .idle, unit := u.unit + 1 } }

/-- A skew has been seen: the update stops at the first owned chunk of which no write has been issued. What has been formed beyond the
units of which one has is formed again, from there on as stored weights (07 R299) (in part DEDUCED, log entry 26). -/
def stopUnbegun (s : State) (o : Op) (step : Nat) : State :=
  let x := s.redCx o .main
  let u := o.upd
  let on := u.phase != .idle && u.issued
  let begun := min (s.stLay o x).k (unitSize * (if on then u.unit + 1 else u.unit))
  let s := if on then s else s.keepWaiting fun y => !(y.pur.entry == some (o.q, o.c) && y.pur.isUnit)
  s.updOp o.q o.c fun o => { o with
    coll := { o.coll with skew := some step, skewFrom := x.chunkFrom begun }
    upd := { u with phase := if on then u.phase else .idle, formed := min u.formed begun, reading := false, forming := {}, units := [] } }

/-- The refiner's advances, until one changes nothing; then the headers that waited for it. -/
def refine (q c : Nat) : Nat → State → State
  | 0, s => askHeaders s
  | fuel + 1, s => match s.op? q c with
    | none => askHeaders s
    | some o =>
      let t := refineStep s o
      if ((t.op? q c).map (·.upd)) == some o.upd then askHeaders t else refine q c fuel t

/-- The refiner has finished every unit of the entry. -/
def State.refined (s : State) (o : Op) : Bool :=
  let x := s.redCx o .main
  o.upd.headerRead && (s.stLay o x).k ≤ unitSize * o.upd.unit

/-! ### Staged rows and schedules (07 R281, R282) -/

/-- A refiner row with a staged word. -/
def RowRec.setWord (r : RowRec) (k : Nat) (d : W64) : RowRec :=
  let lo := bits d.toNat 0 32
  let hi := bits d.toNat 32 32
  match k with
  | 0 => { r with a1 := lo, a2 := hi }
  | 1 => { r with b1 := lo, b2 := hi }
  | 2 => { r with beta1 := lo, beta2 := hi }
  | 3 => { r with eps := lo, c1 := hi }
  | 4 => { r with c2 := lo, c3 := hi }
  | _ => r

/-- A schedule with a staged word. -/
def SchedRec.setWord (r : SchedRec) (k : Nat) (d : W64) : SchedRec :=
  let lo := bits d.toNat 0 32
  let hi := bits d.toNat 32 32
  match k with
  | 0 => { r with etaPeak := lo, etaFloor := hi }
  | 1 => { r with warmup := lo, decay := bits d.toNat 32 8 }
  | 2 => { r with horizon := lo, gamma := hi }
  | _ => { r with period := lo, restart := hi }

/-- Commit the staged words of rows and schedules; one that fails its check keeps its values (07 R281, R282). -/
def commitRefiner (s : State) : State :=
  let rowIds := (s.refiner.rowsStaged.map fun w => w.1 / 8).eraseDups
  let schIds := (s.refiner.schedsStaged.map fun w => w.1 / 4).eraseDups
  let s := rowIds.foldl (fun s r =>
    let old := tabGet (fun _ => {}) s.refiner.rows r
    let new := (s.refiner.rowsStaged.filter fun w => w.1 / 8 == r).foldl (fun x w => x.setWord (w.1 % 8) w.2) old
    if rowCoeffsBad new then { s with refiner := { s.refiner with rowReject := true, rowNo := r } }
    else { s with refiner := { s.refiner with rows := tabSet (fun _ => {}) s.refiner.rows r new } }) s
  let s := schIds.foldl (fun s r =>
    let old := tabGet (fun _ => {}) s.refiner.scheds r
    let new := (s.refiner.schedsStaged.filter fun w => w.1 / 4 == r).foldl (fun x w => x.setWord (w.1 % 4) w.2) old
    if schedFieldsBad new then { s with refiner := { s.refiner with schedReject := true, schedNo := r } }
    else { s with refiner := { s.refiner with scheds := tabSet (fun _ => {}) s.refiner.scheds r new } }) s
  { s with refiner := { s.refiner with rowsStaged := [], schedsStaged := [] } }

/-- Latch the committed row and schedule of a group and evaluate η, k1 and k2 for its step (07 R282); what the group does
not have latches as 0 (in part DEDUCED, log entry 26). -/
def latchSchedule (s : State) (g : Nat) : State :=
  let gr := s.gr g
  let row := tabGet (fun _ => {}) s.refiner.rows gr.refinerRow
  let sch := tabGet (fun _ => {}) s.refiner.scheds gr.schedule
  let step := (s.group g).step
  let k (beta : Nat) : Nat :=
    if gr.refinerRow == 0xFF then 0
    else if row.biasCorrect then biasFactor beta (wrap32 (step + 1)) else 0x3F800000
  s.updGroup g fun x => { x with
    row := if gr.refinerRow == 0xFF then none else some row
    eta := if gr.schedule == 0xFF then 0 else etaOf sch step
    etaStep := if gr.schedule == 0xFF then 0 else step
    k1 := k row.beta1, k2 := k row.beta2 }

end Sys2Proof.Machine
end

