-- ==== Sys2Proof/Machine/Starting.lean ====
section
/-! DEFINITION. What starting an entry sets going: staging pairs (04 R150, R151), the reads of its operands (05 R190, R199;
04 R152; 07 R294), the replay window (10 R401-R404), and the operand bytes as they land. -/

namespace Sys2Proof.Machine

/-! ### Working partitions (04 R150) -/

/-- The working partition of an entry: its group's; without a group the lowest shared one, else that of the lowest valid
group. -/
def State.partitionFor (s : State) (d : Desc) : Nat :=
  if !d.noGroup then (s.gr d.group).partition
  else
    let shared := (s.image.cisterns.filter fun r => r.kind == 0 && r.owner == 0xFFFF).map (·.partition)
    match shared with
    | p :: ps => ps.foldl min p
    | [] => match s.image.validGroups with
      | g :: _ => g.partition
      | [] => 0

/-! ### The replay window (10 R401-R403) -/

/-- The window slot of a step. -/
def GroupSt.slot (x : GroupSt) (step : Nat) : Slot := if step % 2 = 0 then x.slot0 else x.slot1

/-- Replace the window slot of a step. -/
def GroupSt.setSlot (x : GroupSt) (step : Nat) (y : Slot) : GroupSt :=
  if step % 2 = 0 then { x with slot0 := y } else { x with slot1 := y }

/-- Bytes that a record of `n` input bytes takes (10 R403). -/
def recordBytes (n : Nat) : Nat := 64 + up64 n

/-- Whether a group keeps a window (10 R401). -/
def GroupSt.keepsWindow (x : GroupSt) : Bool := x.gr.replayPlace == 0 || x.replayEn

/-- The address of a memory-placed slot (10 R401). -/
def GroupSt.slotAddr (x : GroupSt) (step : Nat) : Nat := x.replayAddr + (step % 2) * x.gr.slotBytes

/-- The records that can be reached one after the other, and the bytes up to their end: all, once none is missing before another
(in part DEDUCED, log entry 23). -/
def Slot.chain (y : Slot) : Nat × Nat :=
  y.records.foldl (fun (n, pos) r => if r.at_ == pos then (n + 1, pos + recordBytes r.bytes.length) else (n, pos)) (0, 64)

/-- The 64-byte header of a slot (10 R403). -/
def Slot.header (y : Slot) : List Byte :=
  leBytes 4 y.step ++ leBytes 2 y.chain.1 ++ leBytes 1 (b1 y.short + 2 * b1 y.valid) ++ leBytes 1 0 ++
    leBytes 8 y.chain.2 ++ leBytes 48 0

/-- The bytes of a record with its header, to a 64 B boundary (10 R403). -/
def WindowRec.bytesOf (r : WindowRec) : List Byte :=
  leBytes 2 r.entry ++ leBytes 1 r.opcode ++ leBytes 1 0 ++ leBytes 4 r.bytes.length ++ leBytes 4 r.crc ++ leBytes 52 0 ++
    r.bytes ++ List.replicate (up64 r.bytes.length - r.bytes.length) 0

/-- Write a memory-placed slot's header (10 R401). -/
def writeSlotHeader (s : State) (g step : Nat) : State :=
  let x := s.group g
  if x.gr.replayPlace == 1 && x.replayEn then
    enqueueWrite s 1 x.gr.queue (x.slotAddr step) (x.slot step).header siphonOf (fun _ => .replaySlot g step)
  else s

/-- Open the slot of a step: the first group-wide entry of run 0 starts (10 R402). -/
def openSlot (s : State) (g : Nat) : State :=
  let x := s.group g
  if x.gr.valid then
    writeSlotHeader (s.updGroup g fun x => x.setSlot x.step { step := x.step, used := 64 }) g x.step
  else s

/-- Give an entry that reads SRC its place in the slot of its step, in the order in which entries start; one that does not fit, and each
after it, is not stored (10 R402) (in part DEDUCED, log entry 23). -/
def placeInput (s : State) (o : Op) : State :=
  let g := o.desc.group
  let x := s.group g
  if !(isGroupWide o.desc.opcode) || x.run != 0 then s
  else
    let y := x.slot o.step
    let n := recordBytes (s.inputBytes o.desc)
    if !x.keepsWindow || y.short || x.gr.slotBytes < y.used + n then
      writeSlotHeader (s.updGroup g fun x => { (x.setSlot o.step { y with short := true }) with short := true }) g o.step
    else
      (s.updGroup g fun x => x.setSlot o.step { y with used := y.used + n }).updOp o.q o.c fun o => { o with record := some y.used }

/-- Store an entry's landed input in its place (10 R402). -/
def storeInput (s : State) (o : Op) : State :=
  let g := o.desc.group
  let x := s.group g
  match o.record with
  | none => s
  | some a =>
    if o.stored || !(o.whole || o.allAsked) then s
    else
      let y := x.slot o.step
      let bs := bufRead o.inBuf 0 (s.inputBytes o.desc)
      let r : WindowRec := { entry := o.num, opcode := o.desc.opcode, bytes := bs, crc := crc32c bs, at_ := a }
      let s := s.updOp o.q o.c fun o => { o with stored := true }
      let s := s.updGroup g fun x => x.setSlot o.step
        { y with records := sortBy (fun r r' => decide (r.at_ ≤ r'.at_)) (y.records ++ [r]) }
      if x.gr.replayPlace == 1 then
        writeSlotHeader (enqueueWrite s 1 x.gr.queue (x.slotAddr o.step + a) r.bytesOf siphonOf
          (fun _ => .replaySlot g o.step)) g o.step
      else s

/-- An entry of a restarted step looks through the window of its group, where one is kept (10 R404) (in part DEDUCED, log entry 23). -/
def State.looks (s : State) (o : Op) : Bool :=
  let x := s.group o.desc.group
  isGroupWide o.desc.opcode && x.run != 0 && x.keepsWindow

/-- The record of a cistern-placed slot that an entry of a restarted step reads in place of SRC (10 R404)
(in part DEDUCED, log entry 23). -/
def State.windowFor (s : State) (o : Op) : Option WindowRec :=
  let x := s.group o.desc.group
  let y := x.slot o.step
  if !(s.looks o) || x.gr.replayPlace == 1 || y.step != o.step then none
  else y.records.find? fun r =>
    r.entry == o.num && r.opcode == o.desc.opcode && r.bytes.length == s.inputBytes o.desc

/-! ### Reads of an entry (04 R142; 05 R190, R199; 07 R294) -/

/-- Whether this member reads SRC for the entry: every taker of SRC but a BROADCAST elsewhere than at its root. -/
def State.readsSrc (s : State) (d : Desc) : Bool :=
  (usedBy d.opcode).src && d.length != 0 && (d.opcode != opBroadcast || s.ownPos d.group == d.aux32)

/-- Read a range of memory into a region of an entry. -/
def readRegion (s : State) (o : Op) (r : Region) (addr base len : Nat) : State :=
  enqueueRead s o.q addr len siphonOf (fun k => .payload o.q o.c r (base + k))

/-- Bytes of an entry's mask. -/
def Desc.maskBytes (d : Desc) : Nat := if d.masked then cdiv d.n 8 else 0

/-- Read the entry's input: with its mask or its dynamic map at once where both fit the pair, else half by half as they are consumed (04
R152) (in part DEDUCED, log entry 17). -/
def readFrom (s : State) (o : Op) (r : Region) (base n : Nat) : State :=
  if n + o.desc.maskBytes + s.mapBytes o.desc ≤ pairSize then readRegion s o r base 0 n
  else s.updOp o.q o.c fun o => { o with whole := false, inBase := base, asked := [], halves := 0, allAsked := false }

/-- Read the entry's input from SRC. -/
def readSource (s : State) (o : Op) : State := readFrom (placeInput s o) o .src o.desc.src (s.inputBytes o.desc)

/-- Read the header at an offset of a memory-placed slot, with the number of records that it and those after it are
(10 R403, R404); the slot's own header is at 0 (in part DEDUCED, log entry 23). -/
def probeSlot (s : State) (o : Op) (off left : Nat) : State :=
  readRegion (s.updOp o.q o.c fun o => { o with probeAt := some (off, left), probeBuf := [] }) o .probe
    ((s.group o.desc.group).slotAddr o.step + off) 0 64

/-- Read the entry's input, from a window record if one serves it (10 R404). -/
def readInput (s : State) (o : Op) : State :=
  match s.windowFor o with
  | some r => s.updOp o.q o.c fun o => { o with inBuf := bufWrite o.inBuf 0 r.bytes, stored := true }
  | none =>
    if s.looks o && (s.group o.desc.group).gr.replayPlace == 1 then probeSlot s o 0 0 else readSource s o

/-- A header of a memory-placed slot has been read (10 R403, R404): the slot's, of another step or without records, sends the
entry to SRC; a matching record is read and its CRC kept; else the next record is looked at (in part DEDUCED, log entry 23). -/
def probeLanded (s : State) (o : Op) (off left : Nat) : State :=
  let f (at_ n : Nat) : Nat := leNat (bufRead o.probeBuf at_ n)
  let s := s.updOp o.q o.c fun o => { o with probeAt := none }
  if off = 0 then
    if f 0 4 == o.step && f 4 2 != 0 then probeSlot s o 64 (f 4 2) else readSource s o
  else
    let n := f 4 4
    if f 0 2 == o.num % 65536 && f 2 1 == o.desc.opcode && n == s.inputBytes o.desc then
      readFrom (s.updOp o.q o.c fun o => { o with windowHit := some (f 8 4), stored := true }) o .window
        ((s.group o.desc.group).slotAddr o.step + off + 64) n
    else
      let next := off + recordBytes n
      if left ≤ 1 || (s.group o.desc.group).gr.slotBytes < next + 64 then readSource s o else probeSlot s o next (left - 1)

/-- Read a dynamic map through the two halves of the pair in turn, each asked for again once what it held has landed, since the map is
consumed as it lands (04 R152; 05 R199) (in part DEDUCED, log entry 17). -/
def readMapHalves (q c : Nat) : Nat → State → State
  | 0, s => s
  | fuel + 1, s => match s.op? q c with
    | none => s
    | some o =>
      let k := min halfSize (s.mapBytes o.desc - o.mapAsked)
      if k = 0 || o.pair != .held || o.ended.isSome || s.rangeBusy o .rowMap 0 (o.mapAsked - halfSize) then s
      else readMapHalves q c fuel (readRegion (s.updOp q c fun o => { o with mapAsked := o.mapAsked + k }) o .rowMap
        (o.desc.aux64 / 64 * 64 + o.mapAsked) o.mapAsked k)

/-- Issue an entry's reads: its input, its mask where it goes with it, its dynamic map, and the header of its state block. A window
record that is marked bad ends the entry instead, as one whose CRC does not match does (10 R404; 01 R34). -/
def issueReads (s : State) (o : Op) : State :=
  let d := o.desc
  if d.length == 0 then s
  else if (s.windowFor o).any (·.bad) then haltOnFault s d.group haltFault (endFaultOf o.num)
  else
    let s := if s.readsSrc d then readInput s o else s
    let s := if d.masked && (s.inputBytes d + d.maskBytes ≤ pairSize || (s.windowFor o).isSome) then
        readRegion s o .mask d.aux64 0 d.maskBytes else s
    let s := readMapHalves o.q o.c 2 s
    if d.opcode == opUpdate then
      askHeaders (s.updOp o.q o.c fun o => { o with upd := { o.upd with headerDue := true } })
    else s

/-- An operation that waits for a pair: to stage its input, for its stream of optimizer state, or to keep what it sends (04 R150, R151;
10 R389). -/
def Op.asksPair (o : Op) : Bool := (o.pair == .waiting || o.stPair == .waiting || o.wants) && o.ended.isNone

/-- Pair `k` is granted to an operation: its staging pair, and a started one issues its reads; the pair of its stream; or one more pair
for what it keeps. -/
def givePair (s : State) (o : Op) (k : Nat) : State :=
  if o.pair == .waiting then
    let o' := { o with pair := .held, slot := k }
    let s := s.updOp o.q o.c fun _ => o'
    if o.running then issueReads s o' else s
  else if o.stPair == .waiting then askHeaders (s.updOp o.q o.c fun o => { o with stPair := .held, stSlot := k })
  else s.updOp o.q o.c fun o => { o with keeps := o.keeps ++ [k], wants := false }

/-- Grant the pairs of a partition in the order the entries started: none while an earlier entry waits (04 R151). -/
def grantPairs (p : Nat) : Nat → State → State
  | 0, s => s
  | fuel + 1, s =>
    match s.ops.find? fun o => o.partition == p && o.asksPair, s.freePair p with
    | some o, some k => grantPairs p fuel (givePair s o k)
    | _, _ => s

/-- An entry that reads SRC asks for its staging pair when it starts, and an UPDATE for one more for its stream where the partition has
another (04 R150) (in part DEDUCED, log entry 17). -/
def askPair (s : State) (q c : Nat) : State :=
  match s.op? q c with
  | none => s
  | some o =>
    if s.readsSrc o.desc && o.pair == .none && o.ended.isNone then
      grantPairs o.partition 64 (s.updOp q c fun o => { o with
        pair := .waiting, stPair := if o.desc.opcode == opUpdate && 1 < s.pairs o.partition then .waiting else o.stPair })
    else s

/-- Set a payload-taking entry going: its reads are issued once it has its pair, or at once where it takes none. -/
def takePair (s : State) (q c : Nat) : State :=
  match s.op? q c with
  | none => s
  | some o =>
    if !(s.readsSrc o.desc) || o.pair == .held then issueReads s o
    else askPair s q c

/-! ### Landing bytes -/

/-- Put read data into the buffer of its region. -/
def landBytes (o : Op) (r : Region) (off : Nat) (bs : List Byte) : Op :=
  match r with
  | .src | .window => { o with inBuf := bufWrite o.inBuf off bs }
  | .mask => { o with maskBuf := bufWrite o.maskBuf off bs }
  | .rowMap => { o with mapBuf := bufWrite o.mapBuf off bs }
  | .probe => { o with probeBuf := bufWrite o.probeBuf off bs }
  | .state | .header => { o with stBuf := bufWrite o.stBuf off bs }
  | .forward => { o with fwdBuf := bufWrite o.fwdBuf off bs }

/-- The header of the state block has been read (07 R294): a torn block halts the group with FAULT. -/
def headerLanded (s : State) (o : Op) : State :=
  let step := leNat (bufRead o.stBuf 0 4)
  let upto := leNat (bufRead o.stBuf 4 4)
  if bit (leNat (bufRead o.stBuf 8 1)) 0 then haltOnFault s o.desc.group haltFault (endFaultOf o.num)
  else s.updOp o.q o.c fun o => { o with upd := { o.upd with headerRead := true, hdrStep := step, hdrUpto := upto } }

/-- What follows a landed read: the header of a state block, a window record's CRC (10 R404), the store of the input once
all of it is here (10 R402). -/
def readLanded (s : State) (q c : Nat) (r : Region) : State :=
  match s.op? q c with
  | none => s
  | some o =>
    if s.rangeBusy o r 0 (2 ^ 63) then s
    else match r with
      | .header => headerLanded s o
      | .src => if o.pair == .held then storeInput s o else s
      | .probe => match o.probeAt with
        | some (off, left) => probeLanded s o off left
        | none => s
      | .window =>
        if !(o.whole || o.allAsked) || o.windowHit == some (crc32c (bufRead o.inBuf 0 (s.inputBytes o.desc))) then s
        else haltOnFault s o.desc.group haltFault (endFaultOf o.num)
      | _ => s

end Sys2Proof.Machine
end

