-- ==== Sys2Proof/Machine/Relief.lean ====
section
/-! DEFINITION. The warden's operations (11 R414-R450): the VENG target and SETTLED, surge and the wear ledger, pacing, heat,
evictions, withdrawal, fencing, and verdicts, suspicion and relief. -/

namespace Sys2Proof.Machine

/-! ### The VENG target (11 R424, R425) -/

/-- Full-load power in watts at a voltage in mV: the table of 01 R53 and the straight line between its rows, rounded
down (in part DEDUCED, log entry 28). -/
def fullLoad (mv : Nat) : Nat :=
  let line (x0 y0 x1 y1 : Nat) : Nat := y0 + (y1 - y0) * (mv - x0) / (x1 - x0)
  if mv ≤ 600 then 24 else if mv ≤ 700 then line 600 24 700 45 else if mv ≤ 750 then line 700 45 750 58
  else if mv ≤ 850 then line 750 58 850 82 else if mv ≤ 900 then line 850 82 900 96 else 96

/-- The thermal trip in force (11 R444; 12 R486). -/
def WardenSt.trip (w : WardenSt) : Bool := w.hotTrip || w.tjStale || w.vengStale

/-- Surge is under way. -/
def WardenSt.surging (w : WardenSt) : Bool := w.surge == .ramp || w.surge == .on

/-- The target of the last row of R424. -/
def WardenSt.baseTarget (w : WardenSt) : Nat := min (w.baseMv + 25 * w.vsteps) 850

/-- The target without a stress test, and its SOURCE (11 R424, R446). -/
def WardenSt.plainTarget (w : WardenSt) : Nat × Nat :=
  if w.cap then (min 750 w.baseTarget, 2) else if w.surging then (900, 1) else (w.baseTarget, 0)

/-- A whole-engine stress test runs: the sluice is held and the started operations have drained (11 R436, R438). -/
def State.stressing (s : State) : Bool :=
  s.warden.testHold && s.warden.wholeStress && s.started.isEmpty && s.img.swapping.isNone

/-- TARGET_MV and SOURCE (11 R424, R446). -/
def State.vengTarget (s : State) : Nat × Nat :=
  let t := s.warden.plainTarget
  if s.stressing then (max 600 (t.1 - 50), 3) else t

/-- The distance of the sense input from a target. -/
def farFrom (a b : Nat) : Nat := (a - b) + (b - a)

/-- SETTLED (11 R425, R446). -/
def State.settledVeng (s : State) : Bool := farFrom s.warden.vengMv s.vengTarget.1 ≤ 15

/-- The domains that lose their pacing to a stress test now: those of a whole-engine test once it has drained and the rail has settled
(11 R428, R436). -/
def State.stressed (s : State) : List Nat :=
  if s.warden.testHold && !(s.stressing && s.settledVeng) then [] else s.warden.stressDomains

/-! ### Pacing (11 R428) -/

/-- The effective pacing level of a domain (in part DEDUCED, log entry 31). -/
def State.effectivePace (s : State) (d : Nat) : Nat :=
  if s.keeper.phase == .lowWater || s.warden.trip then 8
  else if s.stressed.contains d then 0
  else (s.pace d).level

/-- The pacing domain of a unit (01 R51; 11 R416). -/
def domainOf (unit : Nat) : Option Nat :=
  if unit ≤ 16 then some unit
  else if 0x100 ≤ unit && unit < 0x160 then some 17
  else if 0x200 ≤ unit && unit < 0x208 then some 18
  else if 0x300 ≤ unit && unit < 0x340 then some 19
  else if unit == 0x400 || unit == 0x401 then some 20
  else if 0x500 ≤ unit && unit < 0x508 then some 21
  else if 0x600 ≤ unit && unit < 0x608 then some 22
  else if 0x700 ≤ unit && unit < 0x705 then some 23
  else if unit == 0x800 || unit == 0x801 then some 24
  else none

/-! ### Surge and the ledger (11 R441-R443) -/

/-- Surge time in the window: the present 10 ms slot and the 499 before it (11 R442). -/
def WardenSt.windowNs (w : WardenSt) : Nat := w.slotNs + w.slots.sum

/-- WINDOW_USED in ms. -/
def WardenSt.windowUsed (w : WardenSt) : Nat := w.windowNs / 1000000

/-- LEDGER_S (11 R443). -/
def WardenSt.ledgerSec (w : WardenSt) : Nat := w.ledgerMs / 1000

/-- The surge time after which the ledger is spent, in ms (11 R443). -/
def ledgerLimit : Nat := 7200000000

/-- The conditions of surge but the grant (11 R425, R441). -/
def State.surgeReady (s : State) : Bool :=
  let w := s.warden
  w.request && w.surge == .off && w.ledgerValid && !w.spent && !w.cap && !w.trip && decide (w.temp ≤ 400) &&
    w.windowNs + 50000000 ≤ 500000000 && s.settledVeng && !(w.test == .waiting && w.testDrains) && !w.testHold

/-- DRAW_REQ and DRAW_VALID follow the conditions; they stay while surge runs (11 R441; 12 R485). -/
def refreshDraw (s : State) : State :=
  if s.warden.surging then s
  else
    let on := s.surgeReady
    s.updWarden fun w => { w with drawValid := on, drawReq := if on then 96 - fullLoad s.vengTarget.1 else 0 }

/-- A stressed test on the spare pump starts once the rail has settled (11 R436). -/
def startWaitingTest (s : State) : State :=
  let w := s.warden
  if w.test == .waiting && !w.testDrains && s.settledVeng then
    s.updWarden fun w => { w with
      test := .running, testPours := w.poursOf w.testId, testBytes := w.pourBytes, testIm := some s.image, stressDomains := [16] }
  else s

/-- What follows a change of the target or of the sense input: the episode off target, RAMP to ON, a test that waits, the
draw request (11 R425, R436, R441). -/
def refreshVeng (s : State) : State :=
  let t := s.vengTarget.1
  let s := s.updWarden fun w =>
    if farFrom w.vengMv t ≤ 15 then
      { w with offSince := none, senseRecorded := false, surge := if w.surge == .ramp then .on else w.surge }
    else if w.offSince.isSome && w.offTarget == t then w
    else { w with offSince := some s.now, offTarget := t, offBy := farFrom w.vengMv t, senseRecorded := false }
  refreshDraw (startWaitingTest s)

/-- The drain of a stressed whole-engine test has ended, or its test: the target has changed (11 R424, R425, R436). -/
def noteDrain (was : State) (s : State) : State := if s.stressing == was.stressing then s else refreshVeng s

/-- A record of the warden for the engine as a whole (in part DEDUCED, log entry 32). -/
def engineRecord (s : State) (type s0 s1 s2 action : Nat) : State :=
  makeRecord s { type, action, unit := 0xFFFF, operation := 0xFF, group := 0xFFFF, count := 0xFFFFFFFF, s0, s1, s2 }

/-- Surge ends (11 R441-R443): the target falls, the budget goes back, and a ledger record is due. S0 1 window spent, 2
ended, 3 ledger spent. -/
def endSurge (s : State) (s0 : Nat) : State :=
  if s.warden.surging then
    let s := s.updWarden fun w => { w with
      surge := if w.spent then .disabled else .off, drawValid := false, drawReq := 0, ledgerDue := true }
    refreshVeng (engineRecord s 0x11 s0 s.warden.ledgerSec 0 10)
  else s

/-- A test on the spare pump that has not begun waits for the step mark of its group once the spare stands in or is fenced; as a
whole-engine test that waits it ends surge (01 R40; 11 R437, R441) (in part DEDUCED, log entry 31). -/
def deferTest (s : State) : State :=
  if s.warden.test == .waiting && !s.warden.testDrains && (s.warden.spareIn.isSome || s.warden.fenced.contains 16) then
    refreshDraw (endSurge (s.updWarden fun w => { w with testDrains := true }) 2)
  else s

/-- Surge begins when all its conditions hold and the extra power is granted (11 R441; 12 R485). -/
def beginSurge (s : State) : State :=
  if s.warden.drawGrant && s.warden.drawValid && s.surgeReady then
    let s := s.updWarden fun w => { w with surge := .ramp }
    refreshVeng (engineRecord s 0x11 0 s.warden.ledgerSec 0 0)
  else s

/-- One nanosecond of surge time (11 R442, R443); at each multiple of 10 ms a new slot begins (in part DESIGN CHOICE, log entry 1). -/
def tickSurge (s : State) : State :=
  let slotEnd := (s.now + 1) % 10000000 == 0
  s.updWarden fun w =>
    let on := w.surging
    let ns := w.ledgerNs + b1 on
    let used := w.slotNs + b1 on
    { w with
      ledgerMs := w.ledgerMs + ns / 1000000, ledgerNs := ns % 1000000
      slots := if slotEnd then (used :: w.slots).take 499 else w.slots
      slotNs := if slotEnd then 0 else used }

/-- CHECK of the ledger (11 R443). -/
def State.ledgerCheck (s : State) (seconds : Nat) : W64 :=
  crc64 (leBytes 8 s.idLo.toNat ++ leBytes 8 s.idHi.toNat ++ leBytes 4 seconds)

/-- Write a ledger record when one is due (11 R443). -/
def writeLedger (s : State) : State :=
  let w := s.warden
  let sec := w.ledgerSec
  if w.ledgerEn && w.ledgerValid && (w.ledgerDue || sec / 60 != w.ledgerNoted) then
    let s := s.updWarden fun w => { w with ledgerDue := false, ledgerNoted := sec / 60 }
    enqueueWrite s 1 257 w.ledgerAddr (leBytes 4 sec ++ leBytes 4 0 ++ leBytes 8 (s.ledgerCheck sec).toNat) siphonOf
      fun _ => .ledger
  else s

/-- Restore the ledger, accepted once per reset (11 R443). -/
def restoreLedger (s : State) : Option State :=
  let w := s.warden
  if w.restoreUsed then none
  else
    let s := s.updWarden fun w => { w with restoreUsed := true }
    if w.restoreCheck == s.ledgerCheck w.restoreS then
      let ms := 1000 * w.restoreS
      let spent := decide (ledgerLimit ≤ ms)
      some (refreshDraw (s.updWarden fun w => { w with
        ledgerValid := true, ledgerMs := ms, ledgerNs := 0, ledgerNoted := w.restoreS / 60, spent
        surge := if spent then .disabled else .off }))
    else
      some (engineRecord (s.updWarden fun w => { w with ledgerBad := true }) 0x11 4 w.ledgerSec 0 0)

/-! ### Heat (11 R444; 12 R486) -/

/-- A THERMAL record. -/
def thermalRecord (s : State) (s0 action : Nat) : State := engineRecord s 0x10 s0 0 0 action

/-- The cap begins above 105 °C (11 R444). -/
def capRule (s : State) : State :=
  let w := s.warden
  if !w.cap && decide (420 < w.temp) then
    let stopped := w.surging
    let s := thermalRecord (endSurge (s.updWarden fun w => { w with cap := true }) 2) 0 (if stopped then 10 else 8)
    refreshVeng s
  else s

/-- A THERMAL record where the trip in force has begun or ended (11 R444; 12 R486). -/
def noteTrip (was : Bool) (s : State) : State :=
  if s.warden.trip == was then s else if was then thermalRecord s 3 0 else thermalRecord s 2 9

/-- A reading of the junction temperature, in units of 0.25 °C: the trip begins at 115 °C and ends at 105 °C; a fresh
strobe ends a stale trip (11 R444; 12 R486). -/
def senseTemp (s : State) (tj : Int) : State :=
  let t := s.updWarden fun w => { w with
    temp := tj, tjAt := s.now, tjStale := false
    hotTrip := if 460 ≤ tj then true else if tj ≤ 420 then false else w.hotTrip
    coolSince := if tj ≤ 400 then some (w.coolSince.getD s.now) else none }
  refreshDraw (noteTrip s.warden.trip (capRule t))

/-- A reading of VENG (11 R425; 12 R486). -/
def senseVeng (s : State) (mv : Nat) : State :=
  let t := s.updWarden fun w => { w with vengMv := mv, vengAt := s.now, vengStale := false }
  refreshVeng (noteTrip s.warden.trip t)

/-- A sense strobe has been missing for 1 ms: a thermal trip (12 R486). -/
def senseLost (s : State) (x : Sense) : State :=
  let w := s.warden
  match x with
  | .tj => if !w.tjStale && w.tjAt + 1000000 ≤ s.now then
      refreshDraw (thermalRecord (s.updWarden fun w => { w with tjStale := true }) 2 9) else s
  | .veng => if !w.vengStale && w.vengAt + 1000000 ≤ s.now then
      refreshDraw (thermalRecord (s.updWarden fun w => { w with vengStale := true }) 2 9) else s

/-- The cap is released after 1 s at or below 100 °C (11 R444). -/
def releaseCap (s : State) : State :=
  let w := s.warden
  let cool := match w.coolSince with
    | some t => decide (t + 1000000000 ≤ s.now)
    | none => false
  if w.cap && cool then refreshVeng (thermalRecord (s.updWarden fun w => { w with cap := false }) 1 0) else s

/-! ### Evictions (02 R78; 11 R431) -/

/-- The indices of a group's entries of a die that are ACTIVE. -/
def State.activeEntries (s : State) (g die : Nat) : List Nat :=
  ((s.groupEntries g).filter fun x => x.2.dieAddr == die && x.2.state == stActive).map (·.1)

/-- Stage EVICT for a die of a group (02 R78). -/
def stageEvict (s : State) (g die : Nat) : State :=
  refreshQuarantine ((s.activeEntries g die).foldl (fun s i => s.setEntry g i { s.member i with state := stEvict }) s)

/-- Stage EVICT for a die, with an EVICT record if it was ACTIVE (11 R431); reason 0 timeout, 1 withdrawal. -/
def evictDie (s : State) (g reason die : Nat) : State :=
  match s.activeEntries g die with
  | [] => s
  | i :: _ =>
    makeRecord (stageEvict s g die) { type := 0x0F, action := 7, unit := 0xFFFF, operation := 0xFF, group := g
                                      step := (s.group g).stepNow.1, count := 0xFFFFFFFF, s0 := i, s1 := die, s2 := reason }

/-! ### Withdrawal (11 R429) -/

/-- Every valid group in which this engine's own entry is ACTIVE. -/
def State.activeGroups (s : State) : List Nat :=
  s.groups.filterMap fun (g, x) =>
    if x.gr.valid && (s.ownEntry g).any (fun m => m.state == stActive) then some g else none

/-- Withdraw, for a cause given by its record TYPE; the warden stages EVICT on its own entries where AUTO_EVICT is 1 (02 R78); the Bool tells whether only the halts were taken (AUTO_WITHDRAW 0). -/
def withdrawEngine (s : State) (type : Nat) : State × List Nat × Bool :=
  if s.warden.withdrawn then (s, [6], false)
  else
    let gs := s.activeGroups
    let t := gs.foldl (fun s g => haltOnFault s g haltFault endHalted) s
    if !s.warden.autoWithdraw then (t, [5], true)
    else
      let t := (gs.filter fun g => (t.gr g).autoEvict).foldl (fun s g => stageEvict s g s.me) t
      let t := gs.foldl (fun t g =>
        if s.mayTrade then sendAll t (t.allPeers g) (.withdraw { src := t.me, c := commonNow t g, cause := type }) else t) t
      let t := engineRecord t 0x0D type 0 0 6
      (t.updWarden fun w => { w with withdrawn := true }, [6], false)

/-! ### Fencing (01 R39-R41; 11 R427) -/

/-- Fence a pump: the spare stands in if it is free, else the group's other pumps share its work (01 R40, R41). A fenced
spare stands in no longer. A test that already runs on the spare when it comes to stand in goes on to its end: R40 speaks of tests
requested while the spare stands in (DESIGN CHOICE, log entry 31). -/
def fencePump (s : State) (p : Nat) : State × List Nat :=
  if s.warden.fenced.contains p then (s, [4])
  else
    let s := s.updWarden fun w => { w with
      fenced := w.fenced ++ [p]
      spareIn := if p == 16 then none
        else if w.spareIn.isNone && !(w.fenced.contains 16) then some p else w.spareIn }
    let (s, acts) := haltPumpless (deferTest s) (some p)
    (s, 4 :: acts)

/-- What a PERMANENT verdict leads to (11 R427): the actions taken, and whether they fell short. -/
def permanent (s : State) (unit type : Nat) : State × List Nat × Bool :=
  if !s.warden.autoFence then (s, [], true)
  else if unit ≤ 16 then
    let (s, acts) := fencePump s unit
    (s, acts, false)
  else if 0x100 ≤ unit && unit < 0x160 then
    let s := s.updWarden fun w => { w with lanes := addTo (unit - 0x100) w.lanes }
    if 9 ≤ s.warden.lanes.length then
      let (s, acts, short) := withdrawEngine s type
      (s, 4 :: acts, short)
    else (s, [4], false)
  else withdrawEngine s type

/-! ### Verdicts and relief (11 R420-R426) -/

/-- Verdict codes (11 R417). -/
def vNone : Nat := 0
def vTransient : Nat := 1
def vPermanent : Nat := 2
def vInconclusive : Nat := 3
def vMarginal : Nat := 4
def vNotRepeatable : Nat := 5

/-- alt(u) with the rotation of its lanes (11 R422): the spare pump; while it stands in or is fenced, the next pump of the group;
the spare itself rotated; the other lane. A test's group is that of TEST_CTRL (in part DEDUCED, log entry 31). -/
def State.altOf (s : State) (g unit : Nat) : Option (Nat × Nat) :=
  if unit < 16 then
    if s.warden.spareIn.isSome || s.warden.fenced.contains 16 then some (nextPump (s.groupPumps g) unit, 1) else some (16, 0)
  else if unit == 16 then some (16, 1)
  else if 0x100 ≤ unit && unit < 0x160 then some (0x100 + s.laneB (unit - 0x100), 0)
  else none

/-- Note where the repeat on another unit ran, where the verdict needed one (11 R421-R423). -/
def noteRepeat (s : State) (g unit : Nat) (r : Repeats) (stress : Bool) : State :=
  if r.same || (stress && r.relaxed) then s
  else match s.altOf g unit with
    | some x => s.updWarden fun w => { w with repeatRun := some x }
    | none => s

/-- alt(u) exists for pumps and lanes (11 R422). -/
def hasAlt (unit : Nat) : Bool := unit ≤ 16 || (0x100 ≤ unit && unit < 0x160)

/-- The verdict of R421 from what the repeats gave (in part DEDUCED, log entry 31). -/
def judge (unit : Nat) (r : Repeats) (stress : Bool) : Nat :=
  if r.same then vTransient
  else if stress && r.relaxed then vMarginal
  else if hasAlt unit && !r.alt then vInconclusive
  else if r.again then vPermanent else vInconclusive

/-- A TRANSIENT verdict of a unit: whether it becomes suspect (11 R426). -/
def addSuspicion (s : State) (unit : Nat) : State × Bool :=
  let w := s.warden
  let live := w.suspicion.filter fun x => x.1 != unit || s.now < x.2 + w.window * 1000000000
  let n := (live.filter fun x => x.1 == unit).length + 1
  if w.transientLimit ≤ n then
    (s.updWarden fun w => { w with suspicion := live.filter fun x => x.1 != unit }, true)
  else (s.updWarden fun w => { w with suspicion := live ++ [(unit, s.now)] }, false)

/-- Raise the pacing of a domain by one level. -/
def paceStep (s : State) (d : Nat) : State :=
  let p := s.pace d
  s.setPace d { level := p.level + 1, steps := p.steps + 1 }

/-- Raise VSTEPS by one. -/
def voltStep (s : State) : State := refreshVeng (s.updWarden fun w => { w with vsteps := w.vsteps + 1 })

/-- The next step of the ladder (11 R426); an exhausted ladder makes the suspicion a PERMANENT verdict. -/
def ladder (s : State) (unit type : Nat) : State × List Nat × Bool :=
  let w := s.warden
  let canPace := match domainOf unit with
    | some d => decide ((s.pace d).level < w.paceMax)
    | none => false
  let canVolt := decide (w.vsteps < w.vstepMax) && decide (w.baseTarget < 850)
  if canPace && !(w.voltageFirst && canVolt) then (paceStep s ((domainOf unit).getD 0), [2], false)
  else if canVolt then (voltStep s, [3], false)
  else permanent s unit type

/-- What a verdict on a unit leads to (11 R420, R426, R427). AUTO_RELIEF governs the step that a suspect unit takes; an INCONCLUSIVE and
a MARGINAL verdict take theirs at once. -/
def onVerdict (s : State) (unit type verdict : Nat) : State × List Nat × Bool :=
  if verdict == vTransient || verdict == vNotRepeatable then
    let (s, suspect) := addSuspicion s unit
    if suspect && s.warden.autoRelief then ladder s unit type else (s, [], false)
  else if verdict == vPermanent then permanent s unit type
  else if verdict == vInconclusive then
    if s.warden.vsteps < s.warden.vstepMax then (voltStep s, [3], false) else (s, [], false)
  else if verdict == vMarginal then ladder s unit type
  else (s, [], false)

/-- A repeat is in progress: the repeat buffer holds its operands (11 R420, R445). -/
def State.judging (s : State) : Bool := s.now < s.warden.judgeUntil

/-- The verdict on a failed formation or a failed test: while the buffer is busy, or with its operands lost, it cannot be repeated
(11 R420, R421). -/
def State.verdictOf (s : State) (unit : Nat) (rep : Repeats) (kept stress : Bool) : Nat :=
  if s.judging || !kept then vNotRepeatable else judge unit rep stress

/-- The warden judges a fault: the buffer takes its work, for a time that no rule gives, the repeats run, and what follows from the verdict
is done; the verdict, the actions and whether they fell short (11 R420-R422, R426, R427). What a repeat shows comes with the fault (DESIGN
CHOICE, log entry 31). -/
def judgeFault (s : State) (x : RepeatWork) (type : Nat) (rep : Repeats) (kept stress : Bool) : State × Nat × List Nat × Bool :=
  let verdict := s.verdictOf x.unit rep kept stress
  let s := if s.judging || !kept then s
    else
      let s := noteRepeat s x.group x.unit rep stress
      { s.updWarden fun w => { w with repeatWork := some x, judgeUntil := s.now + Config.repeatTime s.fresh } with fresh := s.fresh + 1 }
  let (s, acts, short) := onVerdict s x.unit type verdict
  (s, verdict, acts, short)

/-- The ACTION that a record holds: the first of those taken in the order of R417 (in part DEDUCED, log entry 31). -/
def firstAction (acts : List Nat) : Nat := ([6, 4, 5, 10, 9, 8, 3, 2, 7, 1].find? fun a => acts.contains a).getD 0

end Sys2Proof.Machine
end

