-- ==== Sys2Proof/Machine/Progress.lean ====
section
/-! DEFINITION. What a started operation does next (04 R151-R157; 05 R191-R223; 07 R289; 10 R382-R395): the parcels it can
send and the results it can write, as items that are carried out once each; arrival tokens; the end of its own part,
level marks and settlement. -/

namespace Sys2Proof.Machine

/-! ### Items -/

/-- One piece that is available at this member: what is sent on along which edges and what is written to DST, each write with its
class (04 R143). -/
structure Item where
  kind : Nat
  chunk : Nat
  idx : Nat
  fmt : Nat
  last : Bool := false
  pv : PV
  /-- the header as received, for a piece passed on unchanged (10 R379) -/
  hdr : Option PHdr := none
  step : Option Nat := none
  residue : Nat := 0
  poison : Bool := false
  skew : Bool := false
  /-- the stages at which what is sent has passed dual-rail here (10 R376, R383, R384) -/
  rail : Nat → Bool := fun _ => false
  /-- bytes of the operands that are kept with what is sent (10 R389) -/
  operands : Nat := 0
  lanes : List (Nat × Nat) := []
  edges : List Edge := []
  /-- sent upward or by a moving opcode (09 R368) -/
  up : Bool := true
  /-- the step within its stage at which an edge is taken (09 R368 ROUND) -/
  rnd : Edge → Nat := fun _ => 0
  /-- the stages whose scheme sends one parcel to several receivers (05 R215) -/
  fan : Nat → Bool := fun _ => false
  wkey : Option (Nat × Nat) := none
  writes : List (Nat × Nat × List Byte) := []
  /-- an output element that it writes has a contribution (05 R191) -/
  fed : Bool := false
  ev : Events := {}
  amax : Option AmaxRec := none
  spill : Nat := 0

/-- The key of what an item sends to a position. -/
def Item.key (it : Item) (dst : Nat) : SentKey := ⟨it.kind, it.chunk, it.idx, dst, it.up⟩

/-- The header of an item sent at a stage: the received one, its CRC carried along, when it goes on (10 R379; log entry 23); else a
new one. -/
def itemHeader (o : Op) (it : Item) (si stage : Nat) (payload : List Byte) : PHdr :=
  match it.hdr with
  | some h => rewrite h { h with stage, chunk := it.chunk, retry := false } payload
  | none =>
    let h := headerOf o stage it.kind it.fmt it.chunk it.idx it.pv.els.length it.last
    let h := { h with skew := it.skew, poison := it.poison, touch := !it.pv.touch.isEmpty, residue := it.residue
                      rail := it.rail si, step := it.step.getD o.step }
    { h with crc := parcelCrc h payload }

/-- Whether everything of an item is done. -/
def Op.itemDone (o : Op) (it : Item) : Bool :=
  (it.edges.all fun e => o.coll.sent.contains (it.key e.dst)) &&
    (match it.wkey with
      | none => true
      | some k => o.coll.wrote.contains k)

/-- Whether a parcel of a fan-out waits: a receiver's lag paces the operation, and none of the fan-out has gone (05 R216, R218). -/
def Op.isPaced (o : Op) (it : Item) (e : Edge) : Bool :=
  let mates := it.edges.filter fun y => y.si == e.si
  it.fan e.si && 1 < mates.length && !o.paced.isEmpty && !(mates.any fun y => o.coll.sent.contains (it.key y.dst))

/-- Ask for one more pair where what is to be kept does not fit those held (10 R389; 04 R151). -/
def makeRoom (s : State) (q c n : Nat) : State :=
  match s.op? q c with
  | none => s
  | some o => if o.needsPair n then grantPairs o.partition 64 (s.updOp q c fun o => { o with wants := true }) else s

/-- Send a parcel of an item along an edge, once: it is kept, and a fan-out occupies its room once for all its receivers
(05 R215-R218; 10 R389). -/
def sendEdge (lay : Lay) (q c : Nat) (it : Item) (payload : List Byte) (s : State) (e : Edge) : State :=
  let mates := it.edges.filter fun y => y.si == e.si
  let fans := it.fan e.si && 1 < mates.length
  let begun (o : Op) : Bool := fans && mates.any fun y => o.coll.sent.contains (it.key y.dst)
  let n := payload.length + it.operands
  match s.op? q c with
  | none => s
  | some o =>
    if o.coll.sent.contains (it.key e.dst) || o.isPaced it e then s
    else
      let s := if begun o then s else makeRoom s q c n
      match s.op? q c with
      | none => s
      | some o =>
        if !(begun o) && o.needsPair n then s
        else
          let s := s.updOp q c fun o => { o with coll := { o.coll with sent := o.coll.sent ++ [it.key e.dst] } }
          if s.mayTradeIn o.desc.group then
            let h := itemHeader o it e.si (lay.stage e.si) payload
            let p : Parcel := { src := s.me, h, payload, lanes := it.lanes, bare := it.pv.bare }
            twinParcel (sendParcel s q c { dest := lay.die e.dst, p, fan := if fans then lay.stage e.si else 0
                                           operands := it.operands, pump := s.railA o.desc.group it.chunk it.idx })
              o p it.up (it.rnd e)
          else s

/-- Write what an item writes, once (04 R143). -/
def writeItem (q c : Nat) (it : Item) (s : State) : State :=
  match s.op? q c, it.wkey with
  | some o, some k =>
    if o.coll.wrote.contains k then s
    else
      let s := s.updOp q c fun o => { o with
        coll := { o.coll with wrote := o.coll.wrote ++ [k] }, spill := o.spill + it.spill, fed := o.fed || it.fed }
      it.writes.foldl (fun s (cls, off, bs) => writeResult s o cls off bs) s
  | _, _ => s

/-- Carry out what is left of an item: sends, then writes (each once), and its events and running maximum (06 R248,
R266). -/
def runItem (lay : Lay) (q c : Nat) (s : State) (it : Item) : State :=
  match s.op? q c with
  | none => s
  | some o =>
    if o.itemDone it then s
    else
      let s := it.edges.foldl (sendEdge lay q c it (packPV it.kind it.fmt it.pv)) s
      (writeItem q c it (noteLag s q c)).updOp q c fun o => { o with
        satEls := o.satEls ++ it.ev.sat, flushEls := o.flushEls ++ it.ev.flush
        amax := match it.amax with
          | some a => mergeAmax o.amax a
          | none => o.amax }

/-- The rounds of the edges of a piece under the schemes of the stages, given its parts and the slot that its owner, or the root of
its distribution, has at each stage (09 R368). -/
def rounds (lay : Lay) (ks : List Scheme) (parts : List Nat) (slot : Nat → Nat) (up rooted : Bool) (e : Edge) : Nat :=
  roundOf lay ((ks[e.si]?).getD .halving) ((parts[e.si]?).getD 0) (slot e.si) e.si e.src e.dst up rooted

/-- The edges of an item that leave this member, at stages that have started. -/
def ownEdges (lay : Lay) (opn : List Nat) (es : List Edge) : List Edge :=
  es.filter fun e => e.src == lay.own && opn.contains e.si

/-- The writes of a piece in OUT_FMT at element `at_` of an operand of `total` elements: the elements in a class, the scale bytes
in class WRITE (06 R234). -/
def operandWrites (cls fmt b total at_ base : Nat) (p : PV) : List (Nat × Nat × List Byte) :=
  (cls, base + at_ * elemSize fmt, elementBytes fmt p.els) ::
    (if p.scales.isEmpty then [] else [(1, base + up64 total + at_ / max 1 b, p.scales.map (BitVec.ofNat 8))])

/-- ALLREDUCE and REDUCE_SCATTER over no element write one element of OUT_FMT holding the identity (05 R191; 06 R248, R266). -/
def writeIdentity (s : State) (o : Op) : State :=
  let d := o.desc
  let x := s.numCtx d
  let y := convertVals x.out x.b false x.round (entryDraw s o 0) 0 [(identityVal d.operator d.acc, false)]
  let s := s.updOp o.q o.c fun o => { o with
    satEls := o.satEls ++ y.ev.sat, flushEls := o.flushEls ++ y.ev.flush
    amax := match y.amax with
      | some a => mergeAmax o.amax a
      | none => o.amax }
  (operandWrites 1 x.out x.b 1 0 0 { els := y.els, scales := y.scales }).foldl (fun s w => writeResult s o w.1 w.2.1 w.2.2) s

/-! ### Reductions -/

/-- How many operands the combination that stands at the root of a tree on a position takes. -/
def RTree.fanIn (me : Nat) : RTree → Nat
  | .leaf _ => 0
  | .node si p l _ => if p == me then (if l.samePoint si p then l.fanIn me else 1) + 1 else 0
  | .move _ _ t => t.fanIn me

/-- The stage, as an index, of the combination at the root of a tree that a position has made. -/
def RTree.madeAt (me : Nat) : RTree → Option Nat
  | .leaf _ => none
  | .node si p _ _ => if p == me then some si else none
  | .move _ _ t => t.madeAt me

/-- Whether the combination at the root of a tree is made under dual-rail here (10 R383, R385, R386). -/
def State.dualRail (s : State) (o : Op) (x : RedCx) (t : RTree) : Bool :=
  x.red != .digest && (t.madeAt x.lay.own).any fun i => 2 ≤ s.levelAt o.desc.group (x.lay.stage i)

/-- Bytes of the operands of the combination at the root of a tree, for `n` elements. -/
def RedCx.operandBytes (x : RedCx) (t : RTree) (n : Nat) : Nat :=
  t.fanIn x.lay.own * n * parcelElem x.red.kind x.num.acc

/-- The foreign step that the pre-pass of a piece of chunk `c` brought, where an entry has one (05 R207; 07 R298). -/
def State.preStep (s : State) (o : Op) (x : RedCx) (c : Nat) (p : Piece) : Option (Nat × Nat) :=
  if x.red == .main && x.num.orderFree then o.foreignStep ((s.redCx o .pre).feeds 3 c p) else none

/-- The upward items of a reduction (05 R203-R206; 07 R298; 10 R381). -/
def upItems (s : State) (o : Op) (x : RedCx) : List (Option Item) :=
  let opn := s.upOpen o x
  (x.all o.toOwner).flatMap fun (c, p, t) =>
    (t.outs x.lay.own).map fun (si, dst, sub) =>
      if !opn.contains si then none
      else ((s.evalCx o x c p).eval sub).map fun v =>
        let (i0, _) := x.span p
        { kind := x.red.kind, chunk := x.chunkNo c, idx := p.idx, fmt := x.num.acc, pv := v.pv
          last := p.idx + 1 == (x.pieces c).length
          step := if o.desc.opcode == opUpdate then (firstStep v.step (s.preStep o x c p)).map (·.2) else none
          residue := if x.red == .main && x.num.orderFree then v.residue else 0
          poison := x.red == .main && x.num.orderFree && holdsPoison (o.coll.pre.getD []) i0 v.pv.els.length
          edges := [⟨si, x.lay.own, dst⟩], ev := v.ev
          rail := fun _ => s.dualRail o x sub, operands := x.operandBytes sub v.pv.els.length
          rnd := rounds x.lay (x.ks c) (x.parts c p) (x.lay.digit (x.lay.owner c)) true false }

/-- A downward parcel received for a piece: where the KIND serves both phases, the first parcel from a sender that also
sends upward is the upward one. -/
def Op.receivedDown (o : Op) (kind chunk idx die : Nat) (sendsUp : Bool) : Option RxParcel :=
  let l := o.received kind chunk idx die
  ((if sendsUp then l.drop 1 else l).head?).map (·.2)

/-- The sender of the edge that brings a piece to a position. -/
def edgeInto (es : List Edge) (me : Nat) : Option Edge := es.find? fun e => e.dst == me

/-- A stage of the downward phase has finished on this member: each of its edges into or out of this member is done. `both` tells which
senders of a downward parcel have sent an upward one too under its KIND. -/
def Op.edgesDone (o : Op) (lay : Lay) (kind : Nat) (up : Bool) (keyed : List (Nat × Nat × List Edge)) (both : Nat → Nat → Nat → Bool)
    (i : Nat) : Bool :=
  keyed.all fun (chunk, idx, es) => (es.filter fun e => e.si == i).all fun e =>
    (e.dst != lay.own || (o.receivedDown kind chunk idx (lay.die e.src) (both chunk idx e.src)).isSome) &&
    (e.src != lay.own || o.coll.sent.contains ⟨kind, chunk, idx, e.dst, up⟩)

/-- The stages of a distribution that have started, in the order in which it takes them (05 R204). -/
def Op.edgesOpen (o : Op) (lay : Lay) (kind : Nat) (up : Bool) (ring : Nat → Bool) (keyed : List (Nat × Nat × List Edge))
    (order : List Nat) (both : Nat → Nat → Nat → Bool := fun _ _ _ => false) : List Nat :=
  openStages ring (o.edgesDone lay kind up keyed both) order

/-- The pieces of a reduction's result as they travel down, with their edges (05 R203): OUT_FMT parcels of each chunk. -/
def downPlan (o : Op) (x : RedCx) : List (Nat × Piece × List Edge) :=
  let ring := x.red == .main
  let mx := if ring then parcelGrains x.num.out (scaleRun x.num.b x.touchW) x.touchW else x.mx
  (List.range x.lay.m).flatMap fun c =>
    let ks := x.ks c
    (chunkPieces x.lay ks x.n mx c).filterMap fun p =>
      let parts := pieceParts x.lay ks x.n c p
      match ((x.pieces c).head?).bind (x.tree o.toOwner c) with
      | none => none
      | some t =>
        let owner := x.lay.owner c
        let k := x.lay.counts.length
        let es :=
          if o.desc.opcode == opReduceScatter && x.red == .main then x.lay.scatterEdges ks owner t.loc
          else if o.toOwner then
            -- the owner hands its chunk back to the root of each tree stage, which spreads it
            ((List.range k).reverse.foldl (fun h i =>
              let sch := (ks[i]?).getD .halving
              let h := if sch == .tree then h.1.foldl (fun acc (v, _) => x.lay.pass i acc v (x.lay.withDigit v i 0)) h else h
              let hs : Holders := if sch == .tree then h.1.filter fun v => x.lay.digit v.1 i == 0 else h.1
              hs.foldl (fun acc (v, _) => x.lay.spread sch ((parts[i]?).getD 0) i (x.lay.withDigit v i 0)
                (x.lay.digit v i) acc) h) ([(owner, t.loc)], [])).2
          else x.lay.downEdges ks parts owner t.loc
        some (c, p, es)

/-- The finished chunk in the format that travels down, with its events and its maximum: the owner's conversion, or the pre-pass bytes
or digests as they are (05 R206; 06 R262, R268). Once the pre-pass result is here its bytes are the chunk's (05 R207). -/
def State.finished (s : State) (o : Op) (x : RedCx) (c : Nat) : Option (PV × Events × Option AmaxRec) :=
  match x.red, o.coll.pre with
  | .pre, some bs =>
    if (x.pieces c).all fun p => (x.tree o.toOwner c p).any fun t => t.loc == x.lay.own then
      some ({ els := (bs.drop ((x.chunkSpan c).1 / 32)).take (cdiv (x.chunkSpan c).2 32) }, {}, none)
    else none
  | .main, _ => (s.chunkFinal o x c).map fun f =>
    let y := finishPV x.num (o.coll.pre.getD []) (entryDraw s o 0) (x.chunkSpan c).1 f.pv
    ({ els := y.els, scales := y.scales, bare := f.pv.bare }, f.ev.add y.ev, y.amax)
  | _, _ => (s.chunkFinal o x c).map fun f => ({ els := f.pv.els }, f.ev, none)

/-- Whether a finished piece has passed dual-rail here: its last combination, or the owner's rounding (10 R376, R383, R384). -/
def State.finalRail (s : State) (o : Op) (x : RedCx) (t : Option RTree) : Bool :=
  match x.red with
  | .main => s.topLevel o.desc.group == 3
  | .pre => t.any (s.dualRail o x)
  | .digest => false

/-- The key of the down-phase pieces of a plan. -/
def RedCx.keyed (x : RedCx) (plan : List (Nat × Piece × List Edge)) : List (Nat × Nat × List Edge) :=
  plan.map fun (c, p, es) => (x.chunkNo c, p.idx, es)

/-- The KIND in which a reduction's result travels down (10 R377). -/
def Red.downKind : Red → Nat
  | .main => 1
  | .pre => 3
  | .digest => 5

/-- Whether the sender of a downward piece has also sent this member an upward one under the same KIND. -/
def RedCx.bothWays (x : RedCx) (o : Op) (c : Nat) (p : Piece) (src : Nat) : Bool :=
  x.red != .main && ((x.tree o.toOwner c p).map fun t => (t.ins x.lay.own).any fun y => y.2 == src).getD false

/-- The downward items of ALLREDUCE and REDUCE_SCATTER, of a pre-pass, and of a DIGEST (05 R193, R194, R203). -/
def downItems (s : State) (o : Op) (x : RedCx) : List (Option Item) :=
  let plan := downPlan o x
  let kind := x.red.downKind
  let opn := if s.upDone o x (x.lay.counts.length - 1) || (x.red == .main && x.mine.all Scheme.isRing) then
      o.edgesOpen x.lay kind false x.ringAt (x.keyed plan) (List.range x.lay.counts.length).reverse
        (fun chunk idx src => plan.any fun (c, p, _) => x.chunkNo c == chunk && p.idx == idx && x.bothWays o c p src) else []
  let kTotal := (x.owned.map fun c => (x.chunkSpan c).2).sum
  plan.map fun (c, p, es) =>
    let (e0, en) := x.span p
    let base := if x.red == .pre then (x.chunkSpan c).1 / 32 else (x.chunkSpan c).1
    let t := ((x.pieces c).head?).bind (x.tree o.toOwner c)
    let here : Option (PV × Option PHdr × Events × Option AmaxRec) :=
      match s.finished o x c with
      | some (f, ev, amax) => some (slicePV f x.num.b 0 (e0 - base) en, none, ev, amax)
      | none => (edgeInto es x.lay.own).bind fun e =>
          (o.receivedDown kind (x.chunkNo c) p.idx (x.lay.die e.src) (x.bothWays o c p e.src)).map fun r =>
            (r.pv, some r.h, {}, none)
    let mine := o.desc.opcode != opReduceScatter || x.lay.owner c == x.lay.own
    -- a member on the way of a REDUCE_SCATTER chunk that never reaches it has nothing to do
    if o.desc.opcode == opReduceScatter && x.red == .main && !mine && !(es.any fun e => e.src == x.lay.own) then
      some { kind, chunk := c, idx := p.idx, fmt := x.num.out, pv := {} }
    else here.map fun (pv, hdr, ev, amax) =>
      let cls := if hdr.isNone then 1 else 2
      let writes := if x.red != .main || !mine then []
        else if o.desc.opcode == opReduceScatter then
          operandWrites cls x.num.out x.num.b kTotal (x.ownedBelow c + (e0 - base)) 0 pv
        else operandWrites cls x.num.out x.num.b x.n e0 0 pv
      { kind, chunk := x.chunkNo c, idx := p.idx, fmt := if x.red == .main then x.num.out else x.num.acc, pv, hdr
        last := p.idx + 1 == (plan.filter fun y => y.1 == c).length
        step := if hdr.isNone && o.desc.opcode == opUpdate then (o.foreignStep (x.feeds 3 c p)).map (·.2) else none
        edges := ownEdges x.lay opn es, up := false
        rail := fun _ => hdr.isNone && s.finalRail o x t
        operands := if hdr.isNone then (t.map fun t => x.operandBytes t pv.els.length).getD 0 else 0
        rnd := rounds x.lay (x.ks c) (x.parts c p) (x.lay.digit (x.lay.owner c)) false false
        fan := fun i => ((x.ks c)[i]?).getD .halving == .tree
        wkey := if writes.isEmpty then none else some (c, p.idx), writes
        fed := (List.range pv.els.length).any pv.has, ev, amax }

/-- The edges of the items above that the open stages do not allow yet: while any is left, the entry is not done. -/
def edgesLeft (o : Op) (lay : Lay) (kind : Nat) (up : Bool) (keyed : List (Nat × Nat × List Edge)) : Bool :=
  keyed.any fun (chunk, idx, es) => es.any fun e => e.src == lay.own && !(o.coll.sent.contains ⟨kind, chunk, idx, e.dst, up⟩)

/-- The items of UPDATE's all-gather (07 R289, R296, R298, R299); nothing is written before the header is known not to be torn
(R294). -/
def updateItems (s : State) (o : Op) (x : RedCx) : List (Option Item) :=
  let plan := downPlan o x
  let opn := o.edgesOpen x.lay 4 false x.ringAt (x.keyed plan) (List.range x.lay.counts.length).reverse
  let sz := elemSize x.num.out
  let run := scaleRun x.num.b x.touchW
  plan.map fun (c, p, es) =>
    let (e0, en) := x.span p
    let own := x.lay.owner c == x.lay.own
    let k0 := x.ownedBelow c + (e0 - (x.chunkSpan c).1)
    let w := x.touchW
    let rows := if w = 0 then [] else List.range (en / w)
    let here : Option (PV × Option PHdr) :=
      if own then
        if k0 + en ≤ o.upd.formed then
          let tb := rows.map fun r => o.upd.touched.contains ((k0 + r * w) / w)
          let sel := (List.range en).filter fun j => w = 0 || (tb[j / w]?).getD false
          let got := sel.map fun j => tabGet (fun _ => (0, 0)) o.upd.out (k0 + j)
          some ({ els := got.map (·.1), touch := tb
                  scales := if isBlockFmt x.num.out then
                      (List.range (cdiv got.length run)).map fun j => ((got[j * run]?).map (·.2)).getD 127 else [] }, none)
        else none
      else (edgeInto es x.lay.own).bind fun e =>
        (o.receivedDown 4 c p.idx (x.lay.die e.src) false).map fun r => (r.pv, some r.h)
    here.map fun (pv, hdr) =>
      let cls := if own then 1 else 2
      let writes := if !o.upd.headerRead then [] else if w = 0 then operandWrites cls x.num.out x.num.b x.n e0 0 pv
        else
          let tr := rows.filter fun r => (pv.touch[r]?).getD false
          tr.zipIdx.flatMap fun (r, j) =>
            let row : PV := slicePV { els := pv.els, scales := pv.scales } run 0 (j * w) w
            [(cls, (e0 + r * w) * sz, elementBytes x.num.out row.els)] ++
              (if row.scales.isEmpty then [] else [(1, up64 x.n + (e0 + r * w) / x.num.b, row.scales.map (BitVec.ofNat 8))])
      { kind := 4, chunk := c, idx := p.idx, fmt := x.num.out, pv, hdr, edges := ownEdges x.lay opn es, up := false
        rnd := rounds x.lay (x.ks c) (x.parts c p) (x.lay.digit (x.lay.owner c)) false false
        fan := fun i => ((x.ks c)[i]?).getD .halving == .tree
        last := p.idx + 1 == (plan.filter fun y => y.1 == c).length
        step := if own then (firstStep (o.foreignStep (x.feeds 0 c p)) (s.preStep o x c p)).map (·.2) else none
        skew := own && o.coll.skew.isSome && o.coll.skewFrom ≤ x.ownedBelow c
        rail := fun _ => own && s.topLevel o.desc.group == 3
        wkey := if o.upd.headerRead then some (c, p.idx) else none, writes }

/-- The result of a DIGEST: the maximum at DST, the minimum at DST + 8 (10 R407) (in part DEDUCED, log entry 26). -/
def digestItems (s : State) (o : Op) (x : RedCx) : List (Option Item) :=
  (downItems s o x).map fun y => y.map fun it =>
    { it with wkey := some (0, 0)
              writes := [(if it.hdr.isNone then 1 else 2, 0, leBytes 8 ((it.pv.els[0]?).getD 0) ++ leBytes 8 ((it.pv.els[1]?).getD 0))] }

/-! ### Moving opcodes -/

/-- Elements `i0` to `i0 + n - 1` of this member's SRC converted into OUT_FMT (05 R201), once staged. -/
def State.sourcePiece (s : State) (o : Op) (i0 n : Nat) : Option Converted :=
  let d := o.desc
  let b := (s.blockOf d).1
  let size := elemSize d.inFmt
  if s.inputHere o (i0 * size) (n * size) &&
      (!isBlockFmt d.inFmt || s.inputHere o (up64 d.n + i0 / b) (cdiv n b)) then
    let els := readElements o.inBuf d.inFmt b 0 d.n i0 n
    let x := convertEls d.inFmt d.outFmt b 0 (s.roundFor d.round d.outFmt) (entryDraw s o 2) i0 els
    some (if d.inFmt == d.outFmt && isBlockFmt d.inFmt then
      { x with scales := (List.range (cdiv n b)).map fun j => ((els[j * b]?).map (·.scale)).getD 127 } else x)
  else none

def Converted.pv (x : Converted) : PV := { els := x.els, scales := x.scales }

/-- The schemes of ALLGATHER and BROADCAST: `n` grows by the slots below, or stays (05 R202, R203). -/
def State.moveSchemes (s : State) (o : Op) (lay : Lay) : List Scheme :=
  let grow (n p : Nat) : Nat := if o.desc.opcode == opAllgather then n * p else n
  schemesFrom s.image grow (lay.stages.zip lay.counts) (stageBytes o.desc.outFmt (s.blockOf o.desc).1 o.desc.n)

/-- The size of one operand of OUT_FMT: the stride of ALLGATHER's blocks (05 R195). -/
def State.outStride (s : State) (d : Desc) : Nat := operandBytes d.outFmt (s.blockOf d).1 d.n

/-- The plan of ALLGATHER: the pieces of each present position's block with their edges (05 R195, R203). -/
def gatherPlan (s : State) (o : Op) (lay : Lay) : List (Nat × Piece × List Edge) :=
  let ks := s.moveSchemes o lay
  let g := grains o.desc.n
  let mx := parcelGrains o.desc.outFmt (s.blockOf o.desc).1 0
  let ps := cutFrom (fun a => ks.map fun k => partOf k.parts g a) (max 1 mx) g 0 []
  ((List.range lay.m).filter lay.present).flatMap fun q => ps.map fun p =>
    (q, p, lay.gatherEdges ks (ks.map fun k => partOf k.parts g p.grain) q)

/-- Whether the conversion of a moving opcode at its sender passes dual-rail for what is sent at a stage (10 R384, R386). -/
def State.convRail (s : State) (o : Op) (lay : Lay) (i : Nat) : Bool :=
  o.desc.inFmt != o.desc.outFmt && s.levelAt o.desc.group (lay.stage i) == 3

/-- The items of a distribution of pieces: the source has its converted input, the others what they received. `dstAt` gives
the base of a piece's operand in DST and whether it is written here, `rnd` the rounds of a piece's edges. -/
def spreadItems (s : State) (o : Op) (lay : Lay) (ks : List Scheme) (plan : List (Nat × Nat × Piece × List Edge))
    (order : List Nat) (dstAt : Nat → Option Nat) (rnd : Nat → Piece → Edge → Nat) : List (Option Item) :=
  let d := o.desc
  let b := (s.blockOf d).1
  let keyed := plan.map fun (_, c, p, es) => (c, p.idx, es)
  let opn := o.edgesOpen lay 2 true (fun i => ((ks[i]?).getD .halving).isRing) keyed order
  plan.map fun (src, c, p, es) =>
    let (e0, en) := p.elems d.n
    let here : Option (PV × Option PHdr × Events × Option AmaxRec) :=
      if src == lay.own then (s.sourcePiece o e0 en).map fun x => (x.pv, none, x.ev, x.amax)
      else (edgeInto es lay.own).bind fun e =>
        (o.receivedDown 2 c p.idx (lay.die e.src) false).map fun r => (r.pv, some r.h, {}, none)
    here.map fun (pv, hdr, ev, amax) =>
      { kind := 2, chunk := c, idx := p.idx, fmt := d.outFmt, pv, hdr, ev, amax
        last := p.idx + 1 == (plan.filter fun y => y.1 == src && y.2.1 == c).length
        edges := ownEdges lay opn es, rnd := rnd src p
        rail := fun i => hdr.isNone && s.convRail o lay i
        fan := fun i => let k := (ks[i]?).getD .halving; if d.opcode == opBroadcast then !k.isRing else k == .tree
        wkey := (dstAt src).map fun _ => (src, p.idx)
        writes := match dstAt src with
          | some base => operandWrites (if hdr.isNone then 1 else 2) d.outFmt b d.n e0 base pv
          | none => [] }

/-- The items of ALLGATHER (05 R195): the blocks of present positions, and the fill pattern for the absent ones. -/
def gatherItems (s : State) (o : Op) : List (Option Item) :=
  let lay := s.lay o.desc.group
  let d := o.desc
  let b := (s.blockOf d).1
  let stride := s.outStride d
  let fill := (s.group d.group).fill
  let ks := s.moveSchemes o lay
  spreadItems s o lay ks ((gatherPlan s o lay).map fun (q, p, es) => (q, q, p, es))
    (List.range lay.counts.length) (fun p => some (p * stride))
    (fun q p => rounds lay ks (ks.map fun k => partOf k.parts (grains d.n) p.grain) (lay.digit q) false true) ++
  (((List.range lay.m).filter fun p => !lay.present p).map fun p =>
    let pv : PV := { els := List.replicate d.n (fill % 2 ^ (8 * elemSize d.outFmt))
                     scales := if isBlockFmt d.outFmt then List.replicate (cdiv d.n b) 0x7F else [] }
    some { kind := 6, chunk := p, idx := 0, fmt := d.outFmt, pv, wkey := some (p, 0)
           writes := operandWrites 1 d.outFmt b d.n 0 (p * stride) pv })

/-- The items of BROADCAST (05 R196, R203). -/
def castItems (s : State) (o : Op) : List (Option Item) :=
  let lay := s.lay o.desc.group
  let d := o.desc
  let ks := s.moveSchemes o lay
  let root := d.aux32
  let ps := castPieces lay ks d.n (parcelGrains d.outFmt (s.blockOf d).1 0)
  if !lay.present root then [none]
  else spreadItems s o lay ks (ps.map fun p => (root, 0, p, lay.castEdges ks d.n root p))
    (List.range lay.counts.length).reverse (fun _ => if lay.own == root && d.dst == 0 then none else some 0)
    (fun _ p =>
      let share := ks.zipIdx.map fun (k, i) => castShare k (lay.p i) (grains d.n) p.grain
      let ring (i : Nat) : Bool := ((ks[i]?).getD .halving).isRing
      let slot (i : Nat) : Nat := if ring i then ((share[i]?).getD (0, 0)).1 else lay.digit root i
      fun e => (rounds lay (ks.map fun k => if k.isRing then k else .tree) (share.map (·.2)) slot false true e +
        b1 (ring e.si && lay.digit e.dst e.si != slot e.si)) % 16)

/-! #### Rows of ALLTOALL and EXCHANGE (05 R197-R200) -/

/-- The rows that this member sends, as destination position, source row and lane, and the rows it drops (05 R197, R198,
R200). -/
structure Routes where
  sent : List (Nat × Nat × Nat)
  drops : Nat
  deriving DecidableEq, Repr

/-- ALLTOALL's map: rows go out in order, an entry that would be malformed is dropped and counts one (05 R197, R200)
(in part DEDUCED, log entry 19). -/
def alltoallRoutes (rows lanes : Nat) : Nat → Nat → List Nat → List (Nat × Nat × Nat) → Nat → Routes
  | _, given, [], acc, drops => ⟨acc, drops + (rows - given)⟩
  | p, given, e :: es, acc, drops =>
    if alltoallBad rows lanes given e then alltoallRoutes rows lanes (p + 1) given es acc (drops + 1)
    else
      let n := bits e 0 32
      alltoallRoutes rows lanes (p + 1) (given + n) es
        (acc ++ (List.range n).map fun k => (p, given + k, bits e 32 32 + k)) drops

/-- The rows of this member before those to absent positions are taken out. -/
def State.allRoutes (s : State) (o : Op) (lay : Lay) : Routes :=
  let d := o.desc
  let map := if d.staticMap then o.map else bufRead o.mapBuf 0 (8 * s.mapEntries d)
  let es := mapWords map (s.mapEntries d)
  if d.opcode == opExchange then
    es.zipIdx.foldl (fun r (e, i) =>
      if bit e 63 && !(exchangeBad lay.m d.aux32 e) then r
      else if exchangeBad lay.m d.aux32 e then { r with drops := r.drops + 1 }
      else { r with sent := r.sent ++ [(bits e 0 18, i, bits e 20 28)] }) ⟨[], 0⟩
  else if d.aux64 == 0 then
    let b := d.rows / max 1 lay.m
    ⟨(List.range lay.m).flatMap fun p => (List.range b).map fun k => (p, p * b + k, lay.own * b + k), d.rows - b * lay.m⟩
  else alltoallRoutes d.rows d.aux32 0 0 es [] 0

/-- The rows sent, and the drops of 05 R200 at the sender: trailing bytes, absent positions, and a lane beyond L
(in part DEDUCED, log entry 19). -/
def State.routes (s : State) (o : Op) (lay : Lay) : Routes :=
  let r := s.allRoutes o lay
  let ok := r.sent.filter fun (p, _, l) => lay.present p && l < o.desc.aux32
  { sent := ok
    drops := r.drops + (r.sent.length - ok.length) + b1 (o.desc.n % max 1 o.desc.aux16 != 0) }

/-- A run of elements of one row: source row, element in SRC, destination element, length. -/
abbrev Run := Nat × Nat × Nat × Nat

/-- The rows to one position as runs. -/
def rowRuns (w : Nat) (rows : List (Nat × Nat)) : List Run := rows.map fun (r, l) => (r, r * w, l * w, w)

/-- The elements of the rows to one position, one row after another, cut into parcels of `cap` elements (10 R375). -/
def packRows (w cap : Nat) (rows : List (Nat × Nat)) : List (List Run) :=
  let n := rows.length * w
  (List.range (cdiv n cap)).map fun k =>
    let lo := k * cap
    let hi := min n (lo + cap)
    (List.range (cdiv hi w - lo / w)).filterMap fun j =>
      let i := lo / w + j
      let a := max lo (i * w)
      (rows[i]?).map fun (r, l) => (r, r * w + (a - i * w), l * w + (a - i * w), min hi ((i + 1) * w) - a)

/-- One run of converted elements, once staged. -/
def State.runPiece (s : State) (o : Op) (r : Run) : Option Converted := s.sourcePiece o r.2.1 r.2.2.2

/-- Whether the rows' map is here: a dynamic map is read in stream (05 R199). -/
def State.mapHere (s : State) (o : Op) : Bool := s.mapBytes o.desc ≤ o.mapAsked && !(s.rangeBusy o .rowMap 0 (2 ^ 40))

/-- The stage, as an index, that a parcel sent directly to a position travels at: that of the smallest level that contains both dies,
whether the group enables it or not (10 R386). -/
def stageTo (s : State) (lay : Lay) (p : Nat) : Nat :=
  let l := levelOf s.me (lay.die p)
  (lay.stages.findIdx? (· == l)).getD (lay.stages.length + l)

/-- The parcels of rows to one position. A position that gets no row is told so by one empty last parcel, with 0 elements
(05 R200) (DESIGN CHOICE, log entry 19). -/
def rowItemsTo (s : State) (o : Op) (lay : Lay) (cap : Nat) (routes : Routes) (p : Nat) : List (Option Item) :=
  let rows := (routes.sent.filter fun y => y.1 == p).map fun y => y.2
  let ps := packRows (max 1 o.desc.aux16) cap rows
  let ps := if ps.isEmpty then [[]] else ps
  ps.zipIdx.map fun (runs, idx) =>
    let vs := runs.map (s.runPiece o)
    if vs.all (·.isSome) then
      let xs := vs.filterMap id
      some { kind := 2, chunk := p, idx, fmt := o.desc.outFmt, last := idx + 1 == ps.length
             pv := xs.foldl (fun a x => appendPV a x.pv) {}
             lanes := runs.map fun r => (r.1, r.2.2.1)
             edges := [⟨stageTo s lay p, lay.own, p⟩], rail := s.convRail o lay
             ev := xs.foldl (fun a x => a.add x.ev) {}
             amax := xs.foldl (fun a x => match x.amax with
               | some m => mergeAmax a m
               | none => a) none }
    else none

/-- The parcels of one sender's rows, when all of them have arrived. -/
def Op.rowsFrom (o : Op) (me die : Nat) : Option (List RxParcel) :=
  let l := o.coll.rx.filter fun r => r.h.kind == 2 && r.h.chunk == me && r.src == die
  match l.find? (·.h.last) with
  | none => none
  | some e =>
    let got := (List.range (e.h.index + 1)).filterMap fun i => l.find? fun r => r.h.index == i
    if got.length == e.h.index + 1 then some got else none

/-- The runs that a parcel of rows of `w` elements brings, one after another: source row, first destination element and elements; a
run ends with its row or with the parcel (10 R375). -/
def parcelRuns (b w : Nat) (r : RxParcel) : List (Nat × Nat × PV) :=
  (r.lanes.foldl (fun (acc : List (Nat × Nat × PV) × Nat) (row, at_) =>
    let len := min (w - at_ % w) (r.pv.els.length - acc.2)
    (acc.1 ++ [(row, at_, slicePV r.pv b 0 acc.2 len)], acc.2 + len)) ([], 0)).1

/-- All rows that land here, by sender's position, then by source row (05 R200), each with the class of its write: WRITE for a row of
this member, REMOTE for one from another (04 R143); none until every message is complete. -/
def State.landedRows (s : State) (o : Op) (lay : Lay) (routes : Routes) : Option (List (Nat × Nat × Nat × PV)) :=
  let b := (s.blockOf o.desc).1
  let parts := ((List.range lay.m).filter lay.present).map fun p =>
    if p == lay.own then
      let rows := (routes.sent.filter fun y => y.1 == p).map fun y => y.2
      let vs := (rowRuns o.desc.aux16 rows).map fun r => (r, s.runPiece o r)
      if vs.all (·.2.isSome) then some (vs.filterMap fun (r, v) => v.map fun v => (1, r.1, r.2.2.1, v.pv)) else none
    else (o.rowsFrom lay.own (lay.die p)).map fun l => (l.flatMap (parcelRuns b (max 1 o.desc.aux16))).map fun r => (2, r)
  if parts.all (·.isSome) then
    some ((parts.filterMap id).flatMap fun l => sortBy (fun x y => decide (x.2.1 ≤ y.2.1)) l)
  else none

/-- Rows replaced by later ones: lanes that more than one row of the entry filled (05 R200). -/
def collisions (w : Nat) (runs : List (Nat × Nat × PV)) : Nat :=
  let starts := runs.filter fun r => r.2.1 % max 1 w == 0
  starts.length - (starts.map fun r => r.2.1 / max 1 w).eraseDups.length

/-- The items of ALLTOALL and EXCHANGE (05 R197-R200): the rows to every present position, and the write of DST once every
sender's rows have arrived. -/
def rowItems (s : State) (o : Op) : List (Option Item) :=
  let lay := s.lay o.desc.group
  let d := o.desc
  let b := (s.blockOf d).1
  let w := d.aux16
  let total := d.aux32 * w
  if !s.mapHere o then [none]
  else
    let routes := s.routes o lay
    let cap := max 1 (128 * parcelGrains d.outFmt b 0)
    let fill := (s.group d.group).fill
    (((List.range lay.m).filter fun p => lay.present p && p != lay.own).flatMap (rowItemsTo s o lay cap routes)) ++
    [(s.landedRows o lay routes).map fun landed =>
      let runs := landed.map (·.2)
      let own := (rowRuns w ((routes.sent.filter fun y => y.1 == lay.own).map fun y => y.2)).filterMap (s.runPiece o)
      let lanes := (runs.map fun r => r.2.1 / max 1 w).eraseDups
      let fillW := ((List.range d.aux32).filter fun l => !(lanes.contains l)).flatMap fun l =>
        operandWrites 1 d.outFmt b total (l * w) 0
          { els := List.replicate w (fill % 2 ^ (8 * elemSize d.outFmt))
            scales := if isBlockFmt d.outFmt then List.replicate (cdiv w b) 0x7F else [] }
      -- of two rows on one lane the later stands
      let lastOf := landed.zipIdx.filter fun ((_, r), k) =>
        !((runs.drop (k + 1)).any fun y => y.2.1 % max 1 w == 0 && y.2.1 / max 1 w == r.2.1 / max 1 w)
      let rowsW := lastOf.flatMap fun ((cls, r), _) => operandWrites cls d.outFmt b total r.2.1 0 r.2.2
      { kind := 6, chunk := 0, idx := 0, fmt := d.outFmt, pv := {}, wkey := some (0, 0), writes := fillW ++ rowsW
        ev := own.foldl (fun a x => a.add x.ev) {}
        amax := own.foldl (fun a x => match x.amax with
          | some m => mergeAmax a m
          | none => a) none
        spill := routes.drops + collisions w runs }]

/-! #### ROTATE (05 R219-R223) -/

/-- The pieces of a block. -/
def rotatePieces (s : State) (d : Desc) : List Piece :=
  cutFrom (fun _ => []) (max 1 (parcelGrains d.outFmt (s.blockOf d).1 0)) (grains d.n) 0 []

/-- The landing buffer of block `k`, as an offset from DST (05 R220). -/
def rotateBuffer (d : Desc) (k : Nat) : Nat := (k % 2) * up64 d.length

/-- The byte ranges of a piece within an operand in OUT_FMT: elements, then scales. -/
def pieceRanges (s : State) (d : Desc) (p : Piece) : List (Nat × Nat) :=
  let (e0, en) := p.elems d.n
  let b := (s.blockOf d).1
  (e0 * elemSize d.outFmt, en * elemSize d.outFmt) ::
    (if isBlockFmt d.outFmt then [(up64 d.n + e0 / b, cdiv en b)] else [])

/-- Where the forward reads of block `k` stand in the operation's forward buffer. -/
def forwardAt (k : Nat) : Nat := k * 2 ^ 40

/-- The items of ROTATE: the own block at step 1, a forwarded block at each later step as far as the successor has room,
and the landings (05 R220-R222). The CHUNK of a forward holds its step, and its CRC follows by `rewrite`
(DESIGN CHOICE, log entry 23). -/
def rotateItems (s : State) (o : Op) : List (Option Item) :=
  let lay := s.lay o.desc.group
  let d := o.desc
  let b := (s.blockOf d).1
  let ps := rotatePieces s d
  let succ := s.ringAt d.group 1 true
  let pred := s.ringAt d.group 1 false
  let succPos := ((List.range lay.m).find? fun p => lay.die p == succ).getD 0
  let st := stageTo s lay succPos
  (List.range o.rot.total).flatMap fun k0 =>
    let k := k0 + 1
    (ps.map fun p =>
      if o.rot.credits < k then none
      else if k = 1 then
        let (e0, en) := p.elems d.n
        (s.sourcePiece o e0 en).map fun x =>
          { kind := 2, chunk := 1, idx := p.idx, fmt := d.outFmt, pv := x.pv, last := p.idx + 1 == ps.length
            edges := [⟨st, lay.own, succPos⟩], rail := s.convRail o lay, ev := x.ev, amax := x.amax }
      else if o.rot.fwd.contains (k - 1, p.idx) &&
          (pieceRanges s d p).all fun r => !(s.rangeBusy o .forward (forwardAt (k - 1) + r.1) r.2) then
        (o.receivedDown 2 (k - 1) p.idx pred false).map fun r =>
          let bytes := (pieceRanges s d p).flatMap fun x => bufRead o.fwdBuf (forwardAt (k - 1) + x.1) x.2
          let pv := unpackPV 2 d.outFmt r.h.count b false bytes
          { kind := 2, chunk := k, idx := p.idx, fmt := d.outFmt, pv, last := p.idx + 1 == ps.length
            hdr := some r.h, edges := [⟨st, lay.own, succPos⟩] }
      else none) ++
    (ps.map fun p => (o.receivedDown 2 k p.idx pred false).map fun r =>
      { kind := 6, chunk := k, idx := p.idx, fmt := d.outFmt, pv := r.pv, wkey := some (k, p.idx)
        writes := operandWrites 2 d.outFmt b d.n (p.elems d.n).1 (rotateBuffer d k) r.pv })

/-- Landings of a ROTATE that have been acknowledged (05 R220, R222). -/
def rotateLanded (s : State) (o : Op) : State :=
  let d := o.desc
  let ps := rotatePieces s d
  let fresh := o.coll.wrote.filter fun (k, i) => !(o.rot.got.contains (k, i)) &&
    (match ps.find? fun p => p.idx == i with
      | some p => (pieceRanges s d p).all fun r => !(s.resultBusy o (rotateBuffer d k + r.1) r.2)
      | none => false)
  s.updOp o.q o.c fun o => { o with rot := { o.rot with got := o.rot.got ++ fresh } }

/-- The byte ranges of elements of SRC: elements, then scales. -/
def State.inputRanges (s : State) (d : Desc) (i0 n : Nat) : List (Nat × Nat) :=
  let b := (s.blockOf d).1
  (i0 * elemSize d.inFmt, n * elemSize d.inFmt) :: (if isBlockFmt d.inFmt then [(up64 d.n + i0 / b, cdiv n b)] else [])

/-- The pieces that a ROTATE may read to forward them now: those whose landing write is acknowledged, in the order in which they go, as
far as the pair has bytes beside what it holds unsent of the own block and of blocks read before; none while the own block is still read
half by half, since that takes the whole pair (04 R152; 05 R222) (in part DEDUCED, log entry 17). -/
def State.toForward (s : State) (o : Op) : List (Nat × Piece) :=
  let d := o.desc
  let ps := rotatePieces s d
  let sent (k i : Nat) : Bool := o.coll.sent.any fun y => y.kind == 2 && y.chunk == k && y.idx == i
  let held := (o.rot.fwd.filter fun y => !(sent (y.1 + 1) y.2)).length
  let own := ((ps.filter fun p => !(sent 1 p.idx)).flatMap fun p =>
    (s.inputRanges d (p.elems d.n).1 (p.elems d.n).2).map (·.2)).sum
  if o.whole || o.allAsked then
    (((List.range o.rot.total).flatMap fun j => ps.filterMap fun p =>
      let k := j + 1
      if k < o.rot.total && o.rot.got.contains (k, p.idx) && !(o.rot.fwd.contains (k, p.idx)) then some (k, p) else none)).take
        ((pairSize - own) / stagedSize - held)
  else []

/-- Ask for the forward reads that are due (05 R220, R222). -/
def rotateReads (s : State) (q c : Nat) : State :=
  match s.op? q c with
  | none => s
  | some o => (s.toForward o).foldl (fun s (k, p) =>
      (pieceRanges s o.desc p).foldl (fun s r =>
        enqueueRead s q (o.desc.dst + rotateBuffer o.desc k + r.1) r.2 siphonOf
          (fun x => .payload q c .forward (forwardAt k + r.1 + x)))
        (s.updOp q c fun o => { o with rot := { o.rot with fwd := o.rot.fwd ++ [(k, p.idx)] } })) s

/-- Blocks that have landed whole, in order, signal the counter (05 R220). -/
def rotateArrivals (q c : Nat) : Nat → State → State
  | 0, s => s
  | fuel + 1, s => match s.op? q c with
    | none => s
    | some o =>
      let k := o.rot.landedK + 1
      if k ≤ o.rot.total && (rotatePieces s o.desc).all fun p => o.rot.got.contains (k, p.idx) then
        let s := s.updOp q c fun o => { o with rot := { o.rot with landedK := k } }
        rotateArrivals q c fuel (entryChange s o o.desc.sync false 1 kindRotate)
      else s

/-- Blocks whose forward has been acknowledged, in order; the last block is not forwarded (05 R222, R223). -/
def Op.forwardedNow (o : Op) (pieces : Nat) : Nat :=
  ((List.range o.rot.total).takeWhile fun j =>
    let k := j + 1
    k == o.rot.total ||
      (((List.range pieces).all fun i => o.coll.sent.any fun y => y.kind == 2 && y.chunk == k + 1 && y.idx == i) &&
        !(o.kept.any fun y => y.p.h.kind == 2 && y.p.h.chunk == k + 1))).length

/-- ROTATE after something of it has changed. -/
def rotateStep (s : State) (q c : Nat) : State :=
  match s.op? q c with
  | none => s
  | some o =>
    let s := rotateArrivals q c (o.rot.total + 1) (rotateReads (rotateLanded s o) q c)
    let s := s.updOp q c fun o => { o with rot := { o.rot with forwarded := o.forwardedNow (rotatePieces s o.desc).length } }
    let s := rotateWait s q c (o.rot.total + 1)
    match s.op? q c with
    | none => s
    | some o => rotateCredits s o o.rot.total

/-! ### COPY (04 R155-R157) -/

/-- Whether the ranges read and written by a COPY overlap (04 R156). -/
def State.copyOverlaps (s : State) (d : Desc) : Bool :=
  let outB := if d.inFmt == d.outFmt then s.inputBytes d
    else if isBlockFmt d.outFmt then up64 d.n + scaleCount (s.blockOf d).1 (s.blockOf d).2 d.n else d.n * elemSize d.outFmt
  d.src < d.dst + outB && d.dst < d.src + s.inputBytes d

/-- Free bytes for the range written by an overlapping COPY (04 R156). -/
def freeBytes (fresh n : Nat) : List Byte := (List.range n).map fun i => Config.overlapByte (fresh + i)

/-- What is available without a gap from the first piece on: COPY issues in ascending address order (04 R157). -/
def inOrder (l : List (Option Item)) : List (Option Item) :=
  let done := l.takeWhile (·.isSome)
  if done.length == l.length then done else done ++ [none]

/-- The elements of a run of a converting COPY: with column scales a group of blocks (06 R233). -/
def State.copyRun (s : State) (d : Desc) : Nat := if d.scaled && (s.blockOf d).2 == 1 then 128 * (s.blockOf d).1 else 1024

/-- The scale entries, by first and number, of `n` elements that are run `k` of a converting COPY. -/
def State.copyScales (s : State) (d : Desc) (k n : Nat) : Nat × Nat :=
  if (s.blockOf d).2 == 1 then (128 * k, 128) else (s.copyRun d * k / (s.blockOf d).1, cdiv n (s.blockOf d).1)

/-- The byte ranges of SRC that run `k` of a converting COPY takes. -/
def State.copyRanges (s : State) (d : Desc) (k : Nat) : List (Nat × Nat) :=
  let n := min (s.copyRun d) (d.n - s.copyRun d * k)
  let sc := s.copyScales d k n
  (s.copyRun d * k * elemSize d.inFmt, n * elemSize d.inFmt) :: (if isBlockFmt d.inFmt then [(up64 d.n + sc.1, sc.2)] else [])

/-- The scale array of SRC from entry `k` on as COPY takes it over: an entry whose block holds no element is written as 0x7F
(06 R234). -/
def State.copiedScales (s : State) (d : Desc) (k : Nat) (bs : List Byte) : List Byte :=
  bs.zipIdx.map fun (x, j) =>
    let e := k + j
    if (s.blockOf d).2 == 1 && d.n ≤ e / 128 * (128 * (s.blockOf d).1) + e % 128 then 0x7F else x

/-- The items of COPY: bytes unchanged, or elements converted, in runs of 4 KiB of the input, or of a group of column blocks. The scale
bytes follow the elements (04 R157) (in part DESIGN CHOICE, log entry 6). -/
def copyItems (s : State) (o : Op) : List (Option Item) :=
  let d := o.desc
  let (b, dir) := s.blockOf d
  let free := s.copyOverlaps d
  let out (part k : Nat) (ws : List (Nat × List Byte)) (ev : Events) (amax : Option AmaxRec) : Item :=
    { kind := 6, chunk := part, idx := k, fmt := d.outFmt, pv := {}, wkey := some (part, k), ev, amax
      writes := ws.map fun (a, bs) => (1, a, if free then freeBytes (s.fresh + a) bs.length else bs) }
  if d.inFmt == d.outFmt then
    inOrder ((List.range (cdiv (s.inputBytes d) 4096)).map fun k =>
      let n := min 4096 (s.inputBytes d - 4096 * k)
      -- the elements and the scales; the bytes between them are no part of the operand (06 R234)
      let cut (lo hi : Nat) : List (Nat × List Byte) :=
        let a := max lo (4096 * k)
        let z := min hi (4096 * k + n)
        if a < z then [(a, bufRead o.inBuf a (z - a))] else []
      let parts := if d.scaled then cut 0 d.n ++ (cut (up64 d.n) (s.inputBytes d)).map fun y =>
          (y.1, s.copiedScales d (y.1 - up64 d.n) y.2)
        else cut 0 (s.inputBytes d)
      if s.inputHere o (4096 * k) n then some (out 0 k parts {} none) else none)
  else
    let run := s.copyRun d
    let xs := (List.range (cdiv d.n run)).map fun k =>
      let n := min run (d.n - run * k)
      if (s.copyRanges d k).all fun r => s.inputHere o r.1 r.2 then
        let els := readElements o.inBuf d.inFmt b dir d.n (run * k) n
        some (k, convertEls d.inFmt d.outFmt b dir (s.roundFor d.round d.outFmt) (entryDraw s o 2) (run * k) els)
      else none
    inOrder (xs.map (fun y => y.map fun (k, x) =>
        out 0 k [(run * k * elemSize d.outFmt, elementBytes d.outFmt x.els)] x.ev x.amax) ++
      xs.map fun y => y.map fun (k, x) =>
        out 1 k (if x.scales.isEmpty then [] else [(up64 d.n + (s.copyScales d k x.els.length).1, x.scales.map (BitVec.ofNat 8))])
          {} none)

/-! ### How far the output has come (04 R181) -/

/-- Byte ranges of the output that no write covers: what lies between the elements and the scales of an operand, and between operands;
of a ROTATE of one step, buffer 0 (05 R220); and, of an UPDATE, the pieces that have been written, whose untouched rows are not (06
R234; 07 R296). -/
def State.outGaps (s : State) (o : Op) : List (Nat × Nat) :=
  let d := o.desc
  let b := (s.blockOf d).1
  let lay := s.lay d.group
  let (n, stride, count) : Nat × Nat × Nat := match d.opcode with
    | 0x01 => (max 1 d.n, 0, 1)
    | 0x02 => if d.n == 0 then (1, 0, 1) else let x := s.redCx o .main; ((x.owned.map fun c => (x.chunkSpan c).2).sum, 0, 1)
    | 0x03 => (d.n, s.outStride d, lay.m)
    | 0x05 | 0x06 => (d.aux32 * d.aux16, 0, 1)
    | 0x07 => (d.n, up64 d.length, 2)
    | _ => (d.n, 0, 1)
  let els := n * elemSize d.outFmt
  let all := if isBlockFmt d.outFmt then up64 n + scaleCount b (s.blockOf d).2 n else els
  ((List.range count).flatMap fun k =>
    (if isBlockFmt d.outFmt then [(k * stride + els, up64 n - els)] else []) ++
    (if k + 1 < count then [(k * stride + all, stride - all)] else [])) ++
  (if d.opcode == opRotate && o.rot.total == 1 then [(0, stride)] else []) ++
  (if d.opcode == opUpdate then
    let x := s.redCx o .main
    ((downPlan o x).filter fun (c, p, _) => o.coll.wrote.contains (c, p.idx)).flatMap fun (_, p, _) =>
      let (e0, en) := p.elems d.n
      (e0 * elemSize d.outFmt, en * elemSize d.outFmt) :: (if isBlockFmt d.outFmt then [(up64 n + e0 / b, cdiv en b)] else [])
  else [])

/-- Output bytes below which every write is acknowledged (04 R181). Of a buffer that ROTATE writes again, the earlier block's
acknowledgement counts until the later block's write is asked for (DESIGN CHOICE, log entry 27). -/
def State.writePos (s : State) (o : Op) : Nat :=
  let rs := o.acked ++ s.outGaps o
  (s.openXfers o).foldl (fun m x => match x.pur with
    | .result _ _ off => min m off
    | _ => m) (ackedPrefix rs rs.length 0)

/-! ### Arrival tokens (05 R209, R210) -/

/-- The arrival token of an entry at a stage (05 R209). -/
def tokenOf (s : State) (o : Op) (stage : Nat) : Token :=
  let d := o.desc
  let src := bits d.aux16 0 12
  { src := s.me, c := commonOf s d.group stage o.num, opcode := d.opcode, operator := d.operator
    formats := d.inFmt + at_ d.outFmt 4, acc := d.acc, numeric := d.round + at_ (b1 d.strict) 2, v := b1 d.v
    length := d.length
    aux16 := if d.opcode == opAlltoall || d.opcode == opExchange then d.aux16 else 0
    aux32 := if d.opcode == opBroadcast || d.opcode == opAlltoall || d.opcode == opExchange || d.opcode == opRotate
      then d.aux32 else 0
    hash := 0, change := 0
    latchStep := if d.opcode == opDigest then (s.group src).digestStep else 0
    latchValid := d.opcode == opDigest && (s.group src).digestValid
    count := 0, rank := 0, agree0 := false, agree1 := false, gen := if d.opcode == opBarrier then (s.group d.group).gen else 0 }

/-- The stages, as indices, that an entry has reached on this member (05 R209). An opcode without stages of its own reaches
every stage when it starts. -/
def State.reachedStages (s : State) (o : Op) : List Nat :=
  let lay := s.lay o.desc.group
  let all := List.range lay.counts.length
  if o.desc.length == 0 && o.desc.opcode != opBarrier then all
  else match o.desc.opcode with
  | 0x01 | 0x02 | 0x08 =>
    let x := s.redCx o .main
    if x.num.orderFree && o.coll.pre.isNone then s.upOpen o (s.redCx o .pre)
    else (s.upOpen o x) ++ o.coll.reached
  | 0x09 => s.upOpen o (s.redCx o .digest)
  | 0x03 =>
    let ks := s.moveSchemes o lay
    o.edgesOpen lay 2 true (fun i => ((ks[i]?).getD .halving).isRing)
      ((gatherPlan s o lay).map fun (q, p, es) => (q, p.idx, es)) all
  | 0x04 =>
    let ks := s.moveSchemes o lay
    let ps := castPieces lay ks o.desc.n (parcelGrains o.desc.outFmt (s.blockOf o.desc).1 0)
    o.edgesOpen lay 2 true (fun i => ((ks[i]?).getD .halving).isRing)
      (ps.map fun p => (0, p.idx, lay.castEdges ks o.desc.n o.desc.aux32 p)) all.reverse
  | _ => all

/-- Send the arrival tokens of stages newly reached (05 R209). -/
def sendTokens (s : State) (q c : Nat) : State :=
  match s.op? q c with
  | none => s
  | some o =>
    let lay := s.lay o.desc.group
    let new := (s.reachedStages o).filter fun i => !(o.coll.reached.contains i)
    new.foldl (fun s i =>
      let s := s.updOp q c fun o => { o with coll := { o.coll with reached := addTo i o.coll.reached } }
      if s.mayTradeIn o.desc.group then sendAll s (s.peers o.desc.group (lay.stage i)) (.token (tokenOf s o (lay.stage i))) else s) s

/-! ### Level marks and settlement (10 R393-R395) -/

/-- A level mark of an entry for a stage, to every present peer there (10 R394). -/
def sendLevel (s : State) (g stage num : Nat) : State :=
  if s.mayTradeIn g then sendAll s (s.peers g stage) (.level { src := s.me, c := commonOf s g stage num }) else s

/-- Every present peer's level mark for a stage is held (10 R394). -/
def levelHeld (s : State) (g stage : Nat) (held : List (Nat × Nat)) : Bool :=
  (s.peers g stage).all fun d => held.contains (stage, d)

/-- The stages whose marks this member may have sent, given the marks it holds, and whether the entry is settled
(10 R394). -/
def settleWalk (s : State) (g : Nat) (held : List (Nat × Nat)) : List Nat → List Nat × Bool
  | [] => ([], true)
  | st :: rest =>
    if levelHeld s g st held then
      let (l, d) := settleWalk s g held rest
      (st :: l, d)
    else ([st], false)

/-- Advance the settlement of a started entry whose own part is complete. -/
def settleOp (s : State) (q c : Nat) : State :=
  match s.op? q c with
  | none => s
  | some o =>
    if !o.ready || o.ended.isSome then s
    else if !(isGroupWide o.desc.opcode) || o.desc.opcode == opBarrier || o.desc.opcode == opMark then
      s.updOp q c fun o => { o with settled := true }
    else
      let g := o.desc.group
      let (due, done) := settleWalk s g o.marksHeld (enabled (s.gr g).stageMask)
      let s := (due.filter fun st => !(o.marksSent.contains st)).foldl (fun s st => sendLevel s g st o.num) s
      s.updOp q c fun o => { o with marksSent := due, settled := done }

/-- Advance the settlement of the group's entries that completed before they were settled (10 R390, R394). -/
def settleOpen (s : State) (g : Nat) : State :=
  (s.group g).openEntries.foldl (fun s e =>
    let (due, done) := settleWalk s g e.held (enabled (s.gr g).stageMask)
    let s := (due.filter fun st => !(e.sent.contains st)).foldl (fun s st => sendLevel s g st e.num) s
    s.updGroup g fun x => { x with openEntries :=
      (if done then x.openEntries.filter (fun y => y.num != e.num)
        else mapIf (fun y => y.num == e.num) (fun y => { y with sent := due }) x.openEntries) }) s

/-! ### Progress -/

/-- The items of a started entry, by opcode; none stands for one that is not available yet. -/
def State.items (s : State) (o : Op) : List (Option Item) :=
  match o.desc.opcode with
  | 0x01 | 0x02 => let x := s.redCx o .main; upItems s o x ++ downItems s o x
  | 0x08 => let x := s.redCx o .main; upItems s o x ++ updateItems s o x
  | 0x09 => let x := s.redCx o .digest; upItems s o x ++ digestItems s o x
  | 0x03 => gatherItems s o
  | 0x04 => castItems s o
  | 0x05 | 0x06 => rowItems s o
  | 0x07 => rotateItems s o
  | 0x0D => copyItems s o
  | _ => []

/-- The pieces of a BROADCAST with their edges. -/
def castKeyed (s : State) (o : Op) : List (Nat × Nat × List Edge) :=
  let lay := s.lay o.desc.group
  let ks := s.moveSchemes o lay
  let ps := castPieces lay ks o.desc.n (parcelGrains o.desc.outFmt (s.blockOf o.desc).1 0)
  ps.map fun p => (0, p.idx, lay.castEdges ks o.desc.n o.desc.aux32 p)

/-- Whether edges of a reduction's down phase are left to this member. -/
def RedCx.downLeft (x : RedCx) (o : Op) (kind : Nat) : Bool := edgesLeft o x.lay kind false (x.keyed (downPlan o x))

/-- Whether an entry reduces order-free words, after a pre-pass (05 R207). -/
def State.isOrderFree (s : State) (o : Op) : Bool :=
  (o.desc.opcode == opAllreduce || o.desc.opcode == opReduceScatter || o.desc.opcode == opUpdate) &&
    (s.numCtx o.desc).orderFree

/-- The pre-pass still has its result to form or to pass on (05 R207). -/
def State.prepassDue (s : State) (o : Op) : Bool :=
  s.isOrderFree o && (o.coll.pre.isNone || (s.redCx o .pre).downLeft o 3)

/-- Edges out of this member that no item has served yet (stages that have not started). -/
def State.edgesPending (s : State) (o : Op) : Bool :=
  let lay := s.lay o.desc.group
  s.prepassDue o ||
  (match o.desc.opcode with
  | 0x01 | 0x02 => (s.redCx o .main).downLeft o 1
  | 0x08 => (s.redCx o .main).downLeft o 4
  | 0x09 => (s.redCx o .digest).downLeft o 5
  | 0x03 => edgesLeft o lay 2 true ((gatherPlan s o lay).map fun (q, p, es) => (q, p.idx, es))
  | 0x04 => edgesLeft o lay 2 true (castKeyed s o)
  | _ => false)

/-- Run every item of a list of them. -/
def runItems (s : State) (o : Op) (its : List (Option Item)) : State :=
  (its.filterMap id).foldl (runItem (s.lay o.desc.group) o.q o.c) s

/-- The pre-pass of an order-free entry: its items, and the agreed bytes once every chunk of it is here; the input is then read again
for the main reduction (05 R207; 04 R152). -/
def prepassStep (s : State) (o : Op) : State :=
  let x := s.redCx o .pre
  let s := runItems s o (upItems s o x)
  match s.op? o.q o.c with
  | none => s
  | some o =>
    let down := downItems s o x
    let s := runItems s o down
    let bytes := (down.filterMap id).flatMap (·.pv.els)
    if o.coll.pre.isNone && down.all (·.isSome) then
      s.updOp o.q o.c fun o => { o with coll := { o.coll with pre := some bytes }, asked := [], halves := 0, allAsked := false }
    else s

/-- Count the poisoned blocks of the chunks that finish here, once each (06 R263). -/
def countPoison (s : State) (o : Op) : State :=
  let x := s.redCx o .main
  if !x.num.orderFree then s
  else
    let new := (List.range x.lay.m).filter fun c => !(o.coll.finals.contains c) && (s.chunkFinal o x c).isSome
    let n := (new.map fun c => poisonedBlocks (o.coll.pre.getD []) (x.chunkSpan c).1 (x.chunkSpan c).2).sum
    let s := s.updOp o.q o.c fun o => { o with coll := { o.coll with finals := o.coll.finals ++ new } }
    { s with num := { s.num with nonfinite := (s.num.nonfinite + n) % 2 ^ 64 } }

/-! ### Recalls (10 R396-R400) -/

/-- The started entry of the group's present step and run with a number. -/
def State.opNum (s : State) (g num : Nat) : Option Op :=
  s.started.find? fun o => isGroupWide o.desc.opcode && !o.desc.noGroup && o.desc.group == g && o.num == num &&
    o.step == (s.group g).step && o.run == (s.group g).run

/-- The completed entry of the present step with a number. -/
def GroupSt.done? (x : GroupSt) (num : Nat) : Option DoneEntry := x.doneNums.find? fun y => y.num == num

/-- The run that a resume mark begins (10 R376). -/
def GroupSt.nextRun (x : GroupSt) : Nat := (x.run + 1) % 16

/-- A message of the present step and run of a group. -/
def GroupSt.isNow (x : GroupSt) (c : Common) : Bool := c.step == x.step && c.run == x.run

/-- A message of what follows on this member: run 0 of the next step, or the run that its resume weir begins (10 R376, R378). -/
def GroupSt.isNext (x : GroupSt) (c : Common) : Bool :=
  (c.step == wrap32 (x.step + 1) && c.run == 0) ||
    ((x.marking.any fun m => m.resume) && c.step == x.step && c.run == x.nextRun)

/-- A run that has ended on this member (10 R378, R397): one of an earlier step, or of this step but neither the present one nor the one
that a resume mark would begin. A step beyond the next one, as a peer of another step counter has it (07 R298), has not ended. -/
def GroupSt.hasEnded (x : GroupSt) (step run : Nat) : Bool :=
  if step == x.step then run != x.run && run != x.nextRun else 2 ^ 31 ≤ diff32 step x.step

/-- A message names an entry of this step, or an UPDATE under a peer's other step value (07 R299). -/
def GroupSt.marksFor (x : GroupSt) (update : Bool) (c : Common) : Bool := x.isNow c || (update && c.run == x.run)

/-- A recall names an entry that this member has in its present run (10 R398). -/
def State.recallsNow (s : State) (c : Common) : Bool :=
  let x := s.group c.group
  x.isNow c || (!(x.isNext c && x.marking.isSome) && (s.opNum c.group c.entry).any fun o => x.marksFor (o.desc.opcode == opUpdate) c)

/-- The 32 bytes of a recall record (10 R400). -/
def recallBytes (kind flags g step entry run stage chunk origin suspect count tally : Nat) : List Byte :=
  leBytes 1 kind ++ leBytes 1 flags ++ leBytes 2 g ++ leBytes 4 step ++ leBytes 2 entry ++ leBytes 1 run ++
    leBytes 1 stage ++ leBytes 4 chunk ++ leBytes 4 origin ++ leBytes 4 suspect ++ leBytes 4 count ++ leBytes 4 tally

/-- The ring count of a numbered entry on this member: started, completed, or fetched and unstarted (10 R400). -/
def State.countOf (s : State) (g num : Nat) : Nat :=
  match s.opNum g num with
  | some o => o.c
  | none => match (s.group g).done? num with
    | some y => y.count
    | none =>
      let waiting := (s.queue (s.gr g).queue).buffered.filter fun b => isGroupWide b.desc.opcode
      match waiting[num - (s.group g).entryNo]? with
      | some b => if (s.group g).entryNo ≤ num then b.count else 0xFFFFFFFF
      | none => 0xFFFFFFFF

/-- Write a recall record (10 R400). It belongs to no queue; in the turn that queues take among the writes of its class it is given
queue number 257 (04 R144) (DESIGN CHOICE, log entry 14). -/
def recallRecord (s : State) (kind : Nat) (origin completed minority : Bool) (g step entry run stage chunk originDie
    suspect count : Nat) : State :=
  let r := s.integ.log
  let flags := b1 origin + 2 * b1 completed + 4 * b1 minority + 128 * r.phase
  ringRecord s false (recallBytes kind flags g step entry run stage chunk originDie suspect count (s.stamp % 2 ^ 32))

/-- Statuses of the started entries under a recall: the named one RECALLED, the others HALTED (10 R398). -/
def endRecalled (num : Nat) : Op → Nat := fun o =>
  if isGroupWide o.desc.opcode && o.num == num then codeRecalled else codeHalted

/-- The entry that a recall names, where it is started here and an earlier halt has ended it, completes with RECALLED (10 R398). -/
def recallNamed (s : State) (g num : Nat) : State :=
  let hit (o : Op) : Bool := isGroupWide o.desc.opcode && !o.desc.noGroup && o.desc.group == g && o.num == num &&
    o.step == (s.group g).step && o.run == (s.group g).run && o.ended == some codeHalted
  { s with ops := mapIf hit (fun o => { o with ended := some codeRecalled }) s.ops }

/-- A recall takes hold here: halt, tell the peers, write the record, once for each entry and chunk of a run (10 R396-R399). Of one for
the step or run that follows, no entry has been fetched here as its own. CHUNK 2^18 names every chunk (in part DEDUCED, log entry 24). -/
def takeRecall (s : State) (m : RecallMsg) (origin : Bool) : State :=
  let g := m.c.group
  let x := s.group g
  let now := s.recallsNow m.c
  let chunk := m.chunk + (if m.all then 2 ^ 18 else 0)
  let key := (m.c.step, m.c.run, m.c.entry, chunk)
  if x.recalls.contains key then s
  else
    let count := if now then s.countOf g m.c.entry else 0xFFFFFFFF
    let done := now && (x.done? m.c.entry).isSome
    let s := s.updGroup g fun x => { x with recalls := x.recalls ++ [key] }
    let s := if x.halted then (if now then recallNamed s g m.c.entry else s) else
      let s := haltGroup s g haltFault (if now then endRecalled m.c.entry else endHalted)
      dropHeld (if origin then (writeDump s 2 g).1 else s) g
    let s := if s.mayTradeIn g then sendAll s (s.allPeers g) (.recall { m with src := s.me }) else s
    recallRecord s m.kind origin done false g m.c.step m.c.entry m.c.run m.c.stage chunk m.origin m.suspect count

/-- A check fails at this engine on something it has passed on (10 R396). -/
def raiseRecall (s : State) (g stage num chunk kind suspect : Nat) : State :=
  takeRecall (s.updInteg fun i => { i with recallRaised := true })
    { src := s.me, c := commonOf s g stage num, chunk, all := false, origin := s.me, suspect, kind } true

/-! ### Checks and repairs (10 R382, R391, R392, R410) -/

/-- Count a failed CRC (10 R410). -/
def countCrc (s : State) : State :=
  s.updInteg fun i => { i with crcSeen := true, crcErrors := (i.crcErrors + 1) % 2 ^ 64 }

/-- Count a failed residue (10 R410). -/
def countResidue (s : State) : State :=
  s.updInteg fun i => { i with residueSeen := true, residueErrors := (i.residueErrors + 1) % 2 ^ 64 }

/-- A repair has failed (10 R392). -/
def repairFailed (s : State) (g : Nat) : State :=
  haltOnFault (s.updInteg fun i => { i with repairFailed := true }) g haltFault endFault

/-- The repair of a piece of an entry has failed, with its record (10 R392; 11 R415): the check that failed, the unit, the stage, the
chunk and the parcel. -/
def repairFails (s : State) (o : Op) (type unit stage chunk idx : Nat) : State :=
  makeRecord (repairFailed s o.desc.group)
    { type := 0x07, action := 5, unit, operation := o.desc.opcode, stage, group := o.desc.group, step := o.step, count := o.c
      s0 := type, s1 := chunk, s2 := idx }

/-- The comparison of an owner's own sums of order-free words with their residues, each once, before they are rounded (10 R382). A sum
whose operands were wrong stays wrong when it is formed again on another pump, so its repair fails (R391, R392); under flow it has been
passed on by then and is recalled (R390, R396). The warden judges the pump by repeats, which give the same wrong sum again on any pump (11
R420-R422) (in part DEDUCED, log entries 23 and 31). -/
def checkSums (s : State) (o : Op) : State :=
  let x := s.redCx o .main
  if !x.num.orderFree || s.topLevel o.desc.group < 1 then s
  else
    let fresh := (List.range x.lay.m).flatMap fun c => (x.pieces c).filterMap fun p =>
      if o.coll.sums.contains (c, p.idx) then none else (s.pieceFinal o x c p).map fun f => (c, p, f)
    let s := s.updOp o.q o.c fun o => { o with coll := { o.coll with sums := o.coll.sums ++ fresh.map fun y => (y.1, y.2.1.idx) } }
    let found (y : Nat × Piece × Part) : Nat :=
      payloadResidue x.num.acc (o.coll.pre.getD []) (y.2.1.elems x.n).1 y.2.2.pv.els
    match fresh.find? fun y => found y != y.2.2.residue with
    | none => s
    | some (c, p, f) =>
      let pump := s.railA o.desc.group c p.idx
      let stage := ((enabled (s.gr o.desc.group).stageMask).getLast?).getD 0
      let (s, verdict, acts, short) := judgeFault (countResidue s) ⟨pump, o.desc.group, o.num, c, p.idx⟩ 0x05 ⟨false, false, false, true⟩ true false
      let s := checkFailed s
        { type := 0x05, verdict, action := firstAction (5 :: acts), capped := short, unit := pump, operation := o.desc.opcode, stage, group := o.desc.group, step := o.step
          count := o.c, s0 := c, s1 := p.idx, s2 := f.residue, s3 := found (c, p, f) }
      if (s.gr o.desc.group).flow then raiseRecall s o.desc.group stage o.num c 1 s.me else repairFails s o 0x05 pump stage c p.idx

/-- What the refiner does for an entry whose gradients may have advanced (07 R289-R296). -/
def updateStep (s : State) (o : Op) : State :=
  if o.desc.opcode == opUpdate then refine o.q o.c ((s.stLay o (s.redCx o .main)).k / 32 + 8) s else s

/-! ### Inputs larger than a pair (04 R152) -/

/-- Byte ranges of the input, and whether what stands there has been consumed. -/
abbrev Need := List (Nat × Nat) × Bool

/-- The same with the mask of those elements, which is read with them (05 R190). -/
def State.maskedRanges (s : State) (d : Desc) (i0 n : Nat) : List (Nat × Nat) :=
  s.inputRanges d i0 n ++ (if d.masked then [(maskAt + (maskRange i0 n).1, (maskRange i0 n).2)] else [])

/-- Whether a range of what an entry asks for is staged: of its input, or of its mask. -/
def State.askedHere (s : State) (o : Op) (r : Nat × Nat) : Bool :=
  if r.1 < maskAt then s.inputHere o r.1 r.2
  else o.pair == .held && o.hasAsked r.1 r.2 && !(s.rangeBusy o .mask (r.1 - maskAt) r.2)

/-- A need that is consumed as soon as it is staged. -/
def State.onArrival (s : State) (o : Op) (rs : List (Nat × Nat)) : Need := (rs, rs.all (s.askedHere o))

/-- The combination or passing on of a tree whose operand is a position's own contribution. -/
def RTree.useAt (me : Nat) : RTree → Option RTree
  | .leaf _ => none
  | .node si p l r =>
    if l == .leaf me || r == .leaf me then some (.node si p l r) else (l.useAt me).orElse fun _ => r.useAt me
  | .move si p t => if t == .leaf me then some (.move si p t) else t.useAt me

/-- The stage, as an index, at the root of a tree. -/
def RTree.stageOf : RTree → Nat
  | .leaf _ => 0
  | .node si _ _ _ => si
  | .move si _ _ => si

/-- The own contributions to a reduction, in the order in which its stages take them. -/
def State.leafNeeds (s : State) (o : Op) (x : RedCx) : List Need :=
  let me := x.lay.own
  let us := (x.all o.toOwner).filterMap fun (c, p, t) =>
    if t == .leaf me then some (0, s.onArrival o (s.maskedRanges o.desc (x.span p).1 (x.span p).2))
    else (t.useAt me).map fun n => (n.stageOf, (s.maskedRanges o.desc (x.span p).1 (x.span p).2,
      if n.loc == me then ((s.evalCx o x c p).eval n).isSome
      else o.coll.sent.contains ⟨x.red.kind, x.chunkNo c, p.idx, n.loc, true⟩))
  (sortBy (fun a b => decide (a.1 ≤ b.1)) us).map (·.2)

/-- The rows of ALLTOALL and EXCHANGE, by the parcels that take them, then those that stay here or go nowhere. -/
def State.rowNeeds (s : State) (o : Op) (lay : Lay) : List Need :=
  let d := o.desc
  let w := max 1 d.aux16
  let routes := s.routes o lay
  let cap := max 1 (128 * parcelGrains d.outFmt (s.blockOf d).1 0)
  let far := ((List.range lay.m).filter fun p => lay.present p && p != lay.own).flatMap fun p =>
    (packRows w cap ((routes.sent.filter fun y => y.1 == p).map fun y => y.2)).zipIdx.map fun (runs, idx) =>
      (runs.flatMap fun r => s.inputRanges d r.2.1 r.2.2.2, o.coll.sent.contains ⟨2, p, idx, p, true⟩)
  let near := (List.range d.rows).filter fun r => !(routes.sent.any fun y => y.1 != lay.own && y.2.1 == r)
  far ++ (near.map fun r => s.onArrival o (s.inputRanges d (r * w) w)) ++
    (if d.rows * w < d.n then [s.onArrival o (s.inputRanges d (d.rows * w) (d.n - d.rows * w))] else [])

/-- What an entry needs of its input, in the order in which it is consumed; nothing while its map is not here
(in part DEDUCED, log entry 17). -/
def State.needs (s : State) (o : Op) : List Need :=
  let d := o.desc
  let lay := s.lay d.group
  let piece (p : Piece) (taken : Bool) : Need := (s.inputRanges d (p.elems d.n).1 (p.elems d.n).2, taken)
  match d.opcode with
  | 0x01 | 0x02 | 0x08 =>
    if s.isOrderFree o && o.coll.pre.isNone then
      (List.range (cdiv d.n 1024)).map fun k => s.onArrival o (s.maskedRanges d (1024 * k) (min 1024 (d.n - 1024 * k)))
    else s.leafNeeds o (s.redCx o .main)
  | 0x03 => ((gatherPlan s o lay).filter fun y => y.1 == lay.own).map fun (q, p, _) => piece p (o.coll.wrote.contains (q, p.idx))
  | 0x04 =>
    let ks := s.moveSchemes o lay
    (castPieces lay ks d.n (parcelGrains d.outFmt (s.blockOf d).1 0)).map fun p =>
      piece p (o.coll.wrote.contains (d.aux32, p.idx) || (d.dst == 0 &&
        ((lay.castEdges ks d.n d.aux32 p).all fun e => e.src != lay.own || o.coll.sent.contains ⟨2, 0, p.idx, e.dst, true⟩)))
  | 0x05 | 0x06 => if s.mapHere o then s.rowNeeds o lay else []
  | 0x07 => (rotatePieces s d).map fun p =>
      piece p (o.coll.sent.any fun y => y.kind == 2 && y.chunk == 1 && y.idx == p.idx)
  | 0x0D =>
    if d.inFmt == d.outFmt then (List.range (cdiv (s.inputBytes d) 4096)).map fun k =>
      ([(4096 * k, min 4096 (s.inputBytes d - 4096 * k))], o.coll.wrote.contains (0, k))
    else (List.range (cdiv d.n (s.copyRun d))).map fun k => (s.copyRanges d k, o.coll.wrote.contains (0, k))
  | _ => []

/-- Bytes `lo` to `hi - 1` of ranges laid one after another from `pos` on. -/
def cutRanges (lo hi : Nat) : Nat → List (Nat × Nat) → List (Nat × Nat)
  | _, [] => []
  | pos, (a, n) :: rest =>
    let z := max lo pos
    let w := min hi (pos + n)
    (if z < w then [(a + (z - pos), w - z)] else []) ++ cutRanges lo hi (pos + n) rest

/-- Ranges with neighbours joined. -/
def joinRanges (rs : List (Nat × Nat)) : List (Nat × Nat) :=
  (rs.foldl (fun (l : List (Nat × Nat)) r => match l with
    | (a, n) :: rest => if a + n == r.1 then (a, n + r.2) :: rest else r :: (a, n) :: rest
    | [] => [r]) []).reverse

/-- Whether all needs that meet bytes `lo` to `hi - 1` of the needs laid one after another have been consumed. -/
def takenWithin (lo hi : Nat) : Nat → List Need → Bool
  | _, [] => true
  | pos, (rs, t) :: rest =>
    let n := (rs.map (·.2)).sum
    (t || pos + n ≤ lo || hi ≤ pos) && takenWithin lo hi (pos + n) rest

/-- Fill the halves of a pair in turn, each once the consumer has released what it held (04 R152). -/
def moreReads (q c : Nat) : Nat → State → State
  | 0, s => s
  | fuel + 1, s => match s.op? q c with
    | none => s
    | some o =>
      if o.whole || o.allAsked || o.pair != .held || o.probeAt.isSome || o.ended.isSome then s
      else
        let ns := s.needs o
        let h := o.halves
        if ns.isEmpty || !(h < 2 || takenWithin ((h - 2) * halfSize) ((h - 1) * halfSize) 0 ns) then s
        else
          let all := ns.flatMap (·.1)
          let rs := joinRanges (cutRanges (h * halfSize) ((h + 1) * halfSize) 0 all)
          let r : Region := if o.windowHit.isSome then .window else .src
          let s := s.updOp q c fun o => { o with
            asked := joinRanges (o.asked ++ rs), halves := h + 1, allAsked := (all.map (·.2)).sum ≤ (h + 1) * halfSize }
          moreReads q c fuel (rs.foldl (fun s y =>
            if y.1 < maskAt then readRegion s o r (o.inBase + y.1) y.1 y.2
            else readRegion s o .mask (o.desc.aux64 + (y.1 - maskAt)) (y.1 - maskAt) y.2) s)

/-! ### The end of the own part (10 R393; 05 R212) -/

/-- The own part of an entry is complete (10 R393): every item done, all input read, nothing kept, nothing outstanding, and the
refiner or the releases finished. -/
def State.partDone (s : State) (o : Op) : Bool :=
  let its := s.items o
  (its.all fun y => match y with
    | some it => o.itemDone it
    | none => false) &&
  !(s.edgesPending o) && (o.whole || o.allAsked || o.pair != .held) && o.kept.isEmpty && (s.openXfers o).isEmpty &&
  (o.desc.opcode != opUpdate || s.refined o) &&
  (o.desc.opcode != opRotate || (o.rot.released == o.rot.total && o.rot.landedK == o.rot.total))

/-- Whether an upward parcel of a reduction has still to come. -/
def RedCx.upDue (x : RedCx) (o : Op) : Bool :=
  (x.all o.toOwner).any fun (c, p, t) => (t.ins x.lay.own).any fun (_, pos) =>
    (o.received x.red.kind (x.chunkNo c) p.idx (x.lay.die pos)).isEmpty

/-- Whether a downward parcel of a reduction has still to come. -/
def RedCx.downDue (x : RedCx) (o : Op) (kind : Nat) : Bool :=
  (downPlan o x).any fun (c, p, es) => es.any fun e => e.dst == x.lay.own &&
    (o.receivedDown kind (x.chunkNo c) p.idx (x.lay.die e.src) (x.bothWays o c p e.src)).isNone

/-- Whether a parcel of a distribution has still to come. -/
def Op.edgesDue (o : Op) (lay : Lay) (keyed : List (Nat × Nat × List Edge)) : Bool :=
  keyed.any fun (chunk, idx, es) => es.any fun e => e.dst == lay.own && (o.received 2 chunk idx (lay.die e.src)).isEmpty

/-- Whether parcels of an entry, or ROTATE's credits, have still to come from peers. -/
def State.parcelsDue (s : State) (o : Op) : Bool :=
  let lay := s.lay o.desc.group
  match o.desc.opcode with
  | 0x01 | 0x02 | 0x08 =>
    let x := s.redCx o .main
    let pre := s.redCx o .pre
    (s.isOrderFree o && (pre.upDue o || pre.downDue o 3)) || x.upDue o || x.downDue o (if o.desc.opcode == opUpdate then 4 else 1)
  | 0x09 => let x := s.redCx o .digest; x.upDue o || x.downDue o 5
  | 0x03 => o.edgesDue lay ((gatherPlan s o lay).map fun (q, p, es) => (q, p.idx, es))
  | 0x04 => o.edgesDue lay (castKeyed s o)
  | 0x05 | 0x06 => ((List.range lay.m).filter fun p => lay.present p && p != lay.own).any fun p =>
      (o.rowsFrom lay.own (lay.die p)).isNone
  | 0x07 =>
    let pred := s.ringAt o.desc.group 1 false
    o.rot.credits < o.rot.total || (List.range o.rot.total).any fun k => (rotatePieces s o.desc).any fun p =>
      (o.received 2 (k + 1) p.idx pred).isEmpty
  | _ => false

/-- Whether a started group-wide entry waits on no peer: every token, every parcel, every credit and every acknowledgement that is to
come has come (05 R212) (in part DEDUCED, log entry 24). -/
def State.waitsAlone (s : State) (o : Op) : Bool :=
  let g := o.desc.group
  o.kept.isEmpty && !(s.parcelsDue o) && (enabled (s.gr g).stageMask).all fun st => (s.peers g st).all fun d =>
    o.slow.any fun r => r.stage == st && r.arrived.contains d

/-- The opcodes that the items serve. -/
def isMover (opcode : Nat) : Bool := (1 ≤ opcode && opcode ≤ 9) || opcode == opCopy

/-- Do something with an operation that has not ended. -/
def onOp (q c : Nat) (f : State → Op → State) (s : State) : State :=
  match s.op? q c with
  | none => s
  | some o => if o.ended.isSome then s else f s o

/-- The pieces of a started operation that can go on: the pre-pass of order-free words first, then the main reduction with its checks,
or what the opcode moves. Under flow a sum is passed on before its check is made (10 R390). -/
def runPieces (s : State) (q c : Nat) : State :=
  let held (s : State) (o : Op) : Bool := s.isOrderFree o && o.coll.pre.isNone
  let s := onOp q c (fun s o => if s.prepassDue o then prepassStep s o else s) s
  let s := onOp q c (fun s o => if held s o then s else countPoison s o) s
  let check (flow : Bool) (s : State) : State :=
    onOp q c (fun s o => if held s o || (s.gr o.desc.group).flow != flow then s else checkSums s o) s
  let s := check false s
  let s := onOp q c (fun s o => if held s o then s else updateStep s o) s
  let s := check true (onOp q c (fun s o => if held s o then s else runItems s o (s.items o)) s)
  onOp q c (fun s o => if o.desc.opcode == opRotate then rotateStep s q c else s) s

/-- The own part of an operation may be complete now; until then, whether it waits on peers is noted. -/
def closePart (s : State) (o : Op) : State :=
  let done := s.partDone o
  let alone := !done && isGroupWide o.desc.opcode && s.waitsAlone o
  settleOp (s.updOp o.q o.c fun o => { o with ready := done, alone }) o.q o.c

/-- Advance a started operation as far as it can go. Payload is held while budget is lent (08 R322). -/
def progress (s : State) (q c : Nat) : State :=
  match s.op? q c with
  | none => s
  | some o =>
    if !o.running || o.ended.isSome || o.ready || s.sync.lent || o.pause.isSome || !(isMover o.desc.opcode) then s
    else if o.desc.length == 0 then
      let s := if isGroupWide o.desc.opcode then sendTokens s q c else s
      settleOp (if (s.openXfers o).isEmpty then s.updOp q c fun o => { o with ready := true } else s) q c
    else
      let tokens (s : State) : State := if isGroupWide o.desc.opcode then sendTokens s q c else s
      let more (s : State) : State := moreReads q c 4 (readMapHalves q c 2 s)
      onOp q c closePart (more (tokens (runPieces (more (tokens s)) q c)))

/-- Advance an operation until its own writes of one round have opened no further item. -/
def progressN (q c : Nat) : Nat → State → State
  | 0, s => s
  | fuel + 1, s => progressN q c fuel (progress s q c)

/-- Advance an operation: three rounds bring every item that one event can open, an upward one, a downward one and the
end of the own part. -/
def advance (s : State) (q c : Nat) : State := progressN q c 3 s

/-- Advance every operation. -/
def advanceAll (s : State) : State := s.ops.foldl (fun s o => advance s o.q o.c) s

end Sys2Proof.Machine
end

