-- ==== Sys2Proof/Machine/Arrivals.lean ====
section
/-! DEFINITION. What arrives for a group: tokens and the comparison of entries (05 R209, R210; 03 R133), message weirs of
BARRIER, MARK and resume (08 R329-R331; 02 R77-R83), parcels with their checks and answers (10 R376-R392), level marks
(R394) and recalls (R396-R400). -/

namespace Sys2Proof.Machine

/-- Something of a group arrives: its step timer restarts, and quiescence ends (05 R212; 08 R322). -/
def groupStirs (s : State) (g : Nat) : State := restartTimer (s.updSync fun y => { y with quietSince := none }) g

/-- This engine's own entry in a group is ADMIT (02 R80, R92). -/
def State.ownAdmit (s : State) (g : Nat) : Bool := (s.ownEntry g).any fun m => m.state == stAdmit

/-- Whether this engine takes part in the weirs of a group: a quarantined one only where its own entry is ADMIT (02 R92). One without an
identity (02 R90) takes part in none: R92's exception does not name it, and no mark of its own can match (DESIGN CHOICE, log entry 24). -/
def State.mayWeir (s : State) (g : Nat) : Bool :=
  s.mayTradeIn g || (s.ownAdmit g && !s.keeper.idFail && !s.warden.withdrawn)

/-- The group of a die at a stage lists a die (05 R185; 02 R80). -/
def State.isPeer (s : State) (g st die : Nat) : Bool :=
  die != s.me && (s.slots g st).any fun x => x.2.dieAddr == die && (x.2.present || x.2.state == stAdmit)

/-- A die that a group's table lists at a stage as being admitted (02 R80). -/
def State.peerAdmit (s : State) (g st die : Nat) : Bool :=
  (s.slots g st).any fun x => x.2.dieAddr == die && x.2.state == stAdmit

/-- A MARK or resume token that a member being admitted sends or receives: its STEP, RUN and ENTRY are not compared, since
such a member takes its step counter from the mark itself (02 R80) (in part DEDUCED, log entry 24). -/
def State.admitTok (s : State) (t : Token) : Bool :=
  t.opcode == opMark && (s.ownAdmit t.c.group || s.peerAdmit t.c.group t.c.stage t.src)

/-! ### Arrivals (05 R210) -/

/-- Note the arrival of a peer at a stage. -/
def noteSlow (rs : List SlowRec) (stage die now : Nat) : List SlowRec :=
  if rs.any fun r => r.stage == stage then
    mapIf (fun r => r.stage == stage) (fun r =>
      if r.arrived.contains die then r else { r with last := now, die, arrived := r.arrived ++ [die] }) rs
  else rs ++ [{ stage, first := now, last := now, die, arrived := [die] }]

/-- Whether the values of two arrival tokens differ (03 R133; 05 R201; 10 R406). -/
def tokensDiffer (t x : Token) : Bool :=
  t.opcode != x.opcode || t.operator != x.operator || t.formats != x.formats || t.acc != x.acc || t.numeric != x.numeric ||
    t.v != x.v || t.length != x.length || t.aux16 != x.aux16 || t.aux32 != x.aux32 || t.latchStep != x.latchStep ||
    t.latchValid != x.latchValid

/-- Whether a token's fields differ from those of this member's own entry (03 R133). -/
def tokenDiffers (s : State) (o : Op) (t : Token) : Bool := tokensDiffer t (tokenOf s o t.c.stage)

/-- The arrival tokens of an entry that this member holds. -/
def State.toksOf (s : State) (o : Op) : List (Nat × Token) :=
  (s.group o.desc.group).toks.filter fun t => t.2.c.entry == o.num && t.2.c.step == o.step && t.2.c.run == o.run

/-! ### BARRIER (08 R329-R332) -/

/-- The engine inverts its input on a barrier wire (08 R326). -/
def invertInput (s : State) (w : Nat) : State := s.setWeir w { s.weir w with input := !(s.weir w).input }

/-- The group phase is complete: release over the wire, or the end (08 R329). -/
def barrierRelease (s : State) (o : Op) : State :=
  if bit o.desc.aux16 6 then
    invertInput (s.updOp o.q o.c fun o => { o with bar := 2 }) (bits o.desc.aux16 0 6)
  else settleOp (s.updOp o.q o.c fun o => { o with bar := 3, ready := true }) o.q o.c

/-- The group phase of a BARRIER: each stage is reached once every peer of the one below has arrived in this generation
(08 R329, R330) (in part DEDUCED, log entry 24). -/
def barrierWalk (o : Op) : List (Nat × Nat) → State → State
  | [], s => barrierRelease s o
  | (i, st) :: rest, s =>
    let s := if o.coll.reached.contains i then s
      else
        let s := s.updOp o.q o.c fun o => { o with coll := { o.coll with reached := addTo i o.coll.reached } }
        if s.mayTradeIn o.desc.group then sendAll s (s.peers o.desc.group st) (.token (tokenOf s o st)) else s
    if (s.peers o.desc.group st).all fun d => (s.toksOf o).any fun t =>
        t.2.src == d && t.2.c.stage == st && t.2.gen == (s.group o.desc.group).gen then
      barrierWalk o rest s
    else s

/-- Advance a BARRIER in its group phase. -/
def barrierStep (s : State) (q c : Nat) : State :=
  match s.op? q c with
  | none => s
  | some o =>
    if o.desc.opcode == opBarrier && o.running && o.ended.isNone && o.bar == 1 then
      let st := enabled (s.gr o.desc.group).stageMask
      barrierWalk o ((List.range st.length).zip st) s
    else s

/-- A BARRIER starts: the die entry first, with the misuse of R331, else the group phase. -/
def barrierStart (s : State) (o : Op) : State :=
  let g := o.desc.group
  let s := s.updGroup g fun x => { x with genActive := true }
  if bit o.desc.aux16 6 then
    let n := bits o.desc.aux16 0 6
    let w := s.weir n
    if w.entered then
      haltMismatched ((s.setWeir n { w with misuse := true }).updSync fun y => { y with weirMisuse := true }) g
    else invertInput s n
  else barrierStep (s.updOp o.q o.c fun o => { o with bar := 1 }) o.q o.c

/-- SENSE of a wire has changed: the BARRIER that waits for it goes on (08 R329, R337). -/
def senseChanged (s : State) (n : Nat) : State :=
  let mine (o : Op) : Bool := o.desc.opcode == opBarrier && o.running && o.ended.isNone && bit o.desc.aux16 6 &&
    bits o.desc.aux16 0 6 == n && (o.bar == 0 || o.bar == 2)
  (s.ops.filter mine).foldl (fun s o =>
    if o.bar == 0 then barrierStep (s.updOp o.q o.c fun o => { o with bar := 1 }) o.q o.c
    else settleOp (s.updOp o.q o.c fun o => { o with bar := 3, ready := true }) o.q o.c) s

/-! ### The weirs of MARK and resume (02 R77, R79, R83) -/

/-- Peers that a MARK or resume weir sends to at a stage: present ones and those being admitted; at a resume without those
pending eviction. -/
def State.weirSends (s : State) (g st : Nat) (resume : Bool) : List Nat :=
  ((s.slots g st).filter fun x => x.2.dieAddr != s.me && (x.2.present || x.2.state == stAdmit) &&
    !(resume && x.2.state == stEvict)).map (·.2.dieAddr)

/-- The number of this member's MARK. -/
def State.markNum (s : State) (g : Nat) : Nat :=
  match (s.group g).markOp with
  | some (q, c) => ((s.op? q c).map (·.num)).getD 0
  | none => 0

/-- Whether a token belongs to the weir that runs: a resume token of the next run, or a MARK of this step with this
number; the numbers of a member being admitted are not compared (02 R80, R83; 12 R461). -/
def State.weirTok (s : State) (g : Nat) (resume : Bool) (t : Token) : Bool :=
  let x := s.group g
  t.opcode == opMark &&
    (if resume then t.c.entry == 0xFFFF && (s.admitTok t || t.c.run == x.nextRun)
     else t.c.entry != 0xFFFF &&
       (s.admitTok t || (t.c.step == x.step && t.c.run == x.run && t.c.entry == s.markNum g)))

/-- The token of a peer at a stage of the weir that runs. -/
def State.weirFrom (s : State) (g : Nat) (resume : Bool) (st die : Nat) : Option Token :=
  ((s.group g).toks.find? fun t => t.2.src == die && t.2.c.stage == st && s.weirTok g resume t.2).map (·.2)

/-- The tokens that have come at a stage of the weir, with the peer of each. -/
def State.weirCame (s : State) (g st : Nat) (resume : Bool) : List (Nat × Token) :=
  (s.weirSends g st resume).filterMap fun d => (s.weirFrom g resume st d).map fun t => (d, t)

/-- The staged hash that this member's weir carries (02 R77). -/
def State.weirHash (s : State) (g : Nat) : W64 := ((s.group g).marking.map (·.hash)).getD 0

/-- The tokens at a stage of the peers that take part in the weir: a member being admitted takes part if its token has come
and carries this member's staged hash (02 R80, R83). -/
def State.weirGot (s : State) (g st : Nat) (resume : Bool) : List (Nat × Token) :=
  (s.weirCame g st resume).filter fun (d, t) => !(s.peerAdmit g st d) || t.hash == s.weirHash g

/-- The pending changes of a group, as a weir carries them from its start on (02 R79) (in part DEDUCED, log entry 24). -/
def State.pending_ (s : State) (g : Nat) : List PendRec :=
  ((s.groupEntries g).filter fun x => x.2.state == stAdmit || x.2.state == stEvict).map fun x =>
    { stage := x.2.stage, dieAddr := x.2.dieAddr, state := x.2.state, idCheck := x.2.idCheck }

/-- The change hash of a stage over the pending changes of a weir (02 R79). -/
def MarkSt.changeHash (m : MarkSt) (st : Nat) : W64 :=
  Config.changeHash ((m.pend.filter fun p => p.stage == st).map fun p => (p.dieAddr, p.state, p.idCheck))

/-- STRUCT_HASH of the staged image, or 0 (02 R77). -/
def State.stagedHash (s : State) : W64 := if s.img.loader == .staged then ((s.img.staged).map (·.hash)).getD 0 else 0

/-- Two dies differ only in the levels that the given stages cover: they are members of one domain (02 R77). -/
def sameDomain (mask : Nat) (sts : List Nat) (a b : Nat) : Bool :=
  [1, 2, 3, 4].all fun l => !levelDiff a b l || sts.contains (coverStage mask l)

/-- The present members of a die's domain over some stages, the die itself apart, by this engine's own table and the roster
(in part DEDUCED, log entries 19 and 24). -/
def State.regionCount (s : State) (g : Nat) (sts : List Nat) (die : Nat) : Nat :=
  ((s.image.rosterOf g).zipIdx.filter fun (m, q) =>
    m.dieAddr != die && sameDomain (s.gr g).stageMask sts m.dieAddr die && (s.position g q).present).length

/-- COUNT and RANK of the domain for which an entry stands at a stage: its token's; without a token, the present members that
this engine knows there (02 R81) (in part DEDUCED, log entry 24). -/
def State.standsFor (s : State) (g : Nat) (resume : Bool) (stages : List Nat) (i die : Nat) : Nat × Nat :=
  match (s.weirGot g ((stages[i]?).getD 0) resume).find? fun x => x.1 == die with
  | some (_, t) => (t.count, t.rank)
  | none => (s.regionCount g (stages.take i) die, 0)

/-- The counts of the other domains at stage index `i`, with the die that stands for each (02 R81). -/
def State.otherCounts (s : State) (g : Nat) (resume : Bool) (stages : List Nat) (i : Nat) : List (Nat × Nat) :=
  ((s.slots g ((stages[i]?).getD 0)).filter fun x => x.2.dieAddr != s.me).map fun x =>
    (x.2.dieAddr, (s.standsFor g resume stages i x.2.dieAddr).1)

/-- The members of this member's domain below stage index `i` that are present after the pending changes, and this
member's rank among them (02 R77). -/
def State.domain (s : State) (g : Nat) (resume : Bool) (stages : List Nat) : Nat → Nat × Nat
  | 0 => (b1 ((s.group g).marking.all (·.here)), 0)
  | i + 1 =>
    let (n, r) := s.domain g resume stages i
    let cs := s.otherCounts g resume stages i
    (n + (cs.map (·.2)).sum, r + ((cs.filter fun x => x.1 < s.me).map (·.2)).sum)

/-- The weir token of this member at stage index `i` (02 R77, R79). -/
def State.markToken (s : State) (g : Nat) (m : MarkSt) (stages : List Nat) (i : Nat) : Token :=
  let st := (stages[i]?).getD 0
  let (n, r) := s.domain g m.resume stages i
  let c := commonOf s g st (if m.resume then 0xFFFF else s.markNum g)
  { src := s.me, c := { c with run := if m.resume then (s.group g).nextRun else c.run }
    opcode := opMark, operator := 0, formats := 0, acc := 0, numeric := 0, v := 0, length := 0, aux16 := 0, aux32 := 0
    hash := m.hash, change := m.changeHash st, latchStep := 0, latchValid := false
    count := n, rank := r, agree0 := m.agree0, agree1 := m.agree1, gen := 0 }

/-- Send the tokens of stage index `i`. -/
def sendMarkTokens (s : State) (g : Nat) (m : MarkSt) (stages : List Nat) (i : Nat) : State :=
  match stages[i]? with
  | none => s
  | some st =>
    let s := match (s.group g).markOp with
      | some (q, c) => if m.resume then s
          else s.updOp q c fun o => { o with coll := { o.coll with reached := addTo i o.coll.reached } }
      | none => s
    if s.mayWeir g then sendAll s (s.weirSends g st m.resume) (.token (s.markToken g m stages i)) else s

/-- Advance the weir of a group: each stage is complete once every peer's token is here; the comparisons of the change
hashes leave out peers pending eviction (02 R77, R79) (in part DEDUCED, log entry 24). -/
def markWalk (g : Nat) (stages : List Nat) : Nat → State → State
  | 0, s => s
  | fuel + 1, s =>
    match (s.group g).marking with
    | none => s
    | some m =>
      match stages[m.si]? with
      | none =>
        let s := s.updGroup g fun x => { x with marking := some { m with complete := true } }
        refreshTimer s g
      | some st =>
        if (s.weirWaits g st m.resume).all fun d => (s.weirFrom g m.resume st d).isSome then
          let evict (d : Nat) : Bool := (s.slots g st).any fun x => x.2.dieAddr == d && x.2.state == stEvict
          let got := s.weirCame g st m.resume
          let m := { m with
            si := m.si + 1
            agree0 := m.agree0 && got.all fun (d, t) => evict d || (t.change == m.changeHash st && t.agree0)
            agree1 := m.agree1 && got.all fun (_, t) => t.hash == m.hash && t.agree1 }
          let s := s.updGroup g fun x => { x with marking := some m }
          markWalk g stages fuel (sendMarkTokens s g m stages m.si)
        else s

/-- Advance the weir of a group. -/
def markStep (s : State) (g : Nat) : State :=
  let stages := enabled (s.gr g).stageMask
  match (s.group g).marking with
  | some m => if m.complete then s else markWalk g stages (stages.length + 1) s
  | none => s

/-- Begin a MARK or resume weir (02 R77, R83): what its tokens carry is taken now (in part DEDUCED, log entry 24). -/
def markStart (s : State) (g : Nat) (resume : Bool) : State :=
  let here := (s.ownEntry g).any fun m => m.state == stActive || m.state == stQuarantine || m.state == stAdmit
  let m : MarkSt := { resume, hash := s.stagedHash, pend := s.pending_ g, here }
  let s := s.updGroup g fun x => { x with marking := some m }
  refreshTimer (markStep (sendMarkTokens s g m (enabled (s.gr g).stageMask) 0) g) g

/-! ### Tokens (05 R209) -/

/-- Compare a token with this member's own entry of the same number: a difference halts the group, else the arrival is
noted. -/
def meetToken (s : State) (o : Op) (time : Nat) (t : Token) : State :=
  if tokenDiffers s o t then haltMismatched s o.desc.group
  else s.updOp o.q o.c fun o => { o with slow := noteSlow o.slow t.c.stage t.src time }

/-- The tokens that arrived before their entry started here, a BARRIER's those of its generation (05 R209; 08 R330). -/
def replayTokens (s : State) (q c : Nat) : State :=
  match s.op? q c with
  | none => s
  | some o => (s.toksOf o).foldl (fun s t =>
      if (s.group o.desc.group).halted then s
      else if s.admitTok t.2 || (t.2.opcode == opBarrier && t.2.gen != (s.group o.desc.group).gen) then s
      else meetToken s o t.1 t.2) s

/-- Keep a token. -/
def keepToken (s : State) (t : Token) : State :=
  s.updGroup t.c.group fun x => { x with toks := x.toks ++ [(s.now, t)] }

/-- A weir message two generations ahead is misuse (08 R330). -/
def genMisuse (s : State) (g : Nat) : State :=
  haltMismatched ((s.updGroup g fun x => { x with genMisuse := true }).updSync fun y => { y with weirMisuse := true }) g

/-- A token of the present step and run, from a group that is not halted: it is compared with this member's own entry of its number,
also one that has completed (03 R133). A BARRIER's token of the next generation waits until
this member enters it (08 R330). -/
def useToken (s : State) (t : Token) : State :=
  let g := t.c.group
  let x := s.group g
  if t.opcode == opBarrier && x.gen + 2 ≤ t.gen then genMisuse s g
  else if t.opcode == opBarrier && t.gen != x.gen then s
  else match s.opNum g t.c.entry with
    | some o => barrierStep (meetToken s o s.now t) o.q o.c
    | none => if (x.done? t.c.entry).any fun y => tokensDiffer t y.tok then haltMismatched s g else s

/-- The stage of a token is complete in the resume weir that runs here: a member being admitted has come too late
(in part DEDUCED, log entry 24). -/
def State.weirPast (s : State) (t : Token) : Bool :=
  match (s.group t.c.group).marking with
  | some m => m.resume && ((enabled (s.gr t.c.group).stageMask).take m.si).contains t.c.stage
  | none => false

/-- A token arrives (05 R209; 08 R330; 02 R77, R83). Tokens of a run or step that has ended are ignored; those of the next
step, and of the run that a resume weir begins, are kept. While this engine is being admitted it takes only tokens of weirs
(02 R92). -/
def recvToken (s : State) (t : Token) : State :=
  let g := t.c.group
  let x := s.group g
  let keep := groupStirs (keepToken s t) g
  if !x.gr.valid || !(s.mayWeir g) || !(s.isPeer g t.c.stage t.src) || (!(s.mayTradeIn g) && t.opcode != opMark) then s
  else if t.opcode == opMark && t.c.entry == 0xFFFF then
    if s.admitTok t && s.weirPast t then s
    else if s.admitTok t || t.c.run == x.nextRun then markStep keep g else s
  else if x.halted then
    if (x.marking.any fun m => m.resume) && t.c.run == x.nextRun && t.c.step == x.step then keep else s
  else if s.admitTok t then markStep keep g
  else if x.isNow t.c then markStep (useToken keep t) g
  else if x.isNext t.c then markStep keep g
  else s

/-! ### Recalls that arrive (10 R397) -/

/-- A RECALL arrives: one of a run that has ended here is ignored (10 R397). -/
def recvRecall (s : State) (m : RecallMsg) : State :=
  let x := s.group m.c.group
  if !x.gr.valid || !(s.mayTradeIn m.c.group) || x.hasEnded m.c.step m.c.run then s
  else takeRecall (groupStirs s m.c.group) m false

/-! ### Parcels (10 R376-R391) -/

/-- Answer one parcel, under the step value and run that it carries (10 R388) (in part DEDUCED, log entry 23). -/
def answerParcel (s : State) (p : Parcel) (nack : Bool) (reason : Nat) : State :=
  let c : Common := { group := p.h.group, stage := p.h.stage, run := p.h.run, step := p.h.step, entry := p.h.entry }
  sendTo s p.src (.answer
    { src := s.me, c, chunk := p.h.chunk, indexBase := p.h.index, kind := p.h.kind
      valid := 1, nack := b1 nack, reason })

/-- The first element of a parcel of the main reduction of an entry. -/
def State.parcelStart (s : State) (o : Op) (h : PHdr) : Nat :=
  let x := s.redCx o .main
  (((x.pieces h.chunk).find? fun p => p.idx == h.index).map fun p => (p.elems x.n).1).getD 0

/-- The residue check of R382 on a received parcel: it applies to upward parcels of order-free words at a stage of level 1
or more. -/
def State.residueFails (s : State) (o : Op) (p : Parcel) : Bool :=
  (s.numCtx o.desc).orderFree && p.h.kind == 0 && 1 ≤ s.levelAt p.h.group p.h.stage &&
    payloadResidue o.desc.acc (o.coll.pre.getD []) (s.parcelStart o p.h) (s.parcelPV o p).els != p.h.residue

/-- A parcel of a foreign step feeds an UPDATE (07 R299) (in part DEDUCED, log entry 26). -/
def noteSkew (s : State) (o : Op) (p : Parcel) : State :=
  if o.desc.opcode != opUpdate then s
  else
    let s := s.updOp o.q o.c fun o => { o with coll := { o.coll with skewMarked := o.coll.skewMarked || p.h.skew } }
    if p.h.step == o.step then s
    else
      let s := match s.op? o.q o.c with
        | some o => if o.coll.skew.isSome then s else stopUnbegun s o p.h.step
        | none => s
      let g := o.desc.group
      let s := s.updGroup g fun x => { x with stepSkew := true }
      if (s.group g).skewValid then s
      else
        makeRecord (s.updGroup g fun x => { x with skewSeen := p.h.step, skewDie := p.src, skewValid := true })
          { type := 0x09, unit := 0xFFFF, operation := o.desc.opcode, stage := p.h.stage, group := g, step := o.step
            count := o.c, s0 := p.h.step, s1 := p.src }

/-- A parcel is among those that an entry has received. -/
def addParcel (s : State) (o : Op) (p : Parcel) : State :=
  let r : RxParcel := { h := p.h, src := p.src, pv := s.parcelPV o p, lanes := p.lanes }
  s.updOp o.q o.c fun o => { o with coll := { o.coll with rx := o.coll.rx ++ [r] } }

/-- Take in a parcel that has passed its checks. -/
def acceptParcel (s : State) (o : Op) (p : Parcel) : State :=
  let s := noteSkew s o p
  let s := if p.h.retry then s.updInteg fun i => { i with repairs := (i.repairs + 1) % 2 ^ 64 } else s
  addParcel (answerParcel s p false 0) o p

/-- Whether the combination or passing on at the root of a tree takes what a position sends. -/
def RTree.takesFrom (pos : Nat) : RTree → Bool
  | .leaf _ => false
  | .node _ _ l r => l.loc == pos || r.loc == pos
  | .move _ _ t => t.loc == pos

/-- Whether a parcel that has just come is passed on at once: an operand of a combination once the others are here, any other parcel
always (10 R390) (in part DEDUCED, log entry 23). -/
def State.passesOn (s : State) (o : Op) (p : Parcel) : Bool :=
  let red : Option Red := if p.h.kind == 0 then some .main else if p.h.kind == 3 then some .pre
    else if p.h.kind == 5 then some .digest else none
  match red with
  | none => true
  | some red =>
    let x := s.redCx o red
    let r : RxParcel := { h := p.h, src := p.src, pv := s.parcelPV o p }
    let o := { o with coll := { o.coll with rx := o.coll.rx ++ [r] } }
    let takers := (x.all o.toOwner).flatMap fun (c, pc, t) =>
      if x.chunkNo c == p.h.chunk && pc.idx == p.h.index then
        ((t.nodesAt x.lay.own).filter fun n => (List.range x.lay.m).any fun q => x.lay.die q == p.src && n.2.takesFrom q).map
          fun n => ((s.evalCx o x c pc).eval n.2).isSome
      else []
    takers.isEmpty || takers.any id

/-- The record of a failed check of a received parcel (11 R415): its CRC, or its residue as expected and as found
(in part DEDUCED, log entry 32). -/
def checkRecord (s : State) (o : Op) (p : Parcel) (kind found action : Nat) : State :=
  let r : FaultRecord := { type := 4 + kind, action, unit := 0x400, operation := o.desc.opcode, stage := p.h.stage
                           group := o.desc.group, step := o.step, count := o.c }
  checkFailed s (if kind == 0 then { r with s0 := p.h.kind, s1 := p.h.chunk, s2 := p.h.index, s3 := p.src }
    else { r with s0 := p.h.chunk, s1 := p.h.index, s2 := p.h.residue, s3 := found })

/-- A parcel that is passed on as it comes goes on before its check has ended (10 R390); a sum that takes it in is not compared then, since
the parcel's own failure stands (R396). -/
def passBad (s : State) (o : Op) (p : Parcel) : State :=
  let s := addParcel (noteSkew s o p) o p
  let s := if p.h.kind == 0 then s.updOp o.q o.c fun o => { o with coll := { o.coll with sums := o.coll.sums ++ [(p.h.chunk, p.h.index)] } }
    else s
  advance s o.q o.c

/-- A check fails on a received parcel: it is refused; the retry's failure ends the run, under flow a parcel that is passed on as it
comes has gone on by then and is recalled, and any other is asked for again (10 R388, R390-R392, R396). `passed` tells whether it has been passed on. -/
def parcelFails (s : State) (o : Op) (p : Parcel) (kind found : Nat) (passed : Bool) : State :=
  let back := (s.gr p.h.group).flow && passed
  let s := checkRecord s o p kind found (if p.h.retry || back then 5 else 1)
  let s := answerParcel s p true kind
  if p.h.retry then repairFails s o (4 + kind) 0x400 p.h.stage p.h.chunk p.h.index
  else if back then raiseRecall (passBad s o p) p.h.group p.h.stage p.h.entry p.h.chunk kind p.src
  else s

/-- Check a parcel of a running entry: CRC, then residue (10 R379, R382); `early` tells that it waited here for its entry
(in part DEDUCED, log entry 23). -/
def checkParcel (s : State) (o : Op) (p : Parcel) (early : Bool) : State :=
  if parcelCrc p.h p.payload != p.h.crc then parcelFails (countCrc s) o p 0 0 (!early && s.passesOn o p)
  else if s.residueFails o p then
    parcelFails (countResidue s) o p 1 (payloadResidue o.desc.acc (o.coll.pre.getD []) (s.parcelStart o p.h) (s.parcelPV o p).els)
      (!early && s.passesOn o p)
  else acceptParcel s o p

/-- Where a parcel belongs. -/
inductive Place where
  /-- a step, entry or run that has ended here (10 R378) -/
  | ended
  /-- an entry that has not started here, or cannot take the parcel yet -/
  | early
  | entry (o : Op)
  deriving DecidableEq, Repr

/-- Place a parcel by its RUN, STEP and ENTRY (10 R378; 07 R298, R299). No peer leaves the step before this member's own MARK
or resume weir has begun, so until then another step value is foreign where a started UPDATE has the number; else what belongs to the
next step waits, and so does a foreign parcel that an UPDATE of its number may still take (in part DEDUCED, log entry 23). -/
def State.place (s : State) (h : PHdr) : Place :=
  let x := s.group h.group
  let next := x.isNext { group := h.group, stage := h.stage, run := h.run, step := h.step, entry := h.entry }
  let mine := (s.opNum h.group h.entry).filter fun o => h.run == x.run && (h.step == x.step || o.desc.opcode == opUpdate)
  if next && x.marking.isSome then .early
  else if x.halted then .ended
  else match mine with
    | some o =>
      if o.ended.isSome then .ended
      else if !o.running || (h.kind == 0 && (s.numCtx o.desc).orderFree && o.coll.pre.isNone) then .early
      else .entry o
    | none =>
      if next then .early
      else if h.run == x.run && (s.opNum h.group h.entry).isNone && x.entryNo ≤ h.entry &&
          (h.step == x.step || h.kind == 0 || h.kind == 3 || h.kind == 4) then .early
      else .ended

/-- Parcels kept for later that now have a place: each is checked in turn (in part DEDUCED, log entry 23). -/
def redeliver (g : Nat) : Nat → State → State
  | 0, s => s
  | fuel + 1, s =>
    let hit (p : Parcel) : Bool := match s.place p.h with
      | .entry _ => true
      | _ => false
    match (s.group g).early.find? hit with
    | none => s
    | some p =>
      let s := s.updGroup g fun x => { x with early := x.early.erase p }
      match s.place p.h with
      | .entry o => redeliver g fuel (advance (checkParcel s o p true) o.q o.c)
      | _ => redeliver g fuel s

/-- Advance an entry, and then take in the parcels that waited for it. -/
def stepOp (s : State) (q c : Nat) : State :=
  match s.op? q c with
  | none => s
  | some o =>
    let s := advance s q c
    if o.desc.noGroup then s
    else refreshTimer (redeliver o.desc.group ((s.group o.desc.group).early.length) s) o.desc.group

/-- A parcel for a paused entry for which its partition has no room: it stays in the buffer of its input, whose credits it holds
(04 R170) (in part DEDUCED, log entry 17). -/
def State.noRoom (s : State) (p : Parcel) : Bool :=
  (s.gr p.h.group).valid && s.mayTradeIn p.h.group && p.h.kind ≤ 6 && (match s.place p.h with
    | .entry o => o.pause.isSome && !(s.roomFor o p.payload.length)
    | _ => false)

/-- A parcel of a paused entry waits in the entry's partition (04 R170). -/
def notePaused (s : State) (o : Op) (p : Parcel) : State :=
  if o.pause.isSome then s.updOp o.q o.c fun o => { o with waitBytes := o.waitBytes + p.payload.length } else s

/-- A parcel arrives (10 R377-R379) (in part DEDUCED, log entry 23). -/
def recvParcel (s : State) (p : Parcel) : State :=
  let g := p.h.group
  if 6 < p.h.kind || !(s.gr g).valid then countCrc s
  else if !(s.mayTradeIn g) then s
  else match s.place p.h with
    | .ended => s
    | .early => groupStirs (s.updGroup g fun x => { x with early := x.early ++ [p] }) g
    | .entry o => stepOp (checkParcel (notePaused (groupStirs s g) o p) o p false) o.q o.c

/-- A kept parcel goes again with RETRY (10 R391): its copy, or formed again on the next pump, or on a single pump with the lanes
rotated by one, with a fresh CRC. While budget is lent it waits for the budget to come back (08 R322). -/
def resendKept (s : State) (o : Op) (k : Kept) (reform : Bool) : State :=
  let ps := s.groupPumps o.desc.group
  let h := { k.p.h with retry := true }
  let h := if reform then { h with crc := parcelCrc h k.p.payload } else rewrite k.p.h h k.p.payload
  let k' : Kept := { k with p := { k.p with h }, pump := if reform then nextPump ps k.pump else k.pump
                            turned := reform && ps.length ≤ 1, due := s.sync.lent }
  let s := s.updOp o.q o.c fun o => { o with kept := o.kept.map fun y => if y == k then k' else y }
  let s := if reform then s.updInteg fun i => { i with repairRun := some (k'.pump, b1 k'.turned) } else s
  if s.sync.lent then s else sendTo s k.dest (.parcel k'.p)

/-- The repairs that waited for lent budget go out (08 R322). -/
def sendDue (s : State) : State :=
  s.ops.foldl (fun s o => (o.kept.filter (·.due)).foldl (fun s k => sendTo s k.dest (.parcel k.p))
    (s.updOp o.q o.c fun o => { o with kept := o.kept.map fun k => { k with due := false } })) s

/-- An acknowledged parcel is no longer kept, and the pairs that it no longer fills are given up; a refused one goes again
(10 R389, R391). -/
def answerOne (s : State) (o : Op) (a : AnswerMsg) (j : Nat) : State :=
  let hit (k : Kept) : Bool := k.dest == a.src && k.p.h.step == a.c.step && k.p.h.kind == a.kind && k.p.h.chunk == a.chunk &&
    k.p.h.index == a.indexBase + j
  match o.kept.find? hit with
  | none => s
  | some k =>
    if bit a.nack j then resendKept s o k (a.reason == 1)
    else noteLag (s.updOp o.q o.c fun o => Op.trimKeeps { o with kept := o.kept.erase k }) o.q o.c

/-- An ANSWER arrives (10 R388). -/
def recvAnswer (s : State) (a : AnswerMsg) : State :=
  let g := a.c.group
  match s.opNum g a.c.entry with
  | none => s
  | some o =>
    if !(s.mayTradeIn g) || a.c.run != o.run || o.ended.isSome then s
    else
      let s := (List.range 8).foldl (fun s j =>
        match s.op? o.q o.c with
        | some o => if bit a.valid j then answerOne s o a j else s
        | none => s) (groupStirs s g)
      stepOp s o.q o.c

/-! ### Level marks (10 R394) -/

/-- A LEVEL_MARK arrives. One of what follows on this member, and one whose entry has not started here, is kept; as no peer leaves the step
before this member's own weir has begun, one of the next step may until then be that of an UPDATE under a foreign step (07 R299; 08
R322) (in part DEDUCED, log entry 23). -/
def recvLevel (s : State) (l : LevelMsg) : State :=
  let g := l.c.group
  let x := s.group g
  let keep (s : State) : State := s.updGroup g fun x => { x with earlyMarks := x.earlyMarks ++ [l] }
  if !x.gr.valid || !(s.mayTradeIn g) then s
  else if x.isNext l.c && (x.marking.isSome || x.halted) then groupStirs (keep s) g
  else if x.halted || (l.c.run != x.run && !(x.isNext l.c)) then s
  else
    let s := groupStirs s g
    refreshTimer (match (s.opNum g l.c.entry).filter fun o => x.marksFor (o.desc.opcode == opUpdate) l.c with
    | some o =>
      settleOp (s.updOp o.q o.c fun o => { o with marksHeld := addTo (l.c.stage, l.src) o.marksHeld }) o.q o.c
    | none =>
      let hit (e : OpenEntry) : Bool := e.num == l.c.entry && x.marksFor e.upd l.c
      if x.openEntries.any hit then
        let hold (e : OpenEntry) : OpenEntry := { e with held := addTo (l.c.stage, l.src) e.held }
        settleOpen (s.updGroup g fun x => { x with openEntries := mapIf hit hold x.openEntries }) g
      else if x.entryNo ≤ l.c.entry || x.isNext l.c then keep s
      else s) g

/-- The level marks that arrived before their entry started here. -/
def replayMarks (s : State) (q c : Nat) : State :=
  match s.op? q c with
  | none => s
  | some o =>
    let g := o.desc.group
    let mine (l : LevelMsg) : Bool := l.c.entry == o.num && (s.group g).marksFor (o.desc.opcode == opUpdate) l.c
    let ls := (s.group g).earlyMarks.filter mine
    let s := s.updGroup g fun x => { x with earlyMarks := x.earlyMarks.filter fun l => !(mine l) }
    ls.foldl (fun s l => s.updOp q c fun o => { o with marksHeld := addTo (l.c.stage, l.src) o.marksHeld }) s

end Sys2Proof.Machine
end

