-- ==== Sys2Proof/Machine/Marks.lean ====
section
/-! DEFINITION. Step marks, resume marks and image swaps (01 R24, R28; 02 R72-R75, R79-R83, R98, R99, R508; 07 R282, R300;
08 R335; 09 R361; 10 R405; 13 R495, R496). -/

namespace Sys2Proof.Machine

/-! ### Leave as found (08 R335) -/

/-- A counter of the check differs. -/
def counterDiffers (s : State) (g n : Nat) : Bool :=
  let x := s.counter n
  x.value != x.rest || x.sat || x.under || (s.sync.waiters.any fun w => w.counter == n) ||
    (s.sync.held.any fun h => h.m.c.group == g && h.m.counter == n)

/-- The counters and wires that a step mark of a group checks. -/
def checkedCounters (s : State) (g : Nat) : List Nat :=
  s.sync.counters.filterMap fun (n, x) => if x.bound && x.bind == g && x.check then some n else none
def checkedWires (s : State) (g : Nat) : List Nat :=
  s.sync.weirs.filterMap fun (w, x) => if x.bound && x.group == g then some w else none

/-- The check of a step mark: LEFTOVER flags, SYNC_CHECK and the warden's record (in part DEDUCED, log entry 32). -/
def leaveAsFound (s : State) (g : Nat) : State :=
  let cs := checkedCounters s g
  let bad := cs.filter (counterDiffers s g)
  let ws := (checkedWires s g).filter fun w => (s.weir w).engine && (s.weir w).entered
  let s := cs.foldl (fun s n => s.setCounter n { s.counter n with leftover := bad.contains n }) s
  let n := bad.length + ws.length
  if n = 0 then s
  else
    let wire := bad.isEmpty
    let first := ((bad ++ ws)[0]?).getD 0
    let s := s.updSync fun y => { y with
      chkGroup := g, chkObject := first, chkWire := wire, chkValid := true, chkDiffs := min 0xFFFF n }
    makeRecord s { type := 0x0A, unit := 0x703, operation := 0xFF, group := g, step := (s.group g).step
                   count := 0xFFFFFFFF, s0 := first, s1 := b1 wire, s2 := min 0xFFFF n }

/-! ### Membership changes (02 R79-R82) -/

/-- Members of the group that precede this member's domain at stage index `i`, by the counts of the higher stages
(02 R81). -/
def State.below (s : State) (g : Nat) (resume : Bool) (stages : List Nat) (i : Nat) : Nat :=
  (((List.range stages.length).filter (i < ·)).map fun j =>
    (((s.otherCounts g resume stages j).filter fun x => x.1 < s.me).map (·.2)).sum).sum

/-- The rank of a listed peer that is present, from the counts and ranks of the mark's tokens (02 R81). -/
def State.rankOf (s : State) (g : Nat) (resume : Bool) (stages : List Nat) (i die : Nat) : Nat :=
  let (n, _) := s.domain g resume stages i
  let before := (((s.otherCounts g resume stages i).filter fun x => x.1 < die).map (·.2)).sum + (if s.me < die then n else 0)
  s.below g resume stages i + before + (s.standsFor g resume stages i die).2

/-- A member entry after the pending changes that the weir has compared take effect; a member being admitted becomes active if
it took part in the mark (02 R79, R80). -/
def Member.settle (m : Member) (compared took : Bool) : Member :=
  if !compared then m
  else if m.state == stAdmit then (if took then { m with state := stActive, afterQ := false } else m)
  else if m.state == stEvict then { m with state := stEvicted } else m

/-- The weir carried this pending change in every stage that lists the entry (02 R79). -/
def MarkSt.carried (w : MarkSt) (m : Member) : Bool :=
  w.pend.any fun p => p.stage == m.stage && p.dieAddr == m.dieAddr && p.state == m.state && p.idCheck == m.idCheck

/-- Whether a member took part in the mark: a peer by its token, this engine by the hash of the tokens it received
(02 R80, R83). -/
def State.tookPart (s : State) (g : Nat) (w : MarkSt) (st : Nat) (m : Member) : Bool :=
  if m.dieAddr == s.me then
    (enabled (s.gr g).stageMask).all fun st => (s.weirCame g st w.resume).all fun (d, t) => s.peerAdmit g st d || t.hash == w.hash
  else (s.weirGot g st w.resume).any fun x => x.1 == m.dieAddr

/-- The entries that this engine lists, after the pending changes of a mark and with their ranks (02 R80, R81). -/
def State.settled (s : State) (g : Nat) (w : MarkSt) : List (Nat × Member) :=
  let stages := enabled (s.gr g).stageMask
  let own := (s.domain g w.resume stages stages.length).2
  (List.range stages.length).flatMap fun i =>
    let st := (stages[i]?).getD 0
    (s.slots g st).map fun (k, m) =>
      let m' := m.settle (w.carried m) (s.tookPart g w st m)
      (k, if m'.state == stActive || m'.state == stQuarantine || m'.state == stEvict then
        { m' with rank := if m.dieAddr == s.me then own else s.rankOf g w.resume stages i m.dieAddr } else { m' with rank := 0 })

/-- Apply the pending changes: states, ranks, MEMBER_COUNT and REBALANCE (02 R81). -/
def applyChanges (s : State) (g : Nat) (w : MarkSt) (total : Nat) : State :=
  let s := (s.settled g w).foldl (fun s (k, m) => s.setMember k m) s
  let s := s.updGroup g fun x => { x with rebalance := true, gr := { x.gr with memberCount := total } }
  refreshQuarantine s

/-- Whether membership changes at the mark: an entry that this member lists changes its state or, by the tokens' counts, its
rank, or the tokens count another size of the group (in part DEDUCED, log entry 24). -/
def State.changing (s : State) (g : Nat) (w : MarkSt) (total : Nat) : Bool :=
  total != (s.gr g).memberCount || (s.settled g w).any fun (k, m) => m != s.member k

/-- What the mark's tokens decide about membership. -/
inductive Change where
  | keep
  | disagree
  | below
  | above
  | apply (total : Nat)
  deriving DecidableEq, Repr

/-- The change that a mark brings (02 R79, R82). -/
def State.change (s : State) (g : Nat) (m : MarkSt) : Change :=
  let stages := enabled (s.gr g).stageMask
  if !m.agree0 then .disagree
  else if stages.isEmpty then .keep
  else
    let total := (s.domain g m.resume stages stages.length).1
    if !(s.changing g m total) then .keep
    else if total < (s.gr g).minMembers then .below
    else if (s.gr g).maxMembers < total then .above
    else .apply total

/-! ### Activation of an image (02 R73, R75, R508; 13 R496) -/

/-- The record of a group in an image. -/
def Image.record (im : Image) (g : Nat) : Option GroupRec := im.groups.find? fun r => r.group == g && r.valid

/-- A group is unchanged when its record and its roster are the same in both images (02 R73). -/
def unchanged (a b : Image) (g : Nat) : Bool := a.record g == b.record g && a.rosterOf g == b.rosterOf g

/-- A group is parked (02 R73): nothing started, nothing open, and its last completed operation was a MARK; a group that
has run nothing is parked (DEDUCED, log entry 24). At the anchor's own commit point its MARK has completed in the sense of
01 R24 and its parcels are settled or discarded. -/
def State.isParked (s : State) (g anchor : Nat) : Bool :=
  let x := s.group g
  let busy := s.started.any fun o => !o.desc.noGroup && o.desc.group == g && !(g == anchor && some (o.q, o.c) == x.markOp)
  !busy && (g == anchor || !x.gr.valid || (x.parked && x.openEntries.isEmpty))

/-- Every group that is valid in either image and changed is parked (02 R74). -/
def State.allParked (s : State) (new : Image) (anchor : Nat) : Bool :=
  let old := s.image
  (((old.groups ++ new.groups).filter (·.valid)).map (·.group)).all fun g => unchanged old new g || s.isParked g anchor

/-- Whether a cistern partition keeps its contents (01 R29). -/
def keepsPartition (a b : Image) (g : Nat) : Bool :=
  let f (im : Image) := (im.cisterns.find? fun r => r.kind == 2 && r.owner == g).map fun r => (r.baseBank, r.banks)
  f a == f b

/-- A group keeps its step counter through a swap (02 R75): it is valid in both images with KEEP_STEP 1. -/
def keepsStep (old : Image) (r : GroupRec) : Bool := (old.record r.group).isSome && r.keepStep

/-- The state of a valid group under a new record. `keep`: it keeps its step counter. What GROUP_STATUS and REFINE_SKEW show is cleared
by the resume mark or by a write alone (05 R225; 07 R300; 13 R496). A group that becomes valid here has full service
from now on also where this engine's own entry in it is not ACTIVE: of R99's two sentences the one on image swaps is taken
(DESIGN CHOICE, log entry 24). -/
def groupUnder (old new : Image) (s : State) (r : GroupRec) (full : Bool) : GroupSt :=
  let x := s.group r.group
  let was := (old.record r.group).isSome
  let keep := keepsStep old r
  let lost := r.replayPlace == 0 && !(keepsPartition old new r.group)
  let x := if was then { x with gr := r } else
    { x with gr := r, run := 0, entryNo := 0, doneNums := [], toks := [], early := [], earlyMarks := [], openEntries := []
             recalls := [], gen := 0, genActive := false, timerAt := none, marking := none, markOp := none, parked := true
             digestParts := [], full := full, pastRuns := [], withdrawn := [] }
  let x := if keep then x else
    { x with step := r.stepInit, entryNo := 0, doneNums := [], gen := 0, run := 0, pastRuns := [], withdrawn := [] }
  if lost then { x with slot0 := {}, slot1 := {} } else x

/-- A group that the new image does not make valid: its record reads as zeros and its staged writes go (13 R494, R496,
R501). -/
def groupWithout (x : GroupSt) : GroupSt :=
  { x with gr := {}, fillStaged := none, replayStaged := none, timerAt := none, marking := none, markOp := none, full := false }

/-- A queue under a new map (02 R75; 03 R138) (in part DEDUCED, log entry 15). -/
def queueUnder (im : Image) (q : Nat) (x : QueueSt) : QueueSt :=
  match im.queues.find? fun r => r.queue == q with
  | some r =>
    if r.weight == 0 then { absent x with map := r }
    else { x with map := r, state := if x.state == .absent then .disabled else x.state
                  wbDirty := x.wbDirty || x.state == .absent }
  | none => absent x
where
  absent (x : QueueSt) : QueueSt :=
    if x.state == .absent then { x with map := {} }
    else { x with
      map := {}, state := .absent, enable := false, wbDirty := true
      fetch := match x.buffered with
        | [] => x.fetch
        | b :: _ => b.count
      buffered := [], batch := none, mapLeft := 0, mapBuf := [] }

/-- The timing key of an activation: the complement of SEED, or a fresh key from the noise source (09 R361)
(in part DESIGN CHOICE, log entry 10). -/
def timingKeyOf (im : Image) (fresh : Nat) : W64 := if im.seeded then ~~~im.formats.seed else Config.timingKey fresh

/-- Invalidate every line of the read cache; fills in flight are not installed (04 R163). -/
def flushCache (s : State) : State :=
  s.updCache fun x => { x with lines := [], fills := x.fills.map fun f => { f with install := false } }

/-- The addresses of a window. -/
def Window.holds (w : Window) (block : Nat) : Bool := w.en && w.base * 4096 ≤ block && block + 256 ≤ (w.limit + 1) * 4096

/-- Invalidate the lines of one window (04 R163, R179). A fill in flight for it is not installed, as at a flush, also where its step
flush or the clearing of EN does this (DESIGN CHOICE, log entry 17). -/
def flushWindow (s : State) (w : Window) : State :=
  s.updCache fun x => { x with
    lines := x.lines.filter fun l => !(w.holds l.block)
    fills := x.fills.map fun f => if w.holds f.block then { f with install := false } else f }

/-- The step flush of a group's windows (04 R163). -/
def stepFlush (s : State) (g : Nat) : State :=
  (s.cache.windows.map (·.2)).foldl (fun s w => if w.en && w.stepFlush && w.group == g then flushWindow s w else s) s

/-- An image becomes active (02 R73, R75, R91, R508; 04 R146, R163; 06 R270, R271; 09 R359, R361; 13 R496). -/
def activate (s : State) (im : Image) : State :=
  let old := s.image
  let (recs, ms) := buildTable im s.me
  let full := s.img.active.isSome && s.fullReadyIn im
  let valid := recs.map (·.group)
  let gone := (s.groups.filter fun x => !(valid.contains x.1)).map (·.1)
  let s := gone.foldl (fun s g => s.updGroup g groupWithout) s
  let s := recs.foldl (fun s r => s.setGroup r.group (groupUnder old im s r full)) s
  let qs := ((s.queues.map (·.1)) ++ (im.queues.map (·.queue))).eraseDups
  let s := qs.foldl (fun s q => s.updQueue q (queueUnder im q)) s
  let rows := im.rows.zipIdx.filterMap fun (r, i) => if r == {} then none else some (i, r)
  let scheds := im.scheds.zipIdx.filterMap fun (r, i) => if r == {} then none else some (i, r)
  let s := { s with
    members := membersOf ms
    img := { s.img with active := some im, staged := none, swapping := none, loader := .idle }
    sluice := { s.sluice with active := false, credits := [], burst := 0 }
    num := { s.num with key := im.formats.seed, timingKey := timingKeyOf im s.fresh }
    fresh := s.fresh + 1
    refiner := { s.refiner with rows, scheds }
    tally := { s.tally with cadenceAt := if im.cadence == old.cadence then s.tally.cadenceAt else s.tally.tally }
    siphons := (s.siphons.map fun (i, x) => (i, { x with credR := 0, credW := 0, credM := 0 })).filter fun x => x.2 != {}
    warden := { s.warden with pours := im.pours, pourBytes := im.pourBytes } }
  let s := flushCache s
  let own := s.idCheck
  refreshQuarantine { s with members := s.members.map fun (i, m) =>
    if m.dieAddr == s.me && m.idCheck != own && (m.state == stActive || m.state == stAdmit) then
      (i, { m with state := stQuarantine }) else (i, m) }

/-! ### The commit point (01 R24; 13 R495) -/

/-- Commit the staged fields of a group (13 R495). -/
def commitGroup (s : State) (g : Nat) : State :=
  s.updGroup g fun x => { x with
    fill := x.fillStaged.getD x.fill, fillStaged := none
    replayEn := (x.replayStaged.map (·.1)).getD x.replayEn
    replayAddr := (x.replayStaged.map (·.2)).getD x.replayAddr
    replayStaged := none }

/-- Commit the staged fields of a group, and of the engine when the group is the anchor (13 R495). -/
def commitFields (s : State) (g : Nat) : State :=
  let s := commitGroup s g
  if s.img.active.any fun im => im.anchor == g then
    commitRefiner { s with num := { s.num with key := s.num.keyStaged.getD s.num.key, keyStaged := none } }
  else s

/-- The staged writes that an image discards at its commit point: those to fields that it gives itself. A write after the commit
point is not among them (00 R13; 13 R496). -/
def dropImageFields (s : State) : State :=
  { s with
    num := { s.num with keyStaged := none }
    refiner := { s.refiner with rowsStaged := [], schedsStaged := [] } }

/-- Fold the digests of a step's entries in ascending entry order (10 R405). -/
def foldDigest (parts : List (Nat × W64)) : W64 :=
  (sortBy (fun a b => decide (a.1 ≤ b.1)) parts).foldl (fun d p => rotl64 d ^^^ p.2) 0

/-- Latch the digest of a digest step (10 R405). -/
def latchDigest (s : State) (g : Nat) : State :=
  let x := s.group g
  if s.digestOn g && s.digestD g != 0 && x.step % s.digestD g == 0 then
    let d := foldDigest x.digestParts
    s.updGroup g fun x => { x with digestValid := true, digestStep := x.step, digest := d, stepDigest := d, digestParts := [] }
  else s.updGroup g fun x => { x with digestParts := [] }

/-- The window slot of a step that has settled becomes VALID (10 R402). -/
def validateSlot (s : State) (g : Nat) : State :=
  let x := s.group g
  let y := x.slot x.step
  if y.step == x.step && y.used != 0 then
    writeSlotHeader (s.updGroup g fun x => x.setSlot x.step { y with valid := true }) g x.step
  else s

/-- What each step mark does after its commit point (01 R24; 02 R98, R99): the check, η, the counter. `step` is the new counter,
`run` the new run. The conditions of full service are those of this moment, with no latch; a resume mark, a step mark for every
purpose, parks the group as a MARK does, though the last operation completed need not be a MARK (02 R73, R83)
(DESIGN CHOICE, log entry 24). -/
def afterCommit (s : State) (g step run : Nat) (resume : Bool) : State :=
  let s := leaveAsFound s g
  let serves := s.servedGroups.contains g
  let s := s.updGroup g fun x => { x with
    step, run, entryNo := 0, doneNums := [], gen := 0, openEntries := []
    recalls := x.recalls.filter fun k => !({ x with step, run }.hasEnded k.1 k.2.1)
    pastRuns := if resume || x.run == 0 then x.pastRuns else x.pastRuns ++ [(x.step, x.run)]
    toks := x.toks.filter fun t => t.2.c.step == step && t.2.c.run == run && t.2.c.entry != 0xFFFF
    early := x.early.filter fun p => p.h.step == step && p.h.run == run
    earlyMarks := x.earlyMarks.filter fun l => l.c.step == step && l.c.run == run
    timerAt := none, marking := none, parked := true, withdrawn := x.withdrawn.filter fun w => w.2 != (x.step, x.run)
    skewValid := x.skewValid && !resume
    digestParts := []
    full := x.full || (s.fullReady && serves) }
  let s := refreshPhase (latchSchedule s g)
  if (s.group g).toks.any fun t => t.2.opcode == opBarrier && 2 ≤ t.2.gen then genMisuse s g else s

/-- End the MARK entry of a group: its record is written after the step mark (02 R77). -/
def endMark (s : State) (g : Nat) : State :=
  match (s.group g).markOp with
  | some (q, c) =>
    let s := s.updGroup g fun x => { x with markOp := none }
    s.updOp q c fun o => { o with ready := true, settled := true }
  | none => s

/-- The step counter that the mark leads to: a member being admitted takes it from the other members' tokens (02 R80). -/
def State.markedStep (s : State) (g : Nat) (resume admitted : Bool) : Nat × Nat :=
  let x := s.group g
  let t := if admitted then
      (x.toks.find? fun t => s.weirTok g resume t.2 && !(s.peerAdmit g t.2.c.stage t.2.src)).map (·.2)
    else none
  if resume then ((t.map (·.c.step)).getD x.step, (t.map (·.c.run)).getD x.nextRun)
  else (wrap32 ((t.map (·.c.step)).getD x.step + 1), 0)

/-- The pacing domains of the units that a whole-engine test covers (01 R51; 11 R432, R436). -/
def WardenSt.testDomains (w : WardenSt) : List Nat :=
  let covers (t : Nat) : Bool := w.testId == 0xFFFF || (w.poursOf w.testId).any fun p => p.target == t
  (if covers 0 then List.range 17 else []) ++ (if covers 1 then [17] else []) ++ (if covers 2 then [19] else []) ++
    (if covers 3 then [20] else [])

/-- A whole-engine test that waits for a group's step mark holds the sluice from its commit point (11 R437, R438); under
stress its domains lose their pacing (R436). -/
def holdForTest (s : State) (g : Nat) : State :=
  let w := s.warden
  if w.test == .waiting && w.testDrains && w.testGroup == g then
    s.updWarden fun w => { w with
      test := .running, testPours := w.poursOf w.testId, testBytes := w.pourBytes, testIm := some s.image, testHold := true, wholeStress := w.testStress
      stressDomains := if w.testStress then w.testDomains else w.stressDomains }
  else s

/-- What ends with the step at the commit point of a mark: the windows' lines, the digest, the window slot
(04 R163; 10 R402, R405). -/
def closeStep (s : State) (g : Nat) (resume : Bool) : State :=
  let s := stepFlush s g
  if resume then s else validateSlot (latchDigest s g) g

/-- What follows the commit point of a mark, once an image swap is over (01 R24). -/
def finishMark (s : State) (g : Nat) (resume : Bool) (step run : Nat) : State :=
  (haltPumpless (holdForTest (endMark (afterCommit s g step run resume) g) g) none).1

/-- Try the staged image at a mark of the group that its ANCHOR names (02 R55, R72, R74): the image to swap to, and the state with
a deferral counted. Every member's mark must have carried the hash of this image. -/
def trySwap (s : State) (g : Nat) (m : MarkSt) : State × Option Image :=
  match s.img.active, s.img.staged with
  | some _, some new =>
    if new.anchor == g && s.img.loader == .staged && s.img.swapping.isNone then
      let parked := s.allParked new g
      let same := m.agree1 && m.hash == new.hash
      if same && parked then (s, some new)
      else (s.updImg fun i => { i with
        deferrals := satAdd 255 i.deferrals 1, hashMismatch := i.hashMismatch || !same
        unparked := i.unparked || !parked }, none)
    else (s, none)
  | _, _ => (s, none)

/-- Whether the entries of a group's step are all settled, its MARK apart (01 R24; 10 R395). -/
def State.stepSettled (s : State) (g : Nat) : Bool :=
  (s.group g).openEntries.isEmpty &&
    !(s.started.any fun o => !o.desc.noGroup && o.desc.group == g && isGroupWide o.desc.opcode && o.desc.opcode != opMark)

/-- A group with a recorded skew has reached its step mark: its MARK is started and no other group-wide entry of it is (07 R300). The
weir of such a mark need not complete, since a peer of another step sends no token of this one (in part DEDUCED, log entry 26). -/
def State.skewStops (s : State) (g : Nat) (m : MarkSt) : Bool :=
  !m.resume && (s.group g).skewValid &&
    !(s.started.any fun o => !o.desc.noGroup && o.desc.group == g && isGroupWide o.desc.opcode && o.desc.opcode != opMark)

/-- The commit point of a group's completed mark (01 R24-R26; 02 R74, R79-R83; 07 R300): staged fields commit here, also when
the image that becomes active must wait for the started operations (R28). -/
def commitMark (s : State) (g : Nat) : State :=
  match (s.group g).marking with
  | none => s
  | some m =>
    if m.committed.isSome || !(s.gr g).valid then s
    else if s.skewStops g m then haltAndTell s g haltStepSkew endHalted
    else if !m.complete || (!m.resume && !(s.stepSettled g)) then s
    else
      let (step, run) := s.markedStep g m.resume (s.ownAdmit g)
      let go (s : State) : State :=
        let s := closeStep (s.updGroup g fun x => { x with halted := false, haltCause := 0 }) g m.resume
        match trySwap s g m with
        | (s, some im) =>
          let s := dropImageFields (commitGroup s g)
          let s := s.updImg fun i => { i with swapping := some im }
          s.updGroup g fun x => { x with marking := some { m with committed := some (step, run) } }
        | (s, none) => finishMark (commitFields s g) g m.resume step run
      let stop (s : State) (cause : Nat) : State :=
        if m.resume then s.updGroup g fun x => { x with haltCause := cause, marking := none }
        else dropHeld (haltGroup s g cause endHalted) g
      match s.change g m with
      | .keep => go s
      | .disagree => go (s.updGroup g fun x => { x with memberDisagree := true })
      | .below => stop s haltBelowMin
      | .above => stop s haltAboveMax
      | .apply total => go (applyChanges s g m total)

/-- The swap once the operations started before the commit point have completed (01 R28; 02 R75). The other groups' η stays as their own
marks left it, also of a group that starts from its STEP_INIT here (07 R282, R305). -/
def swapImage (s : State) : State :=
  match s.img.swapping with
  | none => s
  | some im =>
    let g := im.anchor
    if s.started.any fun o => some (o.q, o.c) != (s.group g).markOp then s
    else match (s.group g).marking.bind fun m => m.committed.map fun c => (m.resume, c) with
      | none => s.updImg fun i => { i with swapping := none }
      | some (resume, step, run) =>
        let old := s.image
        let s := wakePorts (activate s im)
        if (s.gr g).valid then finishMark s g resume (if keepsStep old (s.gr g) then step else (s.group g).step) run
        else
          let s := refreshPhase (holdForTest (endMark (s.updGroup g fun x => { x with marking := none }) g) g)
          (haltPumpless s none).1

/-- Step mark 0 (02 R73): the first image becomes active, in low-water service; no group has full service yet, so PHASE is FULL here
only where R99's set is empty (log entry 24). -/
def startImage (s : State) (im : Image) : State :=
  let s := activate (dropImageFields s) im
  let s := s.updKeeper fun k => { k with phase := .lowWater }
  let s := (haltPumpless (wakePorts ((im.groups.filter (·.valid)).foldl (fun s r => latchSchedule s r.group) s)) none).1
  if s.servedGroups.isEmpty then refreshPhase s else s

end Sys2Proof.Machine
end

