-- ==== Sys2Proof/Machine/Flags.lean ====
section
/-! DEFINITION. The flags and status words that the engine writes to memory: the completion record (03 R124; 05 R191, R210,
R213; 06 R266-R268), and the word of the head write-back (03 R106). -/

namespace Sys2Proof.Machine

/-- The stages that an entry ran (05 R210). -/
def State.ranStages (s : State) (o : Op) : List Nat :=
  o.coll.reached.filterMap fun i => (enabled (s.gr o.desc.group).stageMask)[i]?

/-- The arrivals at the stages that an entry ran (05 R210). -/
def State.ranSlow (s : State) (o : Op) : List SlowRec := o.slow.filter fun r => (s.ranStages o).contains r.stage

/-- The stage record that SLOWEST names: the largest spread of arrivals, the higher stage on a tie (05 R210). -/
def slowest (rs : List SlowRec) : Option SlowRec :=
  rs.foldl (fun best r => match best with
    | none => some r
    | some b =>
      let x := r.last - r.first
      let y := b.last - b.first
      if y < x || (x == y && b.stage < r.stage) then some r else some b) none

/-- SLOW_VALID: a group-wide entry that ran at least one stage (05 R210). -/
def Op.slowValid (o : Op) : Bool := isGroupWide o.desc.opcode && !o.coll.reached.isEmpty

/-- A time in units of 64 ns, saturating at 16 bits. -/
def wait64 (ns : Nat) : Nat := min 0xFFFF (ns / 64)

/-- SLOWEST (03 R124). -/
def slowWord (r : SlowRec) : Nat := r.die + at_ r.stage 18

/-- SLOWEST and SLOW_WAIT of an entry: a missing peer and 0xFFFF where a timeout ended it, else the slowest stage's (05 R210, R213); so
also where a timeout finds no token missing but parcels alone (DESIGN CHOICE, log entry 16). -/
def State.slowField (s : State) (o : Op) : Nat × Nat :=
  if !o.slowValid then (0, 0)
  else match o.missed with
    | some (st, die) => (slowWord { stage := st, first := 0, last := 0, die }, 0xFFFF)
    | none => ((slowest (s.ranSlow o)).map fun r => (slowWord r, wait64 (r.last - r.first))).getD (0, 0)

/-- The elements among those counted that this member outputs (06 R266): all of them, but for the chunks of a
REDUCE_SCATTER that other members own; with LENGTH 0 that is its one element (05 R191) (in part DEDUCED, log entries 16 and 25). -/
def State.outputEls (s : State) (o : Op) (els : List Nat) : List Nat :=
  if o.desc.opcode == opReduceScatter && o.desc.length != 0 then
    let x := s.redCx o .main
    let spans := x.owned.map x.chunkSpan
    els.eraseDups.filter fun i => spans.any fun (i0, n) => i0 ≤ i && i < i0 + n
  else els.eraseDups

/-- SATURATED and FLUSHED of an entry (06 R266-R268). -/
def State.saturated (s : State) (o : Op) : Nat := (s.outputEls o o.satEls).length
def State.flushed (s : State) (o : Op) : Nat := (s.outputEls o o.flushEls).length

/-- FLAGS.EMPTY (05 R191): LENGTH 0, or a reduction none of whose output elements here has received a contribution, so also where
this member owns no element of a REDUCE_SCATTER; an entry that ends early has no such output (in part DEDUCED, log entry 25). -/
def Op.isEmptyEntry (o : Op) : Bool :=
  let d := o.desc
  (usedBy d.opcode).length && d.opcode != opDigest &&
    (d.length == 0 ||
      ((d.opcode == opAllreduce || d.opcode == opReduceScatter) && !o.fed && o.ended.isNone))

/-- FLAGS of a completion record (03 R124). -/
def State.flags (s : State) (o : Op) : Nat :=
  b1 o.isEmptyEntry + 2 * b1 o.lag + 4 * b1 (s.saturated o != 0 || s.flushed o != 0) + 8 * b1 o.slowValid +
    16 * b1 o.resumed

/-- The 32 bytes of a completion record (03 R124). -/
def State.completionBytes (s : State) (o : Op) (status : Nat) : List Byte :=
  leBytes 1 status ++ leBytes 1 (s.flags o) ++ leBytes 2 o.desc.cookie ++ leBytes 4 (min 0xFFFFFFFF o.spill) ++
    leBytes 4 (min 0xFFFFFFFF (s.saturated o)) ++ leBytes 4 (min 0xFFFFFFFF (s.flushed o)) ++ leBytes 8 s.stamp ++
    leBytes 4 (s.slowField o).1 ++ leBytes 2 (s.slowField o).2 ++
    leBytes 2 0

/-- QUEUE_STATUS.STATE codes (03 R127). -/
def QState.code : QState → Nat
  | .disabled => 0
  | .running => 1
  | .draining => 2
  | .error => 3
  | .halted => 4
  | .absent => 5

/-- The word of a head write-back (03 R106). -/
def headWord (x : QueueSt) : List Byte := leBytes 8 (x.head + at_ x.state.code 32)

/-- QUEUE_STATUS (03 R137). An ABSENT queue is bound to no agent, so its AGENT_FROZEN reads 0 also where a record of WEIGHT 0 names
one that is frozen (DESIGN CHOICE, log entry 15). -/
def State.queueStatus (s : State) (q : Nat) : Nat :=
  let x := s.queue q
  x.state.code + at_ (b1 (s.isFrozen x.map.agent && x.state != .absent)) 3 + at_ (b1 x.resume.valid) 4 +
    at_ (min 31 (s.inFlight q)) 8 + at_ (min 31 x.buffered.length) 16 + at_ x.cause 24 + at_ x.errIndex 32

end Sys2Proof.Machine
end

