-- ==== Sys2Proof/WellFormed.lean ====
section
/-! DEFINITION. Which operands an event of this hardware can carry: every field of a message, a flit, a response or a
report within the width that the manual gives it. A command whose operands are not well formed ends in the fault
`illFormed`. -/

namespace Sys2Proof

/-- A number fits a field of `w` bits. -/
def fits (w n : Nat) : Bool := decide (n < 2 ^ w)

/-- A list names nothing twice. -/
def distinct : List Nat → Bool
  | [] => true
  | x :: t => !t.contains x && distinct t

/-- The common part of a control-type message (12 R461). -/
def Common.wf (c : Common) : Bool :=
  fits 12 c.group && fits 3 c.stage && fits 4 c.run && fits 32 c.step && fits 16 c.entry

/-- TOKEN (12 R461). -/
def Token.wf (t : Token) : Bool :=
  fits 18 t.src && t.c.wf && fits 8 t.opcode && fits 8 t.operator && fits 8 t.formats && fits 8 t.acc && fits 8 t.numeric &&
    fits 8 t.v && fits 32 t.length && fits 16 t.aux16 && fits 32 t.aux32 && fits 32 t.latchStep && fits 32 t.count &&
    fits 32 t.rank && fits 32 t.gen

/-- HALT (12 R461): at most eight names. -/
def HaltMsg.wf (m : HaltMsg) : Bool :=
  fits 18 m.src && m.c.wf && fits 8 m.cause && decide (m.missing.length ≤ 8) && m.missing.all (fits 18)

/-- SIGNAL (12 R461): a sync counter has a number of 12 bits (03 R107). -/
def SignalMsg.wf (m : SignalMsg) : Bool :=
  fits 18 m.src && m.c.wf && fits 12 m.counter && fits 32 m.amount && fits 16 m.n && fits 32 m.ref

/-- SIGNAL_ACK (12 R461). -/
def AckMsg.wf (m : AckMsg) : Bool := fits 18 m.src && m.c.wf && fits 8 m.code && fits 32 m.ref

/-- ANSWER (12 R461). -/
def AnswerMsg.wf (m : AnswerMsg) : Bool :=
  fits 18 m.src && m.c.wf && fits 32 m.chunk && fits 32 m.indexBase && fits 8 m.kind && fits 8 m.valid && fits 8 m.nack &&
    fits 8 m.reason

/-- LEVEL_MARK (12 R461). -/
def LevelMsg.wf (m : LevelMsg) : Bool := fits 18 m.src && m.c.wf

/-- RECALL (12 R461). -/
def RecallMsg.wf (m : RecallMsg) : Bool :=
  fits 18 m.src && m.c.wf && fits 18 m.chunk && fits 32 m.origin && fits 32 m.suspect && fits 8 m.kind

/-- LANDING_CREDIT (12 R461). -/
def CreditMsg.wf (m : CreditMsg) : Bool := fits 18 m.src && m.c.wf && fits 32 m.k

/-- WITHDRAW (12 R461). -/
def WithdrawMsg.wf (m : WithdrawMsg) : Bool := fits 18 m.src && m.c.wf && fits 8 m.cause

/-- A twin check record (09 R368; 12 R461). -/
def TwinRec.wf (r : TwinRec) : Bool :=
  fits 24 r.key.k && fits 3 r.key.phase && fits 3 r.key.stage && fits 4 r.key.round && fits 18 r.key.chunk &&
    fits 20 r.key.parcel && fits 32 r.crc

/-- A parcel header (10 R376). -/
def PHdr.wf (h : PHdr) : Bool :=
  fits 12 h.group && fits 3 h.stage && fits 4 h.format && fits 4 h.kind && fits 32 h.step && fits 16 h.entry && fits 4 h.run &&
    fits 18 h.chunk && fits 20 h.index && decide (1 ≤ h.count) && decide (h.count ≤ 4096) && fits 32 h.crc && fits 61 h.residue

/-- A PARCEL: at most 64 flits of payload (12 R460, R461). -/
def Parcel.wf (p : Parcel) : Bool := fits 18 p.src && p.h.wf && decide (p.payload.length ≤ 4096)

/-- The codes of UNIT (11 R416). -/
def unitCode (u : Nat) : Bool :=
  decide (u ≤ 0x10) || decide (0x100 ≤ u ∧ u < 0x160) || decide (0x200 ≤ u ∧ u < 0x208) || decide (0x300 ≤ u ∧ u < 0x340) ||
    u == 0x400 || u == 0x401 || decide (0x500 ≤ u ∧ u < 0x508) || decide (0x600 ≤ u ∧ u < 0x608) ||
    decide (0x700 ≤ u ∧ u < 0x705) || u == 0x800 || u == 0x801 || u == 0xFFFF

/-- The units that tests cover: pumps, refiner lanes, cisterns and the check unit (11 R432, R434). -/
def testedUnit (u : Nat) : Bool :=
  decide (u ≤ 0x10) || decide (0x100 ≤ u ∧ u < 0x160) || decide (0x300 ≤ u ∧ u < 0x340) || u == 0x400

/-- A failure found by a test (11 R414, R415, R432). -/
def TestFail.wf (f : TestFail) : Bool :=
  fits 16 f.pour && testedUnit f.unit && fits 32 f.expected && fits 32 f.found && fits 32 f.pass

/-- The syndrome words that name the chunk, the parcel and the sender of a report are its own, and a word that tells one of two things is
0 or 1 (11 R415). -/
def FaultRep.tied (r : FaultRep) : Bool :=
  match r.type with
  | 0x03 => decide (r.s0 ≤ 1)
  | 0x04 => fits 4 r.s0 && r.s1 == r.chunk && r.s2 == r.parcel && r.s3 == r.suspect
  | 0x05 => r.s0 == r.chunk && r.s1 == r.parcel
  | 0x06 => r.s0 == r.chunk && r.s1 == r.parcel && decide (r.s3 ≤ 1)
  | 0x07 => r.s1 == r.chunk && r.s2 == r.parcel
  | _ => true

/-- A report on the fault path (11 R414-R416). -/
def FaultRep.wf (r : FaultRep) : Bool :=
  r.tied && decide (1 ≤ r.type) && decide (r.type ≤ 0x16) && unitCode r.unit && fits 8 r.operation && fits 3 r.stage && fits 16 r.group &&
    fits 32 r.entry && fits 18 r.chunk && fits 20 r.parcel && fits 18 r.suspect && fits 32 r.s0 && fits 32 r.s1 &&
    fits 32 r.s2 && fits 32 r.s3

/-- An upset word of a cistern: 262,144 words of 39 bits in a bank of 1 MiB (01 R33, R34) (in part DEDUCED, log entry 18). -/
def Upset.wf (u : Upset) : Bool :=
  fits 18 u.word && !u.bits.isEmpty && u.bits.all (fun b => decide (b < 39)) && distinct u.bits

/-- A TRAIN flit (12 R465). -/
def TrainFlit.wf (t : TrainFlit) : Bool :=
  fits 3 t.port && fits 18 t.die && fits 4 t.ready && fits 8 t.width && fits 8 t.count

/-- A temperature of the sense input: 12 bits, signed (12 R484). -/
def tjWf (t : Int) : Bool := decide (-2048 ≤ t) && decide (t ≤ 2047)

/-- A value of a sense input (12 R484). -/
def senseWf (w : Sense) (v : Int) : Bool :=
  match w with
  | .veng => decide (0 ≤ v) && decide (v ≤ 1023)
  | .tj => tjWf v

/-- Bytes of a fabric response: two beats of 128 B (12 R454). -/
def responseWf (data : List Byte) : Bool := data.length == 256

/-- The data of a flit (12 R459). -/
def flitWf (data : List Byte) : Bool := data.length == 64

/-- The fields of a STATUS flit (12 R465). -/
def statusWf (credits : List (BitVec 16)) (width : Nat) : Bool := credits.length == 4 && fits 8 width

/-- The fields of a LINK_STATE message: a package port of a die (12 R461, R469). -/
def linkStateWf (src port nonce : Nat) : Bool := fits 18 src && fits 2 port && fits 32 nonce

/-- The check records of one message: one or two (12 R461). -/
def twinRecordWf (src : Nat) (rs : List TwinRec) : Bool :=
  fits 18 src && decide (1 ≤ rs.length) && decide (rs.length ≤ 2) && rs.all TwinRec.wf

/-- A well-formed command: its operands are ones that an event of the hardware can carry (in part DESIGN CHOICE, log entry 2). -/
def Instr.wf (i : Instr) : Bool :=
  match i with
  | .builtInSelfTest fails | .wholeEngineTest fails | .testAuto fails | .testComplete fails => fails.all TestFail.wf
  | .fabricResponse _ _ _ data => responseWf data
  | .scrubPass ups => ups.all Upset.wf
  | .token t => t.wf
  | .halt h => h.wf
  | .parcel p => p.wf
  | .answer a => a.wf
  | .levelMark l => l.wf
  | .recallMsg r => r.wf
  | .remoteSignal x => x.wf
  | .signalAck a => a.wf
  | .landingCredit x => x.wf
  | .twinPair src _ => fits 18 src
  | .twinRecord src rs => twinRecordWf src rs
  | .faultReport r => r.wf
  | .withdraw x => x.wf
  | .thermal tj => tjWf tj
  | .senseStrobe w v => senseWf w v
  | .train _ t => t.wf
  | .flit _ _ data => flitWf data
  | .status _ _ credits width => statusWf credits width
  | .linkState _ src port _ nonce => linkStateWf src port nonce
  | .nop _ _ | .allreduce _ _ | .reduceScatter _ _ | .allgather _ _ | .broadcast _ _ | .alltoall _ _ | .exchange _ _
  | .rotate _ _ | .update _ _ | .digest _ _ | .barrier _ _ | .signal _ _ | .wait _ _ | .copy _ _ | .mark _ _ | .stepMark _
  | .imageSwap | .load _ | .imageCheck | .discard _ | .start _ | .warmReset _ | .coldReset | .identityDerivation _ _ _
  | .managementPortReady | .keeperClaim _ | .claimWindowClose | .keeperLease _ _ | .leaseLapse | .keeperHandover _ _
  | .handoverWindowClose | .keeperFreeze _ _ | .keeperThaw _ _ | .writeWithoutOwnership _ _ _ | .registerWrite _ _ _
  | .rcRead _ _ | .memberEntryWrite _ _ _ _ | .enable _ _ | .queueDisable _ _ | .cancel _ _ | .kick _ _ | .queueHead _ _ _
  | .poll _ | .fetchBatch _ | .grant | .launchAtCount _ | .stagingPairGrant _ | .transferIssue _ | .fabricTimeout _ _
  | .resume _ _ | .entryComplete _ _ | .headWriteback _ | .flush _ | .cacheWindowWrite _ _ _ _ | .groupResume _ _
  | .groupHalt _ _ | .stepTimeout _ | .dump _ | .heldSignalApply _ | .busyResend _ _ | .signalRequest _ _
  | .syncValueWrite _ _ _ | .wakePulse _ | .hostMirrorWrite _ | .barrierAndRise _ | .force _ _ | .lendOffer | .lendGrant
  | .lendReclaim | .tallyLock _ | .tallyLoss _ | .cadenceAlign | .twinCtrlWrite _ _ | .twinDivergeLatch | .twinAlone
  | .go _ _ | .paceWrite _ _ _ | .baseMvWrite _ _ | .clearRelief _ | .vengStep | .vengSense | .senseStale _ | .request _ _
  | .surgeBegin | .surgeWindowSpent | .drawGrantFall | .ledgerSpent | .ledgerRecord | .restore _ | .retrain _ _
  | .linkEnWrite _ _ _ | .phyReady _ _ | .trainAttemptFail _ | .trainBackoff _ | .calibrationComplete _ _ | .phyLost _ _
  | .linkSilence _ | .nack _ _ _ | .replayBackoff _ | .statusSend _ | .resetRelease _ | .budgetReturned | .reclaimLimit
  | .flushDone | .capRelease => true

end Sys2Proof
end

