-- ==== Sys2Proof/Machine/Access.lean ====
section
/-! DEFINITION. The management port and the keeper (00 R10-R17; 02 R84-R89; 12 R482, R483; 13 R493, R504, R505): the response
to an access, ownership, the lease, freezes, and the form of every owner write. -/

namespace Sys2Proof.Machine

/-- The outcome of a command: the queue of commands and the time are the step's own. -/
def finish (s t : State) : Host.Outcome State Fault Refusal := .next { t with pending := s.pending, now := s.now }

/-- A command whose effect leaves the management plane alone: the keeper and the port keep what they hold
(in part DEDUCED, log entry 13). -/
def finishPlain (s t : State) : Host.Outcome State Fault Refusal :=
  finish s { t with mgmt := s.mgmt }

/-- The outcome of a command whose operands must be well formed (in part DESIGN CHOICE, log entries 2 and 37). -/
def checked (ok : Bool) (what : String) (o : Host.Outcome State Fault Refusal) : Host.Outcome State Fault Refusal :=
  if ok then o else .fault (.illFormed what)

/-! ### Responses (12 R482) -/

def respOk : Nat := 0
def respError : Nat := 1
def respFrozen : Nat := 2

/-- Answer an access (in part DEDUCED, log entry 12). -/
def respond (s : State) (m : Mgmt) (status : Nat) (data : W64) : State :=
  { s with mgmt := { s.mgmt with resp := some ⟨m.id, m.agent, status, data⟩ } }

/-! ### Ownership (02 R84-R88) -/

/-- OWNED or HANDOVER: there is an owner. -/
def KeeperSt.hasOwner (k : KeeperSt) : Bool := k.ownership == .owned || k.ownership == .handover

/-- The agent owns the engine. -/
def State.owns (s : State) (a : Nat) : Bool := s.keeper.hasOwner && s.keeper.owner == a

/-- The lease starts again (02 R85). -/
def restartLease (s : State) : State := s.updKeeper fun k => { k with leaseAt := s.now }

/-- The engine becomes UNOWNED; a handover is cancelled (02 R85). -/
def unown (s : State) : State := s.updKeeper fun k => { k with ownership := .unowned, claimants := [] }

/-- The engine is owned by an agent, with a new lease (02 R85). -/
def ownBy (s : State) (a : Nat) : State :=
  restartLease (s.updKeeper fun k => { k with ownership := .owned, owner := a, claimants := [] })

/-- Freeze causes (02 register list): 1 write without ownership, 2 foreign descriptor, 3 by the owner. -/
def causeWrite : Nat := 1
def causeForeign : Nat := 2
def causeOwner : Nat := 3

/-- Freeze an agent; a frozen one keeps its first cause. A frozen owner loses the engine (02 R85, R87; 13 R505). -/
def freezeAgent (s : State) (a cause : Nat) : State :=
  if s.isFrozen a then s
  else
    let s' := s.updKeeper fun k => { k with causes := tabSet (fun _ => 0) k.causes a cause }
    if s.owns a then unown s' else s'

/-- Thaw an agent (13 R505). -/
def thawAgent (s : State) (a : Nat) : State :=
  s.updKeeper fun k => { k with causes := tabSet (fun _ => 0) k.causes a 0 }

/-- OWNERSHIP codes (02 R84). -/
def Ownership.code : Ownership → Nat
  | .unowned => 0
  | .contest => 1
  | .owned => 2
  | .handover => 3

/-- PHASE codes (02 R84). -/
def Phase.code : Phase → Nat
  | .noImage => 0
  | .lowWater => 1
  | .full => 2

/-- The frozen set, one bit per agent. -/
def State.frozenSet (s : State) : Nat := ((List.range 8).map fun a => at_ (b1 (s.isFrozen a)) a).sum

/-- The freeze causes, 4 bits per agent (13 R505). -/
def State.freezeCauses (s : State) : Nat := ((List.range 8).map fun a => at_ (s.cause a) (4 * a)).sum

/-- Microseconds left on the lease (in part DESIGN CHOICE, log entry 5). -/
def State.leaseLeft (s : State) : Nat :=
  if s.keeper.hasOwner then (10000000 - min 10000000 (s.now - s.keeper.leaseAt)) / 1000 else 0

/-- KEEPER_STATE (02 R84); OWNER and SUCCESSOR read 0 where they have no meaning (DESIGN CHOICE, log entry 12). -/
def State.keeperState (s : State) : Nat :=
  let k := s.keeper
  k.ownership.code + at_ (if k.hasOwner then k.owner else 0) 2 + at_ (if k.ownership == .handover then k.successor else 0) 5 + at_ s.frozenSet 8 + at_ k.phase.code 16 +
    at_ (b1 (k.quarantine || k.idFail)) 18 + at_ (b1 k.idFail) 19 + at_ s.leaseLeft 24

/-! ### The form of a write (00 R16, R17; 02 R85-R88; 12 R482) -/

/-- A write without ownership: no effect but the freeze; whether it is answered FROZEN or ERROR is left open (00 R17,
02 R88) (in part DESIGN CHOICE, log entry 4). -/
def foreignWrite (s : State) (m : Mgmt) : State :=
  let status := if Config.frozenAnswer s.fresh then respFrozen else respError
  respond (freezeAgent { s with fresh := s.fresh + 1 } m.agent causeWrite) m status 0

/-- Who may write: ERROR before the port is ready, FROZEN from a frozen agent, a freeze without ownership; the owner's write
is carried out (in part DEDUCED, log entry 12). -/
def ownerWrite (s : State) (m : Mgmt) (effect : State → State) : State :=
  if !s.mgmt.portReady then respond s m respError 0
  else if s.isFrozen m.agent then respond s m respFrozen 0
  else if !s.owns m.agent then foreignWrite s m
  else effect s

/-- A write: the owner's is carried out and restarts the lease, or is rejected with ERROR and changes nothing. The port and
the identity keep what they hold (in part DEDUCED, log entry 12). -/
def mgmtWrite (s : State) (m : Mgmt) (effect : State → Option State) : State :=
  ownerWrite s m fun s => match effect s with
    | none => respond s m respError 0
    | some t => respond { (if t.owns m.agent then restartLease t else t) with mgmt := s.mgmt } m respOk 0

/-- A read: its value, and what it does (02 R85, R88; 13 R492) (in part DEDUCED, log entry 12). -/
def mgmtRead (s : State) (m : Mgmt) (value : State → W64) (effect : State → State) : State :=
  if !s.mgmt.portReady then respond s m respError 0
  else if s.isFrozen m.agent then respond s m respFrozen 0
  else
    let t := effect s
    respond t m respOk (value s)

/-! ### Claims and handovers (02 R85; 13 R504) -/

/-- What a read of KEEPER_CLAIM by a non-frozen agent does (in part DEDUCED, log entry 12). -/
def claim (s : State) (a : Nat) : State :=
  match s.keeper.ownership with
  | .unowned => s.updKeeper fun k => { k with ownership := .contest, claimants := [a], claimAt := s.now }
  | .contest => if s.now ≤ s.keeper.claimAt + 1000 then s.updKeeper fun k => { k with claimants := addTo a k.claimants } else s
  | .owned => s
  | .handover => if s.keeper.successor = a ∧ s.now ≤ s.keeper.handoverAt + 1000000 then ownBy s a else s

/-- A write of KEEPER_HANDOVER (in part DEDUCED, log entry 12). -/
def writeHandover (s : State) (a : Nat) (d : W64) : Option State :=
  let next := bits d.toNat 0 3
  if bit d.toNat 3 then
    if next = a || s.isFrozen next || s.keeper.ownership == .handover then none
    else some (s.updKeeper fun k => { k with ownership := .handover, successor := next, handoverAt := s.now })
  else some (s.updKeeper fun k => { k with ownership := .owned, successor := next })

/-- A write of KEEPER_FREEZE (13 R505). -/
def writeFreeze (s : State) (d : W64) : State :=
  ((List.range 8).filter (bit d.toNat)).foldl (fun s a => freezeAgent s a causeOwner) s

/-- A write of KEEPER_THAW (13 R505). -/
def writeThaw (s : State) (d : W64) : State := ((List.range 8).filter (bit d.toNat)).foldl thawAgent s

/-- A write of KEEPER_LEASE (13 R504): any value; the write itself restarts the lease. -/
def writeLease (s : State) (d : W64) : State := s.updKeeper fun k => { k with leaseValue := d }

end Sys2Proof.Machine
end

