-- ==== Sys2Proof/Machine/Queues.lean ====
section
/-! DEFINITION. The work queues at work (03 R112-R133): enabling, disabling, cancelling, fetching, checking, granting, and
completion; with the commands of the family. -/

namespace Sys2Proof.Machine

/-! ### Enable, disable, cancel, head (03 R128-R131) -/

/-- Whether a queue stands idle with its ring in software's hands (03 R131). -/
def State.queueIdle (s : State) (q : Nat) : Bool :=
  let x := s.queue q
  !x.enable && s.inFlight q == 0 && (x.state == .disabled || x.state == .error || x.state == .halted)

/-- Setting ENABLE (03 R130, R131): a HALTED queue waits for its group's resume mark; a RUNNING one goes on. -/
def enableQueue (s : State) (q : Nat) : Option State :=
  let x := s.queue q
  if x.state == .running then some s
  else if s.queueIdle q && !(x.state == .halted && (s.group x.map.group).halted) then
    some (startFetch (s.setQueue q { x with
      enable := true, state := .running, cause := 0, errIndex := 0, fetch := x.head, lastFilled := true
      finished := [], failedWb := [], wbDirty := true }) q)
  else none

/-- Cancel the started entries of a queue that have issued no result write and sent no parcel; a remote SIGNAL that has been sent
runs on (03 R129) (in part DEDUCED, log entry 15). -/
def cancelQueue (s : State) (q : Nat) : State :=
  endWhere s (fun o => o.q == q && !o.wroteResult && !o.sentParcel && o.sig.isNone) fun _ => codeCancelled

/-- A write of QUEUE_CTRL (03 R136): CANCEL, then ENABLE, then KICK (in part DEDUCED, log entry 15). -/
def writeQueueCtrl (s : State) (q : Nat) (d : W64) : Option State :=
  let s' := if bit d.toNat 1 then cancelQueue s q else s
  let r := if bit d.toNat 0 then enableQueue s' q else some (disableQueue s' q)
  r.map fun t => if bit d.toNat 2 then startFetch t q else t

/-- A write of QUEUE_HEAD (03 R131). -/
def writeQueueHead (s : State) (q : Nat) (d : W64) : Option State :=
  let h := bits d.toNat 0 32
  if s.queueIdle q then
    some (s.updQueue q fun x => { x with head := h, fetch := h, finished := [], failedWb := [], wbDirty := true })
  else none

/-! ### Checking the oldest unstarted entry (03 R120; 02 R87; 04 R142) -/

/-- Take the oldest unstarted entry from the buffer. -/
def popBuffered (s : State) (q : Nat) : State := s.updQueue q fun x => { x with buffered := x.buffered.drop 1 }

/-- An entry of another agent: it completes unexecuted, and the agent is frozen (02 R87); until its record is visible it counts among
the 16 entries of R112 (in part DEDUCED, log entry 15). It takes no number among the group-wide entries of the step (03 R133)
(DESIGN CHOICE, log entry 15). -/
def foreignEntry (s : State) (q : Nat) (b : Buffered) : State :=
  let t := popBuffered s q
  freezeAgent { t with ops := t.ops ++ [{ q, c := b.count, desc := b.desc, ended := some codeForeign }] } b.desc.agent causeForeign

/-- Ask for the static map of an entry (04 R142; 05 R199). -/
def readMap (s : State) (q : Nat) (b : Buffered) : State :=
  let addr := b.desc.aux64 / 64 * 64
  let n := 8 * s.mapEntries b.desc
  let id := (s.queue q).mapId + 1
  enqueueRead (s.updQueue q fun x => { x with mapId := id, mapLeft := (blocks addr n).length, mapBuf := [] }) q addr n siphonOf
    fun k => .staticMap q b.count id k

/-- Check the oldest unstarted entry; one that is not executed gives way to the next (03 R120). An entry that has passed is not
checked again, also where an image swap comes before it starts (DESIGN CHOICE, log entry 15). -/
def checkHead (q : Nat) : Nat → State → State
  | 0, s => s
  | fuel + 1, s =>
    match (s.queue q).buffered with
    | [] => s
    | b :: rest =>
      if b.checked || (s.queue q).state != .running || (s.queue q).mapLeft != 0 then s
      else match checkEntry s q b.desc b.map with
        | .pass => s.updQueue q fun x => { x with buffered := { b with checked := true } :: rest }
        | .foreign => if 16 ≤ s.inFlight q then s else checkHead q fuel (refill (foreignEntry s q b) q)
        | .malformed cause => queueError s q cause b.count
        | .needMap => readMap s q b

def checkQueue (s : State) (q : Nat) : State := checkHead q 17 s

/-! ### Batches (03 R102, R115-R117) -/

/-- The entries of a batch up to the first whose OWN is 0. -/
def takeOwned (data : Tab Byte) (start : Nat) : Nat → Nat → List Buffered
  | 0, _ => []
  | n + 1, k =>
    let d := decodeDesc (bufRead data (64 * k) 64)
    if d.own then { count := (start + k) % 2 ^ 32, desc := d } :: takeOwned data start n (k + 1) else []

/-- A batch that has returned whole is taken (03 R116) (in part DEDUCED, log entry 15). -/
def takeBatch (s : State) (q : Nat) : State :=
  let x := s.queue q
  match x.batch with
  | none => s
  | some b =>
    if b.left != 0 then s
    else
      let es := takeOwned b.data b.start b.entries 0
      let full := es.length == b.entries
      let s := s.setQueue q { x with
        buffered := x.buffered ++ es, fetch := (b.start + es.length) % 2 ^ 32, batch := none, lastFilled := full
        pollAt := if full then x.pollAt else s.now }
      checkQueue (refill s q) q

/-! ### Grants (03 R112-R114, R118, R119; 08 R319; 09 R356, R365) -/

/-- Whether the twin registers hold an entry back: EN without a pair, at or beyond TWIN_START (09 R365). -/
def State.twinWaits (s : State) (q c : Nat) : Bool :=
  s.twin.en && !s.twin.paired && s.twin.queue == q && diff32 c s.twin.start < 2 ^ 31

/-- Whether a checked entry is held by its order, its class, its count or a limit. -/
def State.holdsEntry (s : State) (q : Nat) (b : Buffered) : Bool :=
  (s.queue q).holding.isSome || ((b.desc.fence || b.desc.opcode == opMark) && s.inFlight q != 0) ||
  (b.desc.opcode == opWait && 32 ≤ (s.started.filter fun o => o.desc.opcode == opWait).length) || s.twinWaits q b.count

/-- Whether an entry is held by its count (03 R114; 09 R356). -/
def State.holdsCount (s : State) (b : Buffered) : Bool :=
  b.desc.launchAt && (!s.tally.lock || s.tally.tally < b.desc.launch)

/-- Eligible in every respect but the count (03 R118; 01 R20, R23, R28). -/
def State.eligibleBut (s : State) (q : Nat) : Bool :=
  let x := s.queue q
  x.state == .running && !s.isFrozen x.map.agent && !(x.map.comm && (s.group x.map.group).halted) && s.inFlight q < 16 && s.img.swapping.isNone && !s.warden.testHold &&
  s.started.length < 64 &&
  (match x.buffered with
    | [] => false
    | b :: _ => b.checked && !s.holdsEntry q b)

/-- Eligible (03 R118). -/
def State.eligible (s : State) (q : Nat) : Bool :=
  s.eligibleBut q && (match (s.queue q).buffered with
    | [] => false
    | b :: _ => !s.holdsCount b)

/-- The entries that are held by their counts alone, noted as a nanosecond ends (09 R355). -/
def noteCounting (s : State) : State :=
  { s with sluice := { s.sluice with counting := s.queues.filterMap fun (q, x) => match x.buffered with
    | b :: _ => if b.desc.launchAt && s.eligibleBut q && (s.tally.tally ≤ b.desc.launch || s.sluice.counting.contains (q, b.count))
      then some (q, b.count) else none
    | [] => none } }

/-- Whether an entry starts late: more than 2 ns after its count, or one whose count had passed when it became eligible or when the tally
locked (09 R355, R356). -/
def State.isLate (s : State) (q : Nat) (b : Buffered) : Bool :=
  b.desc.launchAt && (b.desc.launch + 2 < s.tally.tally || b.desc.launch < s.tally.lockedAt ||
    (b.desc.launch < s.tally.tally && !(s.sluice.counting.contains (q, b.count))))

/-- A late launch is recorded (09 R355). -/
def noteLate (s : State) (q : Nat) (b : Buffered) : State :=
  let d := b.desc
  if s.isLate q b then
    s.updTally fun t => { t with
      lateSeen := true, lateQueue := q, lateBy := min 0xFFFFFFFF (t.tally - d.launch), lates := satAdd 0xFFFF t.lates 1 }
  else s

/-- The status of an entry that is granted but not executed (02 R81, R97) (in part DEDUCED, log entry 15). -/
def State.notExecuted (s : State) (d : Desc) : Option Nat :=
  if !(s.fullService d) && !(lowWaterAllows s d) then some codeLowWater
  else if d.opcode == opUpdate && (s.group d.group).rebalance then some codeRebalance
  else none

/-- The operation of a granted entry (01 R23; 03 R133; 06 R271) (in part DEDUCED, log entries 16 and 25). -/
def State.opOf (s : State) (q : Nat) (b : Buffered) : Op :=
  let d := b.desc
  let x := s.group d.group
  { q, c := b.count, desc := d
    num := if d.noGroup then 0xFFFF else x.entryNo
    run := if d.noGroup then 0 else x.run
    step := if d.noGroup then 0 else x.step
    key := s.num.key, ended := s.notExecuted d, partition := s.partitionFor d, map := b.map.getD [] }

/-- Start the oldest unstarted entry of a queue: it takes an execution slot, and asks for its staging pair (01 R23; 03 R112, R119;
04 R150) (in part DEDUCED, log entry 16). -/
def grantEntry (s : State) (q : Nat) : State :=
  match (s.queue q).buffered with
  | [] => s
  | b :: _ =>
    let d := b.desc
    let o := s.opOf q b
    let first := isGroupWide d.opcode && o.num == 0 && o.run == 0
    let s := (noteLate s q b).updSync fun y => { y with quietSince := none }
    let s := (popBuffered s q).updQueue q fun x => { x with
      grants := (x.grants + 1) % 2 ^ 64, holding := if holdsLater d.opcode then some b.count else none }
    let s := { s with ops := s.ops ++ [o] }
    let s := if isGroupWide d.opcode then s.updGroup d.group fun x => { x with entryNo := x.entryNo + 1 } else s
    let s := if d.v then s.updTally fun t => { t with vEntries := wrap32 (t.vEntries + 1) } else s
    let s := if first then openSlot s d.group else s
    let s := if d.opcode == opBarrier then s.updGroup d.group fun x => { x with genActive := true } else s
    checkQueue (refill (askPair s q b.count) q) q

/-- Credit of a queue in the present round. -/
def SluiceSt.credit (x : SluiceSt) (q : Nat) : Nat := tabGet (fun _ => 0) x.credits q

/-- The queues in the order the sluice visits them, with the grants already made in the visit. -/
def SluiceSt.visits (x : SluiceSt) : List (Nat × Nat) :=
  (x.cur, x.burst) :: (List.range 256).map fun k => ((x.cur + k + 1) % 256, 0)

/-- The next grant of a round: the first queue that is eligible with credit and burst left (03 R119). -/
def State.pick (s : State) (x : SluiceSt) : Option (Nat × Nat) :=
  x.visits.find? fun (q, n) => s.eligible q && 0 < x.credit q && n < (s.queue q).map.burst

/-- The sluice at the beginning of a round (03 R119) (in part DEDUCED, log entry 15). -/
def State.newRound (s : State) : SluiceSt :=
  { s.sluice with
    active := true, cur := (s.sluice.last + 1) % 256, burst := 0
    credits := s.queues.filterMap fun (q, x) => if x.map.weight = 0 then none else some (q, x.map.weight) }

/-- Charge a grant to a round. -/
def SluiceSt.charge (x : SluiceSt) (q n : Nat) : SluiceSt :=
  { x with last := q, cur := q, burst := n + 1, credits := tabSet (fun _ => 0) x.credits q (x.credit q - 1) }

/-- One grant of the sluice (03 R119); none while budget is lent (08 R322). -/
def grantNext (s : State) : State :=
  if s.sync.lent then s
  else
    let round := if s.sluice.active && (s.pick s.sluice).isSome then s.sluice else s.newRound
    match s.pick round with
    | some (q, n) => grantEntry { s with sluice := round.charge q n } q
    | none => { s with sluice := { s.sluice with active := false } }

/-- A LAUNCH_AT entry whose count has come starts in the first handshake (09 R353), out of the round's turn; it takes a
credit of the round if its queue has one (in part DEDUCED, log entry 15). -/
def launchEntry (s : State) (q : Nat) : State :=
  match (s.queue q).buffered with
  | [] => s
  | b :: _ =>
    if b.desc.launchAt && s.eligible q && !s.sync.lent then
      grantEntry { s with sluice := { s.sluice with
        last := q, credits := tabSet (fun _ => 0) s.sluice.credits q (s.sluice.credit q - 1) } } q
    else s

/-! ### Completion (03 R105, R111, R124-R126; 05 R210, R211, R226; 06 R248, R269; 10 R393, R405, R408) -/

/-- Whether an operation may complete: an early end once its last tag has returned, else under hold when it is settled and
under flow when its own part is complete (04 R173; 10 R390). -/
def State.canComplete (s : State) (o : Op) : Bool :=
  match o.ended with
  | some _ => (s.entryXfers o.q o.c).isEmpty && !(o.upd.phase == .writing || o.upd.phase == .header)
  | none => o.ready && (o.settled || !isGroupWide o.desc.opcode || (s.gr o.desc.group).flow ||
      o.desc.opcode == opBarrier || o.desc.opcode == opMark)

/-- The maximum and the minimum that a DIGEST has found. -/
def State.digestPair (s : State) (o : Op) : Nat × Nat :=
  match (digestItems s o (s.redCx o .digest)).filterMap id with
  | it :: _ => ((it.pv.els[0]?).getD 0, (it.pv.els[1]?).getD 0)
  | [] => (0, 0)

/-- A DIGEST whose maximum and minimum differ. -/
def State.digestDiffers (s : State) (o : Op) : Bool :=
  o.desc.opcode == opDigest && o.ended.isNone && (s.digestPair o).1 != (s.digestPair o).2

/-- An entry that was executed: none that completed as foreign, in low-water service or under REBALANCE (02 R81, R87, R97). One that
was not leaves the parked mark of its group as it was (02 R73) (DESIGN CHOICE, log entry 24). -/
def Op.executed (o : Op) : Bool :=
  o.ended != some codeForeign && o.ended != some codeLowWater && o.ended != some codeRebalance

/-- STATUS of an operation that completes (03 R125, R126; 07 R299; 10 R408). -/
def State.statusOf (s : State) (o : Op) : Nat :=
  let skewed := o.coll.skew.isSome || o.coll.skewMarked
  match o.ended with
  | some st => if skewed then mergeStatus st codeSkew else st
  | none => if skewed then codeSkew else if s.digestDiffers o then codeRecalled else codeOk

/-- GROUP_SLOW takes the arrivals at a stage that a completed entry ran; the timeout that ended one has noted who was missing (05 R210,
R211, R213, R226). Where no peer's token came there, R226 names no peer, and DIE, WAIT and REPEAT stay (DESIGN CHOICE, log entry 16). -/
def slowUpdate (x : SlowReg) (r : Option SlowRec) (timeout : Bool) : SlowReg :=
  let missing := if timeout then x.missing else 0
  match r with
  | none => { x with missing }
  | some r =>
    { die := r.die, wait := wait64 (r.last - r.first)
      rep := if x.rep != 0 && x.die == r.die then satAdd 255 x.rep 1 else 1
      missing }

/-- The slow register of a stage, and its replacement. -/
def GroupSt.slowAt (x : GroupSt) (st : Nat) : SlowReg :=
  match st with
  | 1 => x.slow1
  | 2 => x.slow2
  | 3 => x.slow3
  | _ => x.slow4
def GroupSt.setSlow (x : GroupSt) (st : Nat) (y : SlowReg) : GroupSt :=
  match st with
  | 1 => { x with slow1 := y }
  | 2 => { x with slow2 := y }
  | 3 => { x with slow3 := y }
  | _ => { x with slow4 := y }

/-- What a group-wide entry leaves in its group when it completes: the arrivals at the stages it ran (05 R226), its part of the digest, its generation, and its level marks while it is not settled. -/
def groupCompletes (s : State) (o : Op) : State :=
  let d := o.desc
  let dstBytes := if d.opcode == opAllgather then s.positions d.group * s.outStride d
    else operandBytes d.outFmt (s.blockOf d).1 d.n
  let digested := o.ended.isNone && (d.opcode == opUpdate || d.opcode == opAllgather) && s.digestOn d.group &&
    s.digestD d.group != 0 && o.step % s.digestD d.group == 0
  let crc := crc64 (bufRead o.digest 0 dstBytes)
  s.updGroup d.group fun x =>
    let x := if o.num == 0xFFFF then x else { x with doneNums := x.doneNums ++ [{ num := o.num, count := o.c, tok := tokenOf s o 0 }] }
    let x := (s.ranStages o).foldl (fun x st =>
      x.setSlow st (slowUpdate (x.slowAt st) (o.slow.find? fun r => r.stage == st) (o.ended == some codeTimeout))) x
    let x := if digested then { x with digestParts := x.digestParts ++ [(o.num, crc)] } else x
    let x := if d.opcode == opBarrier then
        { x with genActive := false, gen := if o.ended.isNone then wrap32 (x.gen + 1) else x.gen } else x
    if o.ended.isNone && !o.settled && isMover d.opcode && isGroupWide d.opcode then
      { x with openEntries := x.openEntries ++
        [{ num := o.num, count := o.c, upd := d.opcode == opUpdate, held := o.marksHeld, sent := o.marksSent }] }
    else x

/-- A DIGEST that found a difference: the record of KIND 3, the flag and the warden's record (10 R408; 11 R415)
(in part DEDUCED, log entry 32). -/
def digestMismatch (s : State) (o : Op) : State :=
  if s.digestDiffers o then
    let src := bits o.desc.aux16 0 12
    let x := s.group src
    let v := x.digest.toNat
    let (hi, lo) := s.digestPair o
    let s := s.updInteg fun i => { i with digestMismatch := true }
    let s := makeRecord s { type := 0x15, unit := 0x401, operation := opDigest, group := src, step := x.step, count := o.c
                            s0 := x.digestStep, s1 := v % 2 ^ 32, s2 := v / 2 ^ 32 }
    recallRecord s 3 false false (v != hi || v != lo) src x.digestStep 0xFFFF o.run 0 (2 ^ 18) s.me s.me o.c
  else s

/-- The twin's records of a completed entry: its result, its state, and the first half of its completion record
(09 R368). -/
def twinCompletes (s : State) (o : Op) (bytes : List Byte) : State :=
  match s.pairIndex o.q o.c with
  | none => s
  | some k =>
    twinNote (twinBlocks (twinBlocks s o 2 o.digest) o 3 o.stOut) ⟨k, 4, 0, 0, 0, 0⟩ (crc32c (bytes.take 16))

/-- What AMAX of its queue takes from an entry that completes: the maximum of what it rounded, 0 where that was nothing (06 R248,
R273). -/
def Op.amaxLeft (o : Op) : Option AmaxRec :=
  let d := o.desc
  let rounds := d.opcode == opAllreduce || d.opcode == opReduceScatter || d.opcode == opUpdate ||
    (isMover d.opcode && d.opcode != opDigest && d.inFmt != d.outFmt)
  if o.amax.isNone && rounds && o.ended.isNone && d.length != 0 then some {} else o.amax

/-- Complete an operation: its record goes to memory and its slot and pair are free (03 R105; 01 R23)
(in part DESIGN CHOICE, log entry 6; DEDUCED, log entry 16). -/
def completeOp (s : State) (o : Op) : State :=
  let d := o.desc
  let x := s.queue o.q
  let bytes := s.completionBytes o (s.statusOf o)
  let sat := s.saturated o
  let flushed := s.flushed o
  let t := twinCompletes s o bytes
  let t := digestMismatch t o
  let t := if isGroupWide d.opcode && !o.foreign then groupCompletes t o else t
  let t := if d.noGroup || !o.executed then t else t.updGroup d.group fun x => { x with parked := d.opcode == opMark }
  let t := { t with num := { t.num with satTotal := (t.num.satTotal + sat) % 2 ^ 64
                                        flushTotal := (t.num.flushTotal + flushed) % 2 ^ 64 } }
  let t := t.updQueue o.q fun y => { y with
    amax := match o.amaxLeft with
      | some a => { a with cookie := d.cookie, valid := true }
      | none => y.amax
    notify := if d.notify then y.notify ++ [⟨o.c, d.sync, d.noGroup, d.group⟩] else y.notify }
  let t := if o.desc.opcode == opCopy && s.copyOverlaps d then { t with fresh := t.fresh + 2 ^ 32 } else t
  let t := enqueueWrite (t.removeOp o.q o.c) 1 o.q (x.base + 64 * (o.c % 2 ^ x.log2) + 32) bytes (fun _ => o.q % 8)
    fun _ => .record o.q o.c
  if d.noGroup then t else refreshTimer t d.group

/-- An entry that has ended early finishes the commit unit whose writes it had issued (07 R293): the header once they are
acknowledged, TORN with UPTO at the start of the unit where one of them had faulted (in part DEDUCED, log entry 16). -/
def continueUnit (s : State) (q c : Nat) : State :=
  match s.op? q c with
  | none => s
  | some o =>
    if o.ended.isNone then s
    else match o.upd.phase with
      | .writing =>
        if s.unitBusy o false then s
        else
          let t := s.updOp q c fun o => { o with upd := { o.upd with phase := .header, tornDue := false } }
          writeStHeader t o (if o.upd.tornDue then unitSize * o.upd.unit else o.upd.upto) o.upd.tornDue
      | .header =>
        if s.unitBusy o true then s
        else if o.upd.tornDue then
          writeStHeader (s.updOp q c fun o => { o with upd := { o.upd with tornDue := false } }) o (unitSize * o.upd.unit) true
        else s.updOp q c fun o => { o with upd := { o.upd with phase := .idle } }
      | _ => s

/-- The completion queue (01 R20): the finished operations whose records have not been issued. It holds 64; while it is full no
further operation leaves its slot (R21, R23) (in part DEDUCED, log entry 16). -/
def State.completions (s : State) : List (Nat × Nat) :=
  s.siphons.flatMap fun (_, p) => p.waiting.filterMap fun x => match x.pur with
    | .record q c => some (q, c)
    | _ => none

/-- ENTRY_COMPLETE for an entry. A ROTATE looks here whether it has its last release (05 R223). -/
def completeEntry (s : State) (q c : Nat) : State :=
  let s := continueUnit s q c
  let s := if (s.op? q c).any fun o => o.desc.opcode == opRotate && !o.ready then stepOp s q c else s
  match s.op? q c with
  | none => s
  | some o => if s.canComplete o && s.completions.length < 64 then askHeaders (completeOp s o) else s

/-- HEAD advances over completed entries (03 R106). -/
def advanceHead (q : Nat) : Nat → State → State
  | 0, s => s
  | fuel + 1, s =>
    let x := s.queue q
    if x.finished.contains x.head then
      advanceHead q fuel (s.setQueue q { x with head := inc32 x.head, finished := x.finished.erase x.head, wbDirty := true })
    else s

/-- The completion record is visible: NOTIFY follows it, HEAD advances, and a draining queue may be done (03 R106, R111,
R128) (in part DEDUCED, log entry 16). -/
def recordVisible (s : State) (q c : Nat) : State :=
  let x := s.queue q
  let due := x.notify.filter fun n => n.count == c
  let s := s.setQueue q { x with
    finished := x.finished ++ [c], notify := x.notify.filter fun n => n.count != c
    holding := if x.holding == some c then none else x.holding }
  let s := advanceHead q (x.finished.length + 2) s
  let s := due.foldl (fun s n =>
    if boundElsewhere s n.counter n.noGroup n.group then refuse s n.counter ⟨kindNotify, s.me, q⟩ 1
    else entrySignal s q c n.counter false 1 kindNotify) s
  settleQueue (checkQueue (refill s q) q) q

/-- The write of a completion record has failed (03 R121): the queue enters ERROR, and HEAD stays (in part DEDUCED, log entry 16). -/
def recordFailed (s : State) (q c : Nat) : State :=
  let s := s.updQueue q fun x => { x with
    failedWb := x.failedWb ++ [c], notify := x.notify.filter fun n => n.count != c
    holding := if x.holding == some c then none else x.holding }
  queueError s q 0x0B c

/-- Write the head word when it is due (03 R106). -/
def writeHead (s : State) (q : Nat) : State :=
  let x := s.queue q
  if x.wbEn && x.wbDirty && x.wbAt + 256 ≤ s.now then
    enqueueWrite (s.setQueue q { x with wbDirty := false, wbAt := s.now }) 1 q x.wbAddr (headWord x) (fun _ => q % 8)
      fun _ => .headWb q
  else s

/-! ### Commands -/

/-- ENABLE (03 R131). -/
def execEnable (m : Mgmt) (q : Fin 256) (s : State) : Host.Outcome State Fault Refusal :=
  finish s (mgmtWrite s m fun s => enableQueue s q)

/-- QUEUE_DISABLE (03 R128). -/
def execQueueDisable (m : Mgmt) (q : Fin 256) (s : State) : Host.Outcome State Fault Refusal :=
  finish s (mgmtWrite s m fun s => some (disableQueue s q))

/-- CANCEL (03 R129). -/
def execCancel (m : Mgmt) (q : Fin 256) (s : State) : Host.Outcome State Fault Refusal :=
  finish s (mgmtWrite s m fun s => some (cancelQueue s q))

/-- KICK (03 R117). -/
def execKick (m : Mgmt) (q : Fin 256) (s : State) : Host.Outcome State Fault Refusal :=
  finish s (mgmtWrite s m fun s => some (startFetch s q))

/-- QUEUE_HEAD (03 R131). -/
def execQueueHead (m : Mgmt) (q : Fin 256) (d : W64) (s : State) : Host.Outcome State Fault Refusal :=
  finish s (mgmtWrite s m fun s => writeQueueHead s q d)

/-- POLL (03 R117): the interval since a batch ended at an entry without OWN has passed. -/
def execPoll (q : Fin 256) (s : State) : Host.Outcome State Fault Refusal :=
  let x := s.queue q
  finishPlain s (if !x.lastFilled && x.pollAt + 64 * x.poll ≤ s.now then startFetch s q else s)

/-- FETCH_BATCH (03 R116). -/
def execFetchBatch (q : Fin 256) (s : State) : Host.Outcome State Fault Refusal := finishPlain s (takeBatch s q)

/-- GRANT (03 R119). -/
def execGrant (s : State) : Host.Outcome State Fault Refusal := finishPlain s (grantNext s)

/-- LAUNCH_AT_COUNT (09 R353). -/
def execLaunchAtCount (q : Fin 256) (s : State) : Host.Outcome State Fault Refusal := finishPlain s (launchEntry s q)

/-- HEAD_WRITEBACK (03 R106). -/
def execHeadWriteback (q : Fin 256) (s : State) : Host.Outcome State Fault Refusal := finishPlain s (writeHead s q)

end Sys2Proof.Machine
end

