-- ==== Sys2Proof/Machine/Operations.lean ====
section
/-! DEFINITION. The queue operations (03 R108): what each opcode does when the data plane takes its entry from the dispatch
queue. What follows from messages and transfers is in Progress, Arrivals and the files of those commands. -/

namespace Sys2Proof.Machine

/-- Take the started entry of a queue and count, if it has that opcode, waits in the dispatch queue and has not ended. -/
def takeEntry (s : State) (q c opcode : Nat) (go : State → Op → State) : State :=
  match s.op? q c with
  | none => s
  | some o =>
    if o.desc.opcode == opcode && !o.running && o.ended.isNone then
      let o' := { o with running := true }
      go (s.updOp q c fun _ => o') o'
    else s

/-- What an entry's group keeps time of (05 R212). -/
def timeEntry (s : State) (o : Op) : State := if o.desc.noGroup then s else refreshTimer s o.desc.group

/-- Set a payload-taking entry going: its pair and reads, the tokens and marks that came before it, and its first progress
(04 R150; 05 R209). -/
def startMover (s : State) (o : Op) : State :=
  let s := takePair s o.q o.c
  let s := if isGroupWide o.desc.opcode then replayMarks (replayTokens s o.q o.c) o.q o.c else s
  timeEntry (stepOp s o.q o.c) o

/-- A reduction of LENGTH 0 writes the identity (05 R191). -/
def startReduction (s : State) (o : Op) : State :=
  startMover (if o.desc.length == 0 then writeIdentity s o else s) o

/-- The steps of a ROTATE: AUX32, or one less than the members when it is 0 (05 R219). -/
def State.rotateSteps (s : State) (o : Op) : Nat :=
  if o.desc.aux32 == 0 then (s.gr o.desc.group).memberCount - 1 else o.desc.aux32

/-- ROTATE starts with the number of its steps (05 R219). -/
def startRotate (s : State) (o : Op) : State :=
  let o' := { o with rot := { o.rot with total := s.rotateSteps o } }
  startMover (s.updOp o.q o.c fun _ => o') o'

/-- An entry that has nothing to do is done (03 R108). -/
def startNop (s : State) (o : Op) : State := s.updOp o.q o.c fun o => { o with ready := true, settled := true }

/-- SIGNAL: a local change is applied at once; a remote signal is sent with its tag (08 R309, R323). -/
def startSignal (s : State) (o : Op) : State :=
  let d := o.desc
  let sub := bit d.aux16 0
  if bit d.aux64 63 then
    let g := d.group
    let ref := s.sync.sigRef
    let s := s.updSync fun y => { y with sigRef := wrap32 (ref + 1) }
    let s := s.updOp o.q o.c fun o => { o with sig := some { ref, step := o.step, n := o.num } }
    let s := if s.mayTradeIn g then
        sendTo s (bits d.aux64 0 18)
          (.signal { src := s.me, c := commonOf s g 0 0, counter := d.sync, sub, amount := d.aux32, n := o.num, ref })
      else s
    refreshTimer s g
  else startNop (entryChange s o d.sync sub d.aux32 kindSignal) o

/-- WAIT parks, or is released at once (08 R310). -/
def startWait (s : State) (o : Op) : State :=
  rotateWaits (parkOrRelease s { counter := o.desc.sync, q := o.q, c := o.c, threshold := o.desc.aux32
                                 consume := bit o.desc.aux16 0, rotate := false, tally := s.stamp })

/-- BARRIER takes the tokens that came before it and begins with its die entry or its group phase (08 R329). -/
def startBarrier (s : State) (o : Op) : State :=
  let s := replayTokens s o.q o.c
  match s.op? o.q o.c with
  | none => s
  | some o => if o.ended.isSome then s else timeEntry (barrierStart s o) o

/-- MARK begins its weir (02 R77). -/
def startMark (s : State) (o : Op) : State :=
  let g := o.desc.group
  let s := s.updGroup g fun x => { x with markOp := some (o.q, o.c) }
  let s := replayTokens s o.q o.c
  if (s.group g).halted then s else timeEntry (markStart s g false) o

/-- NOP (03 R108). -/
def execNop (q : Fin 256) (c : Nat) (s : State) : Host.Outcome State Fault Refusal :=
  finishPlain s (takeEntry s q c opNop startNop)

/-- ALLREDUCE (05 R193). -/
def execAllreduce (q : Fin 256) (c : Nat) (s : State) : Host.Outcome State Fault Refusal :=
  finishPlain s (takeEntry s q c opAllreduce startReduction)

/-- REDUCE_SCATTER (05 R194). -/
def execReduceScatter (q : Fin 256) (c : Nat) (s : State) : Host.Outcome State Fault Refusal :=
  finishPlain s (takeEntry s q c opReduceScatter startReduction)

/-- ALLGATHER (05 R195). -/
def execAllgather (q : Fin 256) (c : Nat) (s : State) : Host.Outcome State Fault Refusal :=
  finishPlain s (takeEntry s q c opAllgather startMover)

/-- BROADCAST (05 R196). -/
def execBroadcast (q : Fin 256) (c : Nat) (s : State) : Host.Outcome State Fault Refusal :=
  finishPlain s (takeEntry s q c opBroadcast startMover)

/-- ALLTOALL (05 R197). -/
def execAlltoall (q : Fin 256) (c : Nat) (s : State) : Host.Outcome State Fault Refusal :=
  finishPlain s (takeEntry s q c opAlltoall startMover)

/-- EXCHANGE (05 R198). -/
def execExchange (q : Fin 256) (c : Nat) (s : State) : Host.Outcome State Fault Refusal :=
  finishPlain s (takeEntry s q c opExchange startMover)

/-- ROTATE (05 R219). -/
def execRotate (q : Fin 256) (c : Nat) (s : State) : Host.Outcome State Fault Refusal :=
  finishPlain s (takeEntry s q c opRotate startRotate)

/-- UPDATE (07 R274). -/
def execUpdate (q : Fin 256) (c : Nat) (s : State) : Host.Outcome State Fault Refusal :=
  finishPlain s (takeEntry s q c opUpdate startMover)

/-- DIGEST (10 R406). -/
def execDigest (q : Fin 256) (c : Nat) (s : State) : Host.Outcome State Fault Refusal :=
  finishPlain s (takeEntry s q c opDigest startMover)

/-- BARRIER (08 R329). -/
def execBarrier (q : Fin 256) (c : Nat) (s : State) : Host.Outcome State Fault Refusal :=
  finishPlain s (takeEntry s q c opBarrier startBarrier)

/-- SIGNAL (08 R309). -/
def execSignal (q : Fin 256) (c : Nat) (s : State) : Host.Outcome State Fault Refusal :=
  finishPlain s (takeEntry s q c opSignal startSignal)

/-- WAIT (08 R310). -/
def execWait (q : Fin 256) (c : Nat) (s : State) : Host.Outcome State Fault Refusal :=
  finishPlain s (takeEntry s q c opWait startWait)

/-- COPY (04 R155). -/
def execCopy (q : Fin 256) (c : Nat) (s : State) : Host.Outcome State Fault Refusal :=
  finishPlain s (takeEntry s q c opCopy startMover)

/-- MARK (02 R76, R77). -/
def execMark (q : Fin 256) (c : Nat) (s : State) : Host.Outcome State Fault Refusal :=
  finishPlain s (takeEntry s q c opMark startMark)

end Sys2Proof.Machine
end

