-- ==== Sys2Proof/Machine/Wire.lean ====
section
/-! DEFINITION. The wire form of messages and flits (12 R459-R461, R465): route header, body, sideband, link flits; and the
messages that have arrived for this die. -/

namespace Sys2Proof.Machine

/-! ### Bodies (12 R461) -/

/-- TYPE of a message. -/
def bodyType : Body → Nat
  | .parcel _ => 0
  | .token _ => 1
  | .halt _ => 2
  | .signal _ => 3
  | .ack _ => 4
  | .answer _ => 5
  | .level _ => 6
  | .recall _ => 7
  | .twinRecord _ => 8
  | .twinPair _ => 9
  | .credit _ => 10
  | .withdraw _ => 11
  | .linkState _ _ _ => 12
  | .raw _ t _ => t

/-- The common part of a control-type message. -/
def commonBytes (c : Common) : List Byte :=
  leBytes 2 c.group ++ leBytes 1 c.stage ++ leBytes 1 c.run ++ leBytes 4 c.step ++ leBytes 2 c.entry ++ leBytes 2 0

/-- A twin record. -/
def twinRecBytes (r : TwinRec) : List Byte :=
  leBytes 4 (r.key.k + at_ r.key.stage 24 + at_ r.key.phase 27) ++ leBytes 4 (r.key.chunk + at_ r.key.round 18) ++
    leBytes 4 r.key.parcel ++ leBytes 4 r.crc

/-- The common part of a message without one of its own. -/
def noCommon : List Byte := leBytes 12 0

/-- The bytes of a body from offset 0x10 of the message, before the zeros that fill its last flit. A BARRIER's generation
has no place in the layout (log entry 20). -/
def bodyBytes : Body → List Byte
  | .parcel p => hdrBytes p.h ++ leBytes 4 p.h.crc ++ leBytes 8 p.h.residue ++ leBytes 16 0 ++ p.payload
  | .token t =>
    commonBytes t.c ++ leBytes 1 t.opcode ++ leBytes 1 t.operator ++ leBytes 1 t.formats ++ leBytes 1 t.acc ++
      leBytes 1 t.numeric ++ leBytes 1 t.v ++ leBytes 2 0 ++ leBytes 4 t.length ++ leBytes 2 t.aux16 ++ leBytes 2 0 ++
      leBytes 4 t.aux32 ++
      (if t.opcode == 0x0E then leBytes 8 t.hash.toNat ++ leBytes 8 t.change.toNat ++ leBytes 4 t.count ++ leBytes 4 t.rank ++
          leBytes 1 (b1 t.agree0 + 2 * b1 t.agree1)
        else if t.opcode == 0x09 then leBytes 4 t.latchStep ++ leBytes 1 (b1 t.latchValid) else [])
  | .halt m =>
    commonBytes m.c ++ leBytes 1 m.cause ++ leBytes 1 m.missing.length ++ leBytes 2 0 ++ m.missing.flatMap (leBytes 4)
  | .signal m =>
    commonBytes m.c ++ leBytes 2 m.counter ++ leBytes 1 (b1 m.sub) ++ leBytes 1 0 ++ leBytes 4 m.amount ++ leBytes 2 m.n ++
      leBytes 2 0 ++ leBytes 4 m.ref
  | .ack m => commonBytes m.c ++ leBytes 1 m.code ++ leBytes 3 0 ++ leBytes 4 m.ref
  | .answer m =>
    commonBytes m.c ++ leBytes 4 m.chunk ++ leBytes 4 m.indexBase ++ leBytes 1 m.kind ++ leBytes 1 m.valid ++
      leBytes 1 m.nack ++ leBytes 1 m.reason
  | .level m => commonBytes m.c
  | .recall m =>
    commonBytes m.c ++ leBytes 4 (m.chunk + at_ (b1 m.all) 18) ++ leBytes 4 m.origin ++ leBytes 4 m.suspect ++ leBytes 1 m.kind
  | .twinRecord rs => noCommon ++ rs.flatMap twinRecBytes
  | .twinPair en => noCommon ++ leBytes 1 (b1 en)
  | .credit m => commonBytes m.c ++ leBytes 4 m.k
  | .withdraw m => commonBytes m.c ++ leBytes 1 m.cause
  | .linkState p up n => noCommon ++ leBytes 1 p ++ leBytes 1 (b1 up) ++ leBytes 4 n
  | .raw _ _ bs => bs.drop 16

/-- The message length that a route header shows: that of a message received is as it came (12 R460). -/
def msgFlits : Body → Nat
  | .raw _ _ bs => leNat (slice bs 8 2)
  | b => bodyFlits b

/-! ### Messages and flits (12 R459, R460) -/

/-- The route header. -/
def routeBytes (m : Msg) : List Byte :=
  leBytes 4 ((if m.flood then m.src else m.dest) + at_ (b1 m.order) 18 + at_ (b1 m.flood) 19) ++ leBytes 4 m.src ++
    leBytes 2 (msgFlits m.body) ++ leBytes 1 (bodyType m.body) ++ leBytes 1 m.hops ++ leBytes 4 0

/-- A message in whole flits. -/
def msgBytes (m : Msg) : List Byte :=
  slice (routeBytes m ++ bodyBytes m.body) 0 (64 * bodyFlits m.body)

/-- The sideband of a flit, with the CRC-16 over its data and its other sideband bits. -/
def sidebandOf (data : List Byte) (low : Nat) : Nat := low + at_ (crc16 (data ++ leBytes 2 low)) 16

/-- A kept flit as it goes out: data and sideband. -/
def KeptFlit.wire (k : KeptFlit) : List Byte × Nat :=
  let data := slice (msgBytes k.msg) (64 * k.idx) 64
  (data, sidebandOf data (k.vc + at_ (b1 k.last) 3 + at_ k.seq 4))

/-- A link flit as it goes out (12 R465). -/
def LinkFlit.wire (x : LinkFlit) (port die : Nat) (check : W64) : List Byte × Nat :=
  let data :=
    if x.kind == 2 then
      leBytes 1 2 ++ leBytes 1 port ++ leBytes 1 x.stage ++ leBytes 1 0 ++ leBytes 4 die ++ leBytes 8 check.toNat ++
        leBytes 1 x.ready ++ leBytes 1 x.width ++ leBytes 1 x.count ++ leBytes 45 0
    else
      leBytes 1 x.kind ++ leBytes 1 0 ++ leBytes 2 x.ack ++ leBytes 2 x.nack ++ leBytes 2 0 ++
        slice (x.credits.flatMap (leBytes 2)) 0 8 ++ leBytes 1 x.width ++ leBytes 47 0
  (data, sidebandOf data 4)

/-! ### Messages that have arrived -/

/-- A received message carries a body from a die. -/
def Msg.carries (m : Msg) (src : Nat) (b : Body) : Bool :=
  m.src == src && bodyType m.body == bodyType b &&
    bodyBytes m.body == slice (bodyBytes b) 0 (bodyBytes m.body).length

/-- The group that a message names. -/
def groupOf : Body → Option Nat
  | .parcel p => some p.h.group
  | .token m => some m.c.group
  | .halt m => some m.c.group
  | .signal m => some m.c.group
  | .ack m => some m.c.group
  | .answer m => some m.c.group
  | .level m => some m.c.group
  | .recall m => some m.c.group
  | .credit m => some m.c.group
  | .withdraw m => some m.c.group
  | .twinRecord _ | .twinPair _ | .linkState _ _ _ | .raw _ _ _ => none

/-- Something of a group has come from a die: where that is a peer, the step timer restarts (05 R212). -/
def noteArrival (s : State) (src : Nat) (b : Body) : State :=
  match groupOf b with
  | some g => if (s.allPeers g).contains src then restartTimer s g else s
  | none => s

/-- Take in a message whose effect is now made: it leaves the messages that have arrived, if it stands among them, and its credits go
back to its input (12 R462). A message of a group ends quiescence and restarts its step timer (05 R212; 08 R322)
(in part DESIGN CHOICE, log entry 21). -/
def takeIn (s : State) (src : Nat) (b : Body) : State :=
  let s := match (s.net.inbox.find? fun x => x.msg.carries src b).bind (·.from_) with
    | some (n, vc, k) => giveCredit s n vc k
    | none => s
  noteArrival { s with
    net := { s.net with inbox := s.net.inbox.eraseP fun x => x.msg.carries src b }
    sync := if (groupOf b).isSome then { s.sync with quietSince := none } else s.sync } src b

end Sys2Proof.Machine
end

