-- ==== Sys2Proof/Machine/Warden.lean ====
section
/-! DEFINITION. What reaches the warden (11 R414-R421; 01 R31, R34): the resume marks that it owes, lost cistern words, and fault
reports with their effects. -/

namespace Sys2Proof.Machine

/-! ### The resume mark (02 R83; 11 R430) -/

/-- Raise the resume mark of a halted group (02 R83); what its entries of the interrupted step still held is discarded. -/
def raiseResume (s : State) (g : Nat) : State :=
  let x := s.group g
  if x.gr.valid && x.halted && x.marking.isNone then
    markStart ((s.updSync fun y => { y with quietSince := none }).updGroup g fun x =>
      { x with resumeDue := false, openEntries := [] }) g true
  else s

/-- Raise the resume marks that the warden owes to groups that have halted (11 R430). -/
def raiseDue (s : State) : State :=
  (s.groups.map (·.1)).foldl (fun s g =>
    if (s.group g).resumeDue && (s.group g).halted then raiseResume s g else s) s

/-! ### Fault reports (11 R414-R427; 01 R31, R34; 10 R391, R392, R396) -/

/-- A word of a replay partition is lost: the record of the window that holds it is marked bad, and a lost word of a slot's header marks
each of the slot's records (01 R34; 10 R401, R403) (in part DEDUCED, log entry 18). -/
def windowLost (s : State) (r : CisternRec) (bank word : Nat) : State :=
  let at_ := (word / (stagedSize / 4) * r.banks + (bank - r.baseBank)) * stagedSize + 4 * (word % (stagedSize / 4))
  s.updGroup r.owner fun x =>
    let pos := at_ % max 1 x.gr.slotBytes
    let hit (y : Slot) : Slot := { y with records := y.records.map fun k =>
      { k with bad := k.bad || pos < 64 || (k.at_ ≤ pos && pos < k.at_ + recordBytes k.bytes.length) } }
    if at_ < x.gr.slotBytes then { x with slot0 := hit x.slot0 }
    else if at_ < 2 * x.gr.slotBytes then { x with slot1 := hit x.slot1 } else x

/-- A word of a cistern is lost to a double-bit error, and what contains it is never delivered (01 R34): lines of the read cache that may
hold it go; a record of a replay window is marked bad; a parcel that waits for its entry goes, and is asked for again (10 R391); staged, it
halts the group of a group-wide entry and ends any other with FAULT; where kept copies stand with it, their repair has failed (10 R392).
The state, the group and the actions (in part DEDUCED, log entry 18). -/
def wordLost (s : State) (bank word : Nat) : State × Nat × List Nat :=
  let halt (g : Nat) : State × Nat × List Nat :=
    if s.running g then (haltOnFault s g haltFault endFault, g, [5]) else (s, g, [])
  match s.image.cisterns.find? fun r => r.baseBank ≤ bank && bank < r.baseBank + r.banks with
  | none => (s, 0xFFFF, [])
  | some r =>
    if r.kind == 1 then
      let set := ((bank - r.baseBank) * 4096 + word / 64) / 16
      (s.updCache fun c => { c with lines := c.lines.filter fun l => bits l.block 8 9 != set }, 0xFFFF, [])
    else if r.kind == 2 then (windowLost s r bank word, r.owner, [])
    else match s.wordOwner bank word with
      | none => (s, 0xFFFF, [])
      | some (.parcel p) =>
        (answerParcel (s.updGroup p.h.group fun x => { x with early := x.early.erase p }) p true 0, p.h.group, [1])
      | some (.op o) =>
        let g := o.desc.group
        if isGroupWide o.desc.opcode then
          if o.kept.isEmpty || !(s.running g) then halt g else (repairFailed s g, g, [5])
        else (endOp s o.q o.c codeFault, if o.desc.noGroup then 0xFFFF else o.desc.group, [])

/-- Groups that a fault halts outright: the group of a failed repair, and those that refer to a damaged table entry (01 R31). -/
def State.faultGroups (s : State) (r : FaultRep) : List Nat :=
  if r.type == 7 then [r.group]
  else if r.type == 3 then (if r.s0 == 0 then [r.s1] else (s.groupOf r.s1).toList)
  else []

/-- Halt the groups of a fault. -/
def faultHalts (s : State) (r : FaultRep) : State × List Nat :=
  let gs := (s.faultGroups r).filter fun g => (s.gr g).valid && !(s.group g).halted
  (gs.foldl (fun s g =>
    if r.type == 7 then repairFailed s g else haltOnFault s g haltFault (endFaultOf r.entry)) s,
    if gs.isEmpty then [] else [5])

/-- Count a fault in the integrity status (10 R410): a failed CRC, a residue failure of an own formation, a dual-rail mismatch, a
repair. -/
def countFault (s : State) (r : FaultRep) : State :=
  let s := if r.type == 4 then countCrc s else s
  let s := if r.type == 5 && r.unit < 0x160 && !r.remote then countResidue s else s
  let s := if r.type == 6 then
      s.updInteg fun i => { i with railSeen := true, railErrors := (i.railErrors + 1) % 2 ^ 64 } else s
  if r.repaired then s.updInteg fun i => { i with repairs := (i.repairs + 1) % 2 ^ 64 } else s

/-- A fault that came to light after its parcel was passed on is recalled (10 R396): for a dual-rail mismatch only when the
agreed result differs from rail A, with this engine as suspect. -/
def recallFault (s : State) (r : FaultRep) : State × List Nat :=
  if r.passedOn && 4 ≤ r.type && r.type ≤ 6 && (r.type != 6 || r.s3 == 1) && (s.gr r.group).valid then
    (raiseRecall s r.group r.stage r.entry r.chunk (r.type - 4) (if r.type == 6 then s.me else r.suspect),
      if (s.group r.group).halted then [] else [5])
  else (s, [])

/-- Whether a unit forms parcels of a group: a running pump of its allocation, the spare while it stands in for one, the pump of a
repair, or a refiner lane that is not fenced (01 R38-R40; 10 R391). -/
def State.forms (s : State) (g unit : Nat) : Bool :=
  if unit < 16 then (s.groupPumps g).contains unit
  else if unit == 16 then (s.warden.spareIn.any fun p => bit (s.gr g).pumpMask p) || s.integ.repairRun.any fun y => y.1 == 16
  else 0x100 ≤ unit && unit < 0x160 && !(s.warden.lanes.contains (unit - 0x100))

/-- The second rail of a unit's work (10 R383, R384). -/
def State.secondRail (s : State) (g unit : Nat) : Nat :=
  if unit < 0x100 then (s.railB g unit).1 else 0x100 + s.laneB (unit - 0x100)

/-- Whether work of a stage runs under dual-rail: a combination at level 2 or more, what the owner and the refiner do where the highest
stage is at level 3 (10 R383-R386). -/
def State.railed (s : State) (g stage unit : Nat) : Bool :=
  (unit < 0x100 && 2 ≤ s.levelAt g stage) || s.topLevel g == 3

/-- Whether a judged fault can be one: its unit forms parcels of its group, and a dual-rail mismatch is between the two rails of
railed work (01 R38; 10 R383-R386). -/
def State.faultStands (s : State) (r : FaultRep) : Bool :=
  !((r.type == 5 || r.type == 6) && r.unit < 0x160) ||
    (s.forms r.group r.unit && (r.type != 6 || (s.railed r.group r.stage r.unit && r.s2 == s.secondRail r.group r.unit)))

/-- What a fault does before its record: a lost word, or the halts and the recall of the others. -/
def faultEffects (s : State) (r : FaultRep) : State × Nat × List Nat :=
  if r.type == 1 && 0x300 ≤ r.unit && r.unit < 0x340 then wordLost s (r.unit - 0x300) r.s0
  else
    let (s, a2) := faultHalts s r
    let (s, a3) := recallFault s r
    (s, r.group, a2 ++ a3)

/-- The syndrome words that a type of fault lists; the others are 0 (11 R415). -/
def syndromeOf (r : FaultRep) : FaultRep :=
  match r.type with
  | 0x01 => { r with s1 := bits r.s1 0 7, s2 := 0, s3 := 0 }
  | 0x02 | 0x07 | 0x0A | 0x0F => { r with s3 := 0 }
  | 0x03 | 0x08 | 0x09 | 0x0E | 0x11 | 0x12 | 0x13 => { r with s2 := 0, s3 := 0 }
  | 0x0C | 0x0D | 0x10 | 0x16 => { r with s1 := 0, s2 := 0, s3 := 0 }
  | 0x15 => { r with s3 := 0 }
  | 0x04 => { r with s0 := bits r.s0 0 4 }
  | _ => r

/-- A unit's fault reaches the warden: it counts, judges, relieves, halts, and records (11 R414-R427); a repaired dual-rail mismatch had
its third run on the spare, or on rail A with the lanes rotated by two (01 R39; 10 R391). A NACK RESIDUE received as sender, and a RECALL
that names this engine as suspect, are judged when they are reported with REMOTE (R420) (in part DEDUCED, log entry 31). -/
def takeFault (s : State) (r : FaultRep) : State :=
  if !(s.faultStands r) then s
  else
  let g := r.group
  let judged := (r.type == 5 || r.type == 6) && r.unit < 0x160
  let count := if r.entry == 0xFFFF then 0xFFFFFFFF else s.countOf g r.entry
  let s := countFault s r
  let (s, verdict, a1, short) :=
    if judged then judgeFault s ⟨r.unit, g, r.entry, r.chunk, r.parcel⟩ r.type r.rep r.operandsKept false
    else (s, if r.type == 1 || r.type == 3 then vNotRepeatable else vNone, [], false)
  let s := if r.type == 6 && r.repaired && r.unit ≤ 16 then
      s.updInteg fun i => { i with repairRun := some (s.railC r.unit) } else s
  let (s, g, a2) := faultEffects s r
  let r := syndromeOf r
  let step := if (s.gr g).valid then (s.group g).stepNow.1 else 0
  checkFailed s { type := r.type, verdict
                  action := if short && !s.warden.autoFence then 0 else firstAction (a1 ++ a2 ++ (if r.repaired then [1] else []))
                  remote := r.remote, capped := short, unit := r.unit, operation := r.operation, stage := r.stage
                  group := g, step, count
                  s0 := r.s0, s1 := r.s1, s2 := r.s2, s3 := r.s3 }

/-! ### Tests (11 R432-R440) -/

/-- Whether a test needs the whole engine (11 R437). -/
def WardenSt.wholeTest (w : WardenSt) (id : Nat) (whole : Bool) : Bool :=
  whole || id == 0xFFFF || (w.poursOf id).any (fun p => p.target != 0) || w.spareIn.isSome || w.fenced.contains 16

/-- A GO: refused, waiting for a step mark or for the rail to settle, or running on the spare (11 R436-R439)
(in part DEDUCED, log entry 31). -/
def requestTest (s : State) : State :=
  let w := s.warden
  let whole := w.wholeTest w.testId w.testWhole
  let set (s : State) (t : TestState) (drains : Bool) : State :=
    s.updWarden fun w => { w with test := t, testDrains := drains, testVerdict := 0, failId := 0, failUnit := 0 }
  if (w.testId != 0xFFFF && (w.poursOf w.testId).isEmpty) || (whole && !(s.gr w.testGroup).valid) ||
      s.keeper.phase != .full then set s .refused false
  else if whole then refreshDraw (endSurge (set s .waiting true) 2)
  else if w.testStress && !s.settledVeng then set s .waiting false
  else (set s .running false).updWarden fun w => { w with
    testPours := w.poursOf w.testId, testBytes := w.pourBytes, testIm := some s.image
    stressDomains := if w.testStress then [16] else [] }

/-- Whether a test is pending or running. -/
def WardenSt.testBusy (w : WardenSt) : Bool := w.test == .waiting || w.test == .running

/-- The next pump pour of the automatic tests, in ID order and cyclically (11 R440). -/
def WardenSt.nextPour (w : WardenSt) : Option Nat :=
  let ids := sortBy (fun a b : Nat => decide (a ≤ b)) ((w.pours.filter fun p => p.target == 0).map (·.id))
  match w.autoLast with
  | none => ids.head?
  | some l => (ids.find? (l < ·)).orElse fun _ => ids.head?

end Sys2Proof.Machine
end

