-- ==== Sys2Proof/Machine/Pours.lean ====
section
/-! DEFINITION. Proof pours (11 R432-R440, R511): what a kernel gives on each target, the comparison of its CRC-32C with ANSWER,
and how tests end. -/

namespace Sys2Proof.Machine

/-! ### The operands of a kernel (11 R433, R511) -/

/-- A kernel with its body and the formats of the image that it runs under. -/
structure KernelCx where
  k : Kernel
  body : List Byte
  im : Image

/-- The bytes of operand `i` of a kernel, its scales included: each at the first 64 B boundary after the one before. -/
def KernelCx.bytes (x : KernelCx) (i : Nat) : List Byte :=
  let ops := kernelOperands x.im x.k
  let at_ := (ops.take i).foldl (fun at_ y => up64 (at_ + operandSpan x.im x.k y)) 64
  match ops[i]? with
  | some y => slice x.body at_ (operandSpan x.im x.k y)
  | none => []

/-- The elements of operand `i` of a kernel with their scales. -/
def KernelCx.els (x : KernelCx) (i : Nat) : List RawEl :=
  match (kernelOperands x.im x.k)[i]? with
  | none => []
  | some (code, b, scaled) =>
    let bs := x.bytes i
    let dir := if x.k.target == 1 then 0 else x.im.formats.dir
    (List.range x.k.elements).map fun j =>
      { enc := field bs (j * elemSize code) (elemSize code)
        scale := if scaled then field bs (up64 (x.k.elements * elemSize code) + scaleIndex b dir j) 1 else 127 }

/-- The rounding mode of a kernel into a format (06 R239). -/
def KernelCx.mode (x : KernelCx) (code : Nat) : RMode :=
  if x.k.round == 0 then bits x.im.formats.round (2 * code) 2 else x.k.round - 1

/-- Bytes to a 64 B boundary. -/
def padded (bs : List Byte) : List Byte := bs ++ List.replicate (up64 bs.length - bs.length) 0

/-- A vector in its storage form: elements, then scales at the next 64 B boundary (06 R234). -/
def storageForm (code : Nat) (els scales : List Nat) : List Byte :=
  if scales.isEmpty then elementBytes code els else padded (elementBytes code els) ++ scales.map (BitVec.ofNat 8)

/-! ### The targets (11 R434) -/

/-- A pump kernel: the operands combined in index order with the ⊕ of ACC, each later pass from the result of the one before; the
output in OUT_FMT, rounded with the draw of the last pass (in part DEDUCED, log entry 31). -/
def KernelCx.pump (x : KernelCx) : List Byte :=
  let k := x.k
  let c : NumCtx := { operator := k.operator, inF := k.inFmt, acc := k.acc, out := k.outFmt, strict := k.strict
                      b := blockSize x.im.formats.block, round := x.mode k.outFmt }
  let els := (List.range k.operands).map x.els
  let pre := if !c.orderFree then [] else
    (List.range (cdiv k.elements 32)).map fun j =>
      (els.map fun l => (((l.drop (32 * j)).take 32).map fun e => prepassByte k.inFmt e.enc).foldl max 0).foldl max 0
  let vs := els.map fun l => (enterAcc c pre (fun _ => true) 0 l).1
  let pass (a : PV) : PV := (vs.drop 1).foldl (fun a v => (combinePV c pre 0 a v).1) a
  let acc := (List.range k.passes).foldl (fun a _ => pass a) ((vs.head?).getD {})
  let y := finishPV c pre (fun i => elementDraw k.key i 0 k.passes 0 0 0) 0 acc
  storageForm k.outFmt y.els y.scales

/-- One pass of a refiner kernel over the moments and weights, each an element with its scale (07 R277). -/
def KernelCx.refine (x : KernelCx) (row : RowRec) (pass : Nat) (st : List RawEl × List RawEl × List RawEl) :
    List RawEl × List RawEl × List RawEl :=
  let k := x.k
  let t := (k.t + pass - 1) % 2 ^ 32
  let bias (beta : Nat) : Nat := if row.biasCorrect then biasFactor beta t else 0x3F800000
  let c : RefCx := { row, eta := k.eta, k1 := bias row.beta1, k2 := bias row.beta2, mode := x.mode k.outFmt
                     storeP := bits x.im.formats.round (2 * row.weightFmt) 2
                     storeS := bits x.im.formats.round (2 * row.stateFmt) 2
                     draw := fun i => refinerDraw k.key i 0 pass 0, keepM := !eq0 row.a1, keepV := !eq0 row.b1 }
  let el (l : List RawEl) (i : Nat) : RawEl := (l[i]?).getD { enc := 0 }
  let g := x.els 0
  let els := (List.range k.elements).map fun i =>
    let (p, m, v) := (el st.1 i, el st.2.1 i, el st.2.2 i)
    ({ i, g := word32 (el g i).enc, pw := p.enc, p := rnd32 (decodeEl row.weightFmt 127 p.enc)
       mw := m.enc, m := loadState row.stateFmt m.scale m.enc, vw := v.enc, v := loadState row.stateFmt v.scale v.enc : RefEl })
  let out := (chunksOf (if row.blockScaled then blockSize row.block else 128) els.length els).map (refineBlock c)
  let take (sc : (Nat × Nat) × List RefOut → Nat) (f : RefOut → Nat) : List RawEl :=
    out.flatMap fun b => b.2.map fun r => { enc := f r, scale := sc b }
  (take (fun _ => 127) (·.p), take (·.1.1) (·.m), take (·.1.2) (·.v))

/-- A refiner kernel: the output is p, m and v in storage form, each to a 64 B boundary (in part DEDUCED, log entry 31). -/
def KernelCx.refiner (x : KernelCx) : List Byte :=
  let row := (x.im.rows[x.k.row]?).getD {}
  let (p, m, v) := (List.range x.k.passes).foldl (fun st n => x.refine row (n + 1) st) (x.els 1, x.els 2, x.els 3)
  let b := blockSize row.block
  let form (l : List RawEl) : List Byte := padded (storageForm row.stateFmt (l.map (·.enc))
    (if row.blockScaled then (List.range (cdiv l.length b)).map fun j => ((l[j * b]?).map (·.scale)).getD 127 else []))
  padded (elementBytes row.weightFmt (p.map (·.enc))) ++ form m ++ form v

/-- A cistern kernel: operand 0 written repeatedly over both read-cache banks and read back, in each later pass with every word of
32 bits XORed with the pass number (in part DEDUCED, log entry 31). -/
def KernelCx.cisterns (x : KernelCx) : List Byte :=
  let bs := x.bytes 0
  let word (i : Nat) : List Byte :=
    let w := leNat (slice bs (4 * i) 4)
    (leBytes 4 (if x.k.passes == 1 then w else Nat.xor w x.k.passes)).take (min 4 (bs.length - 4 * i))
  let one := (List.range (cdiv bs.length 4)).flatMap word
  (List.replicate (cdiv (2 * 2 ^ 20) (max 1 bs.length)) one).flatten.take (2 * 2 ^ 20)

/-- A check-unit kernel: CRC-32C and residue of operand 0 as a payload of ACC words, then of the output before it followed by
operand 0 (10 R379, R380). -/
def KernelCx.check (x : KernelCx) : List Byte :=
  let bs := x.bytes 0
  let sz := max 1 (elemSize x.k.acc)
  let pass (prev : List Byte) : List Byte :=
    let data := prev ++ bs
    let ws := (List.range (cdiv data.length sz)).map fun i => leNat (slice data (sz * i) sz)
    leBytes 4 (crc32c data) ++ leBytes 4 0 ++ leBytes 8 (payloadResidue x.k.acc [] 0 ws)
  (List.range x.k.passes).foldl (fun prev _ => pass prev) []

/-- The final output of a kernel on its target (11 R434). -/
def KernelCx.output (x : KernelCx) : List Byte :=
  match x.k.target with
  | 0 => x.pump
  | 1 => x.refiner
  | 2 => x.cisterns
  | _ => x.check

/-- The CRC-32C of what a sound unit gives for a pour of a PROOF_POUR section; none where the body is not there. -/
def pourCrc (im : Image) (section_ : List Byte) (p : PourRec) : Option Nat :=
  if 64 ≤ p.length && p.offset + p.length ≤ section_.length then
    let body := slice section_ p.offset p.length
    some (crc32c (KernelCx.output { k := parseKernel body, body, im }))
  else none

/-! ### Failures of a test (11 R420, R421, R434) -/

/-- The unit that a pour runs on first: the spare pump, or pump 0 of the whole engine, lane 0, the first read-cache bank, the check
unit. -/
def State.pourUnit (s : State) (p : PourRec) (whole : Bool) : Nat :=
  match p.target with
  | 0 => if whole then 0 else 16
  | 1 => 0x100
  | 2 => 0x300 + (((s.image.cisterns.find? fun r => r.kind == 1).map (·.baseBank)).getD 0)
  | _ => 0x400

/-- The units that a pour runs on: the spare pump alone, or every unit of its target (11 R434, R437). -/
def PourRec.runsOn (p : PourRec) (whole : Bool) (unit : Nat) : Bool :=
  match p.target with
  | 0 => if whole then decide (unit ≤ 16) else unit == 16
  | 1 => decide (0x100 ≤ unit ∧ unit < 0x160)
  | 2 => decide (0x300 ≤ unit ∧ unit < 0x340)
  | _ => unit == 0x400

/-- The image whose formats the running test's kernels use: that under which it began (11 R435). -/
def State.testImage (s : State) : Image := s.warden.testIm.getD s.image

/-- A pour whose ANSWER is not what the kernel gives fails on every unit, in every repeat. -/
def State.wrongAnswer (s : State) (section_ : List Byte) (whole : Bool) (p : PourRec) : Option TestFail :=
  match pourCrc s.testImage section_ p with
  | none => none
  | some crc => if crc == p.answer then none
    else some { pour := p.id, unit := s.pourUnit p whole, expected := p.answer, found := crc
                pass := (parseKernel (slice section_ p.offset 64)).passes
                rep := { same := false, relaxed := false, alt := false, again := true } }

/-- The failures of a test of some pours: those that the units it runs on show, each against the ANSWER of its pour, and those of pours whose
ANSWER the kernel does not give (11 R434). -/
def State.testFails (s : State) (pours : List PourRec) (section_ : List Byte) (builtIn whole : Bool) (fails : List TestFail) :
    List TestFail :=
  (fails.filter fun f => (builtIn && f.pour == 0xFFFF) || pours.any fun p =>
      p.id == f.pour && p.runsOn whole f.unit && f.expected == p.answer && f.found != p.answer) ++
    pours.filterMap (s.wrongAnswer section_ whole)

/-! ### How tests end (11 R432, R439, R440) -/

/-- A failure that a test found: its verdict, its actions, its record (11 R421, R432, R439). -/
def takeTestFail (s : State) (f : TestFail) (stress built : Bool) : State :=
  let (s, verdict, acts, short) := judgeFault s ⟨f.unit, s.warden.testGroup, 0xFFFFFFFF, f.pour, f.pass⟩ 0x0B f.rep true stress
  makeRecord s { type := 0x0B, verdict, action := firstAction acts, test := true, stress, capped := short, unit := f.unit
                 operation := if built then 0xF1 else 0xF0, group := 0xFFFF, count := 0xFFFFFFFF
                 s0 := f.pour, s1 := f.expected, s2 := f.found, s3 := f.pass }

/-- The requested test ends in PASS or FAIL (11 R439). The built-in test takes its patterns from a timing draw (R432; 09 R361); a test of
the cisterns leaves no line in the read cache (in part DEDUCED, log entry 31). -/
def endTest (s : State) (fails : List TestFail) (stress : Bool) : State :=
  let w := s.warden
  let builtIn := w.testId == 0xFFFF
  let fails := s.testFails w.testPours w.testBytes builtIn w.testHold fails
  let s := if builtIn then (timingDraw s 3).1 else s
  let s := if builtIn || w.testPours.any (fun p => p.target == 2) then s.updCache fun c => { c with lines := [] } else s
  let s := s.updWarden fun w => match fails with
    | [] => { w with test := .pass }
    | f :: _ => { w with test := .fail, testVerdict := s.verdictOf f.unit f.rep true stress, failId := f.pour, failUnit := f.unit }
  let s := fails.foldl (fun s f => takeTestFail s f stress (f.pour == 0xFFFF)) s
  refreshVeng (s.updWarden fun w => { w with
    testHold := false, wholeStress := false, stressDomains := [], testPours := [], testBytes := [], testIm := none })

end Sys2Proof.Machine
end

