-- ==== Sys2Proof/Machine/Health.lean ====
section
/-! DEFINITION. The commands of the warden (11 R414-R450; 12 R484-R486). -/

namespace Sys2Proof.Machine

/-! ### Faults and withdrawals -/

/-- FAULT_REPORT (11 R414): the warden judges, acts and records. -/
def execFaultReport (r : FaultRep) (s : State) : Host.Outcome State Fault Refusal :=
  checked r.wf "FAULT_REPORT" <|
    finishPlain s (raiseDue (takeFault s r))

/-- A WITHDRAW arrives (11 R430): recorded, forwarded once with its sender, and the sender's eviction staged where AUTO_EVICT
is 1 (in part DEDUCED, log entry 31). -/
def recvWithdraw (s : State) (m : WithdrawMsg) : State :=
  let g := m.c.group
  let x := s.group g
  let gone := (s.groupEntries g).any fun e => e.2.dieAddr == m.src && (e.2.state == stEvict || e.2.state == stEvicted)
  let ended := x.hasEnded m.c.step m.c.run
  if !x.gr.valid || !(s.mayTradeIn g) || ended || x.withdrawn.contains (m.src, m.c.step, m.c.run) || gone then s
  else
    let s := groupStirs s g
    let s := s.updGroup g fun x => { x with withdrawn := x.withdrawn ++ [(m.src, m.c.step, m.c.run)] }
    let s := makeRecord s { type := 0x0E, action := 0, unit := 0xFFFF, operation := 0xFF, group := g, step := x.stepNow.1
                            count := 0xFFFFFFFF, s0 := m.src, s1 := m.cause }
    let s := sendAll s ((s.allPeers g).filter (· != m.src)) (.withdraw m)
    let lists := s.groups.filterMap fun (h, y) =>
      if y.gr.valid && y.gr.autoEvict && !(s.activeEntries h m.src).isEmpty then some h else none
    lists.foldl (fun s h => (evictDie s h 1 m.src).updGroup h fun y => { y with resumeDue := true }) s

/-- WITHDRAW (11 R430). -/
def execWithdraw (x : WithdrawMsg) (s : State) : Host.Outcome State Fault Refusal :=
  checked x.wf "WITHDRAW" <|
    finishPlain s (raiseDue (recvWithdraw (takeIn s x.src (.withdraw x)) x))

/-! ### Tests -/

/-- ENTRY_COMPLETE (03 R105); the last one may end the drain that a test waits for (11 R436, R438). -/
def execEntryComplete (q : Fin 256) (c : Nat) (s : State) : Host.Outcome State Fault Refusal :=
  finishPlain s (noteDrain s (completeEntry s q c))

/-- A write of TEST_CTRL (11 R439, R448): rejected while a test waits or runs (in part DEDUCED, log entry 14). -/
def writeTestCtrl (s : State) (d : W64) : Option State :=
  let v := d.toNat
  if s.warden.testBusy then none
  else
    let s := s.updWarden fun w => { w with
      testId := bits v 0 16, testStress := bit v 16, testWhole := bit v 17, testGroup := bits v 20 12 }
    some (if bit v 18 then requestTest s else s)

/-- GO (11 R439). -/
def execGo (m : Mgmt) (d : W64) (s : State) : Host.Outcome State Fault Refusal :=
  finish s (mgmtWrite s m fun s => writeTestCtrl s (d ||| 0x40000))

/-- WHOLE_ENGINE_TEST (11 R438): the sluice is held and the started operations have drained; a stressed run needs the rail
settled. -/
def execWholeEngineTest (fails : List TestFail) (s : State) : Host.Outcome State Fault Refusal :=
  checked (fails.all TestFail.wf) "WHOLE_ENGINE_TEST" <|
    finishPlain s
      (if s.warden.testHold && s.started.isEmpty && s.img.swapping.isNone && (!s.warden.wholeStress || s.settledVeng) then
        raiseDue (endTest s fails s.warden.wholeStress)
      else s)

/-- TEST_COMPLETE (11 R439): the requested test on the spare pump ends. -/
def execTestComplete (fails : List TestFail) (s : State) : Host.Outcome State Fault Refusal :=
  checked (fails.all TestFail.wf) "TEST_COMPLETE" <|
    finishPlain s
      (if s.warden.test == .running && !s.warden.testHold then raiseDue (endTest s fails s.warden.testStress) else s)

/-- TEST_AUTO (11 R440): the interval has passed, no requested test is pending, and the spare is free. -/
def execTestAuto (fails : List TestFail) (s : State) : Host.Outcome State Fault Refusal :=
  let w := s.warden
  checked (fails.all TestFail.wf) "TEST_AUTO" <| finishPlain s
    (if w.testAutoEn && w.autoAt + w.testInterval * 100000000 ≤ s.now && !w.testBusy && w.spareIn.isNone &&
        !(w.fenced.contains 16) && s.settledVeng then
      match w.nextPour with
      | none => s.updWarden fun w => { w with autoAt := s.now }
      | some id =>
        let s := s.updWarden fun w => { w with autoAt := s.now, autoLast := some id }
        let pours := w.poursOf id
        let fails := s.testFails pours w.pourBytes false false (fails.map fun f => { f with pour := id })
        raiseDue (fails.foldl (fun s f => takeTestFail s f true false) s)
    else s)

/-- A failure of the built-in test at bring-up (11 R432): a PERMANENT pump or lane is fenced, any other PERMANENT unit makes
the engine UNFIT (in part DEDUCED, log entry 31). -/
def takeBuiltIn (s : State) (f : TestFail) : State :=
  if s.verdictOf f.unit f.rep true false == vPermanent && !hasAlt f.unit then
    makeRecord (s.updWarden fun w => { w with unfit := true })
      { type := 0x0B, verdict := vPermanent, test := true, unit := f.unit, operation := 0xF1, group := 0xFFFF
        count := 0xFFFFFFFF, s0 := 0xFFFF, s1 := f.expected, s2 := f.found, s3 := f.pass }
  else takeTestFail s { f with pour := 0xFFFF } false true

/-- BUILT_IN_SELF_TEST (11 R432; 02 R95): it follows the identity and the management port, and comes before any image. -/
def execBuiltInSelfTest (fails : List TestFail) (s : State) : Host.Outcome State Fault Refusal :=
  checked (fails.all TestFail.wf) "BUILT_IN_SELF_TEST" <|
    finish s
      (if s.mgmt.portReady && s.keeper.phase == .noImage && !s.mgmt.selfTestDone then
        let t := fails.foldl takeBuiltIn (timingDraw s 3).1
        { t with mgmt := { s.mgmt with selfTestDone := true } }
      else s)

/-! ### Pacing and voltage -/

/-- A write of PACE (11 R450). -/
def writePace (s : State) (i : Nat) (d : W64) : Option State :=
  let l := bits d.toNat 0 4
  if l ≤ 8 then some (s.setPace i { level := l, steps := 0 }) else none

/-- PACE_WRITE (11 R450). -/
def execPaceWrite (m : Mgmt) (i : Fin 25) (d : W64) (s : State) : Host.Outcome State Fault Refusal :=
  finish s (mgmtWrite s m fun s => writePace s i d)

/-- Whether a voltage is one that BASE_MV takes (11 R446). -/
def baseMvOk (mv : Nat) : Bool := 600 ≤ mv && mv ≤ 850 && mv % 25 == 0

/-- A write of VENG_CTRL (11 R446). -/
def writeVengCtrl (s : State) (mv : Nat) (clear : Bool) : Option State :=
  if baseMvOk mv then
    some (refreshVeng (s.updWarden fun w => { w with baseMv := mv, vsteps := if clear then 0 else w.vsteps }))
  else none

/-- BASE_MV_WRITE (11 R446). -/
def execBaseMvWrite (m : Mgmt) (mv : BitVec 10) (s : State) : Host.Outcome State Fault Refusal :=
  finish s (mgmtWrite s m fun s => writeVengCtrl s mv.toNat false)

/-- CLEAR_RELIEF (11 R446). -/
def execClearRelief (m : Mgmt) (s : State) : Host.Outcome State Fault Refusal :=
  finish s (mgmtWrite s m fun s => writeVengCtrl s s.warden.baseMv true)

/-- The warden asks for the next 25 mV toward the target, at most one step in 5 µs (01 R48, R49; 12 R484). -/
def stepVeng (s : State) : State :=
  let w := s.warden
  let t := s.vengTarget.1
  let due := match w.vreqAt with
    | some a => decide (a + 5000 ≤ s.now)
    | none => true
  if w.vreqMv != t && due then
    s.updWarden fun w => { w with
      vreqMv := if w.vreqMv < t then min t (w.vreqMv + 25) else max t (w.vreqMv - 25), vreqAt := some s.now }
  else s

/-- VENG_STEP (01 R48). -/
def execVengStep (s : State) : Host.Outcome State Fault Refusal := finishPlain s (stepVeng s)

/-- VENG_SENSE (11 R425): still off target after the slew time, 5 mV each µs, and 100 µs. -/
def execVengSense (s : State) : Host.Outcome State Fault Refusal :=
  let w := s.warden
  let due := match w.offSince with
    | some t => decide (t + 200 * w.offBy + 100000 ≤ s.now)
    | none => false
  finishPlain s
    (if due && !w.senseRecorded && !s.settledVeng then
      engineRecord (s.updWarden fun w => { w with senseRecorded := true }) 0x12 s.vengTarget.1 w.vengMv 0 0
    else s)

/-! ### Heat and sense inputs -/

/-- THERMAL (11 R444): the junction temperature that the sense input shows. -/
def execThermal (tj : Int) (s : State) : Host.Outcome State Fault Refusal :=
  checked (tjWf tj) "THERMAL" <|
    finishPlain s (senseTemp s tj)

/-- SENSE_STROBE (12 R484, R486). -/
def execSenseStrobe (w : Sense) (value : Int) (s : State) : Host.Outcome State Fault Refusal :=
  checked (senseWf w value) "SENSE_STROBE" <|
    finishPlain s (match w with
      | .veng => senseVeng s value.toNat
      | .tj => senseTemp s value)

/-- SENSE_STALE (12 R486). -/
def execSenseStale (w : Sense) (s : State) : Host.Outcome State Fault Refusal := finishPlain s (senseLost s w)

/-- CAP_RELEASE (11 R444). -/
def execCapRelease (s : State) : Host.Outcome State Fault Refusal := finishPlain s (releaseCap s)

/-! ### Surge and the ledger -/

/-- A write of SURGE_CTRL (11 R441, R443, R447) (in part DEDUCED, log entry 31). -/
def writeSurgeCtrl (s : State) (req restore : Bool) : Option State :=
  let s' := if restore then restoreLedger s else some s
  s'.map fun t =>
    let t := t.updWarden fun w => { w with request := req }
    refreshDraw (if req then t else endSurge t 2)

/-- REQUEST (11 R441). -/
def execRequest (m : Mgmt) (v : Bool) (s : State) : Host.Outcome State Fault Refusal :=
  finish s (mgmtWrite s m fun s => writeSurgeCtrl s v false)

/-- RESTORE (11 R443). -/
def execRestore (m : Mgmt) (s : State) : Host.Outcome State Fault Refusal :=
  finish s (mgmtWrite s m fun s => writeSurgeCtrl s s.warden.request true)

/-- SURGE_BEGIN (11 R441): DRAW_GRANT is high. -/
def execSurgeBegin (s : State) : Host.Outcome State Fault Refusal :=
  finishPlain s (beginSurge (s.updWarden fun w => { w with drawGrant := true }))

/-- SURGE_WINDOW_SPENT (11 R442). -/
def execSurgeWindowSpent (s : State) : Host.Outcome State Fault Refusal :=
  finishPlain s (if 500 ≤ s.warden.windowUsed then endSurge s 1 else s)

/-- DRAW_GRANT_FALL (12 R485) (in part DEDUCED, log entry 31). -/
def execDrawGrantFall (s : State) : Host.Outcome State Fault Refusal :=
  finishPlain s (endSurge (s.updWarden fun w => { w with drawGrant := false }) 1)

/-- LEDGER_SPENT (11 R443). -/
def execLedgerSpent (s : State) : Host.Outcome State Fault Refusal :=
  finishPlain s
    (if s.warden.ledgerValid && !s.warden.spent && ledgerLimit ≤ s.warden.ledgerMs then
      let t := endSurge (s.updWarden fun w => { w with spent := true }) 3
      refreshDraw (t.updWarden fun w => { w with surge := .disabled })
    else s)

/-- LEDGER_RECORD (11 R443). -/
def execLedgerRecord (s : State) : Host.Outcome State Fault Refusal := finishPlain s (writeLedger s)

end Sys2Proof.Machine
end

