-- ==== Sys2Proof/Machine/Streaming.lean ====
section
/-! DEFINITION. The siphons at work (04 R139-R174; 12 R452-R457): tags, reservations and the split, the shared read cache,
responses, errors, timeouts, page faults and their resumption, the scrubber; with the commands of the family. -/

namespace Sys2Proof.Machine

/-! ### Tags and reservations (04 R140, R147-R149) -/

/-- Tags in use: outstanding and lost. -/
def SiphonSt.busyTags (p : SiphonSt) : List Nat := p.out.map (·.1) ++ p.lost.map (·.1)

/-- Tags that a queue holds on this siphon: for each, whether it counts against the queue's reservation. -/
def SiphonSt.heldBy (p : SiphonSt) (q : Nat) : List Bool :=
  ((p.out ++ p.lost).filter fun y => y.2.queue == q).map fun y => y.2.reserved

/-- Tags reserved for a queue on each siphon. -/
def State.reserve (s : State) (q : Nat) : Nat :=
  ((s.image.queues.find? fun r => r.queue == q).map fun r => r.tagReserve / 8).getD 0

/-- Tags of a siphon that are not reserved (04 R148). -/
def State.sharedTags (s : State) : Nat := 512 - (s.image.queues.map fun r => r.tagReserve / 8).sum

/-- Free tags in the shared pool of a siphon. -/
def State.sharedFree (s : State) (i : Nat) : Nat :=
  let p := s.siphon i
  s.sharedTags - ((p.out ++ p.lost).filter fun y => !y.2.reserved).length

/-- The lowest tag that is free (in part DEDUCED, log entry 17). -/
def SiphonSt.freeTag (p : SiphonSt) : Option Nat := (List.range 512).find? fun t => !(p.busyTags.contains t)

/-- A transfer that may take any free tag (04 R149) (in part DEDUCED, log entry 17). -/
def Xfer.anyTag (x : Xfer) : Bool := x.cls == 3 || x.queue == 256

/-- Tags of a queue's reservation on a siphon that are in use, those lent among them (04 R149). -/
def SiphonSt.reservedUsed (p : SiphonSt) (q : Nat) : Nat :=
  ((p.out ++ p.lost).filter fun y => y.2.reserved && y.2.lender.getD y.2.queue == q).length

/-- A reserved tag is free for a queue. -/
def State.ownFree (s : State) (i q : Nat) : Bool := (s.siphon i).reservedUsed q < s.reserve q

/-- The queue whose reserved tag a transfer of any tag borrows when the shared pool is empty: the lowest with one free
(04 R149; DESIGN CHOICE, log entry 17). -/
def State.lenderFor (s : State) (i : Nat) (x : Xfer) : Option Nat :=
  if x.anyTag && s.sharedFree i == 0 then
    (sortBy (fun a b : Nat => decide (a ≤ b)) (s.image.queues.map (·.queue))).find? (s.ownFree i)
  else none

/-- A queue holds all of its reserved tags on a siphon, and so draws from the shared pool (04 R148). -/
def State.holdsReserve (s : State) (i q : Nat) : Bool := s.reserve q ≤ (((s.siphon i).heldBy q).filter id).length

/-- Whether some tag of its pools is free for a transfer (in part DEDUCED, log entry 17). -/
def State.tagFor (s : State) (i : Nat) (x : Xfer) : Bool :=
  x.anyTag || s.ownFree i x.queue || (s.holdsReserve i x.queue && 0 < s.sharedFree i)

/-- Whether the tag that a transfer takes is a reserved one: its queue's, or one lent to it (04 R149) (in part DESIGN CHOICE,
log entry 17). -/
def State.takesReserved (s : State) (i : Nat) (x : Xfer) : Bool :=
  if x.anyTag then s.sharedFree i == 0 else s.ownFree i x.queue

/-! ### Which transfers may be issued (04 R151, R165, R172; 08 R322; 09 R369) -/

/-- A payload transfer waits while its entry is paused or has no staging pair yet, its twin comparison is held, or budget is lent. -/
def State.issuable (s : State) (x : Xfer) : Bool :=
  match x.pur.entry with
  | none => true
  | some (q, c) =>
    !s.sync.lent && !(s.twin.held && s.twinnedQ q) &&
      (match s.op? q c with
        | some o => o.pause.isNone && o.pair != .waiting
        | none => true)

/-! ### The cache (04 R158-R164) -/

/-- The 256 B block of an address. -/
def blockBase (addr : Nat) : Nat := addr / 256 * 256

/-- A block lies wholly in an enabled window. -/
def State.windowed (s : State) (block : Nat) : Bool := s.cache.windows.any fun w => w.2.holds block

/-- A read that is looked up in the cache (04 R159). -/
def State.cacheable (s : State) (x : Xfer) : Bool :=
  (match x.pur with
    | .payload _ _ _ _ => true
    | _ => false) && s.windowed (blockBase x.addr)

/-- The cache set of a block (04 R158). -/
def cacheSet (block : Nat) : Nat := bits block 8 9

/-- The line of a block moves to the most recent place. -/
def CacheSt.touch (c : CacheSt) (l : CacheLine) : CacheSt := { c with lines := c.lines.erase l ++ [l] }

/-- Put a block in the cache; a full set gives up its least recently used line (04 R158). -/
def CacheSt.insert (c : CacheSt) (block : Nat) (data : List Byte) : CacheSt :=
  let ls := c.lines.filter fun l => l.block != block
  let mates := ls.filter fun l => cacheSet l.block == cacheSet block
  let ls := if 16 ≤ mates.length then
      match mates.head? with
      | some m => ls.erase m
      | none => ls
    else ls
  { c with lines := ls ++ [CacheLine.mk block data] }

/-- The line of a block. -/
def CacheSt.line (c : CacheSt) (block : Nat) : Option CacheLine := c.lines.find? fun l => l.block == block

/-- A fill in flight whose data a later reader may still have (04 R160, R161). -/
def CacheSt.joinable (c : CacheSt) (block : Nat) : Option Fill := c.fills.find? fun f => f.block == block && f.install

/-- A write to a block of a window: its line goes, and a fill in flight is not installed (04 R161). -/
def invalidate (s : State) (block : Nat) : State :=
  if s.windowed block then
    s.updCache fun c => { c with
      lines := c.lines.filter fun l => l.block != block
      fills := c.fills.map fun f => if f.block == block then { f with install := false } else f }
  else s

/-! ### Landing -/

/-- The positions of a paused entry follow the transfers that return, as R181 and its example have them move; 13_register_reference has the resume
record change only where a pause begins, ends or repeats (DESIGN CHOICE, log entry 27). -/
def notePos (s : State) (q c : Nat) : State :=
  match s.op? q c with
  | none => s
  | some o => match o.pause with
    | none => s
    | some p =>
      refreshResume (s.updOp q c fun y => { y with pause := some { p with rpos := s.readPos o, wpos := s.writePos o } }) q

/-- Read data of a payload transfer lands; what returns for an entry that has ended is discarded (04 R172). -/
def landPayload (s : State) (x : Xfer) (block : List Byte) : State :=
  match x.pur with
  | .payload q c r off =>
    match s.op? q c with
    | none => s
    | some o =>
      if o.ended.isSome then s
      else
        let s := s.updOp q c fun o => landBytes o r off (slice block (x.addr % 256) x.len)
        notePos (stepOp (readLanded s q c r) q c) q c
  | _ => s

/-! ### Issue (04 R144, R145, R159) -/

/-- Remove a waiting transfer. -/
def unwait (s : State) (i : Nat) (x : Xfer) : State := s.updSiphon i fun p => { p with waiting := p.waiting.erase x }

/-- A read that the cache or a fill in flight answers: it never becomes a fabric read (04 R159, R160, R164). -/
def State.served (s : State) (x : Xfer) : Bool :=
  s.cacheable x && ((s.cache.line (blockBase x.addr)).isSome || (s.cache.joinable (blockBase x.addr)).isSome)

/-- Serve the waiting reads that the cache or a fill in flight answers, in order; a read that joins a fill counts as a miss, as R160
calls it (DESIGN CHOICE, log entry 17). -/
def lookups (i : Nat) : Nat → State → State
  | 0, s => s
  | fuel + 1, s =>
    match (s.siphon i).waiting.find? fun x => s.issuable x && s.served x with
    | none => s
    | some x =>
      let b := blockBase x.addr
      let s := unwait s i x
      match s.cache.line b with
      | some l =>
        lookups i fuel (landPayload (s.updCache fun c => { c.touch l with hits := (c.hits + 1) % 2 ^ 64 }) x l.data)
      | none =>
        lookups i fuel (s.updCache fun c => { c with
          misses := (c.misses + 1) % 2 ^ 64
          fills := mapIf (fun f => f.block == b && f.install) (fun f => { f with waiters := f.waiters ++ [x] }) c.fills })

/-- A write of an entry's result has been issued (03 R129; 07 R293). -/
def noteIssued (s : State) (x : Xfer) : State :=
  match x.pur with
  | .result q c _ => s.updOp q c fun o => { o with wroteResult := true }
  | .stateWrite q c _ | .headerWrite q c _ =>
    s.updOp q c fun o => { o with wroteResult := true, upd := { o.upd with issued := true } }
  | _ => s

/-- One handshake of the request channel: the request of the tag on offer goes out where the port's ready is high, and waits in the
siphon with its tag where it is low (12 R452, R453) (DESIGN CHOICE, log entry 14). -/
def offerReq (s : State) (i : Nat) : State :=
  let p := s.siphon i
  match p.offered.bind fun t => p.out.find? fun y => y.1 == t with
  | none => s
  | some (t, x) =>
    let k := p.shakes + 1
    let s := { s with fresh := s.fresh + 1 }
    if Config.portReady i (s.fresh - 1) then
      s.setSiphon i { p with
        shakes := k, offered := none, req := some (x.request t)
        out := mapIf (fun y => y.1 == t) (fun y => (y.1, { y.2 with at_ := s.now })) p.out }
    else s.setSiphon i { p with shakes := k, refusedAt := some k }

/-- Issue a transfer on a tag: its request is offered to the port (04 R140; 12 R452). -/
def issue (s : State) (i tag : Nat) (x : Xfer) : State :=
  let s := noteIssued s x
  let fill := s.cacheable x
  let y := { x with reserved := s.takesReserved i x, lender := s.lenderFor i x, fill, at_ := s.now }
  let s := (unwait s i x).updSiphon i fun p => { p with out := p.out ++ [(tag, y)], offered := some tag }
  let s := if fill then s.updCache fun c => { c with
      misses := (c.misses + 1) % 2 ^ 64, fills := c.fills ++ [Fill.mk (blockBase x.addr) tag [] true] } else s
  offerReq (if x.pur.isWrite then invalidate s (blockBase x.addr) else s) i

/-- The next number in round-robin order after `last` among those waiting. -/
def nextTurn (last : Nat) (qs : List Nat) : Option Nat :=
  let up := sortBy (fun a b : Nat => decide (a ≤ b)) qs
  (up.find? (last < ·)).orElse fun _ => up.head?

/-- The credit of a class. -/
def SiphonSt.credit (p : SiphonSt) (c : Nat) : Int := if c == 0 then p.credR else if c == 1 then p.credW else p.credM

/-- The share of a class in sixteenths (02 R65). -/
def Image.share (im : Image) (c : Nat) : Int :=
  if c == 0 then im.splitRead else if c == 1 then im.splitWrite else im.splitRemote

/-- Smooth weighted round robin over the classes with a transfer that may be issued (04 R145): the class, and the credits
after the selection. -/
def selectClass (im : Image) (p : SiphonSt) (waiting : List Nat) : Option (Nat × SiphonSt) :=
  let up (c : Nat) : Int := if waiting.contains c then p.credit c + im.share c else p.credit c
  let total := (waiting.map im.share).sum
  let best := [0, 1, 2].foldl (fun b c => if !(waiting.contains c) then b else match b with
    | none => some c
    | some d => if up d < up c then some c else some d) (none : Option Nat)
  best.map fun b =>
    let after (c : Nat) : Int := if c == b then up c - total else up c
    (b, { p with credR := after 0, credW := after 1, credM := after 2 })

/-- The transfer that a siphon issues next, and the siphon after its selection (04 R144). A class none of whose transfers can take a tag
of its pool now is left out of the selection, with its credit kept, since it still has transfers waiting (04 R145) (DESIGN CHOICE, log
entry 17). -/
def chooseXfer (s : State) (i : Nat) : Option (Xfer × SiphonSt) :=
  let p := s.siphon i
  let ok := p.waiting.filter fun x => s.issuable x && !(s.served x)
  match ok.find? fun x => x.cls == 3 with
  | some x => some (x, p)
  | none =>
    let res := ok.filter fun x => s.tagFor i x && (p.heldBy x.queue).length < s.reserve x.queue
    match nextTurn p.rrRes (res.map (·.queue)) with
    | some q => (res.find? fun x => x.queue == q).map fun x => (x, { p with rrRes := q })
    | none =>
      let can := ok.filter (s.tagFor i)
      match selectClass s.image p ((can.map (·.cls)).eraseDups) with
      | none => none
      | some (c, p) =>
        let mine := can.filter fun x => x.cls == c
        let last := if c == 0 then p.rrR else if c == 1 then p.rrW else p.rrM
        match nextTurn last (mine.map (·.queue)) with
        | none => none
        | some q => (mine.find? fun x => x.queue == q).map fun x =>
          (x, if c == 0 then { p with rrR := q } else if c == 1 then { p with rrW := q } else { p with rrM := q })

/-- One issue of a siphon (04 R144): what the cache answers first, then the request that the port holds off or else one transfer on a free
tag (in part DEDUCED, log entry 17). -/
def issueOne (s : State) (i : Nat) : State :=
  let clear (s : State) : State := s.updSiphon i fun p => p.clearCredits s.awaits
  let s := clear (lookups i (s.siphon i).waiting.length s)
  if (s.siphon i).offered.isSome then offerReq s i
  else match (s.siphon i).freeTag, chooseXfer s i with
    | some t, some (x, p) => clear (issue (s.setSiphon i p) i t x)
    | _, _ => s

/-! ### The image fetch (02 R67-R70) -/

/-- Refuse the image being loaded. -/
def refuseImage (s : State) (code section_ index : Nat) : State :=
  s.updImg fun i => { i with loader := .refused, refusal := code, section_, index, bytes := [], headerDone := false, staged := none }

/-- Transfers of the present image fetch that have not returned. -/
def State.imageXfers (s : State) : List Xfer :=
  s.xfers.filter fun x => match x.pur with
    | .image id _ => id == s.img.fetchId
    | _ => false

/-- Drop the waiting transfers of the image fetch: none is issued after it stops. -/
def dropImage (s : State) : State :=
  s.keepWaiting fun x => match x.pur with
    | .image _ _ => false
    | _ => true

/-- Image bytes land: once the header is here it is checked, and the rest is asked for (02 R68) (in part DEDUCED, log entry 36). -/
def landImage (s : State) (id off : Nat) (bs : List Byte) : State :=
  let im := s.img
  if im.loader != .loading || id != im.fetchId then s
  else
    let s := s.updImg fun i => { i with bytes := bufWrite i.bytes off bs }
    if im.headerDone || !s.imageXfers.isEmpty then s
    else match firstFailure (headerChecks (bytesOf 64 s.img.bytes) im.len) with
      | some e => refuseImage s e.code e.sec e.idx
      | none =>
        enqueueRead (s.updImg fun i => { i with headerDone := true }) 256 (im.base + 64) (im.len - 64) siphonOf
          fun k => .image id (64 + k)

/-! ### Page faults (04 R165-R170) -/

/-- A payload transfer of an entry meets a page fault: the entry pauses, or a paused one keeps a further faulted transfer
(in part DEDUCED, log entry 27). -/
def pauseOn (s : State) (i : Nat) (x : Xfer) : State :=
  match x.pur.entry with
  | none => s
  | some (q, c) =>
    match s.op? q c with
    | none => s
    | some o =>
      if o.ended.isSome then
        s.updOp q c fun o => { o with upd := { o.upd with tornDue := o.upd.tornDue || x.pur.isUnit } }
      else match o.pause with
        | some p => s.updOp q c fun o => { o with pause := some { p with faulted := p.faulted ++ [x] } }
        | none =>
          let p : Pause := { faulted := [x], addr := blockBase x.addr, siphon := i, write := x.pur.isWrite, tally := s.stamp }
          let o' := { o with pause := some p }
          let p := { p with rpos := s.readPos o', wpos := s.writePos o' }
          let s := s.updOp q c fun o => { o with pause := some p, pauses := o.pauses + 1, resumed := true }
          let s := refreshResume (s.keepWaiting fun _ => true) q
          if s.cache.notifyEn then (applySignal s s.cache.notifySync false 1 ⟨kindPause, s.me, 0⟩).1 else s

/-- Put transfers back at the front of their siphons, in ascending address order (04 R157, R167). -/
def reissue (s : State) (xs : List Xfer) : State :=
  (sortBy (fun a b : Xfer => decide (b.addr ≤ a.addr)) xs).foldl (fun s x =>
    s.updSiphon (siphonOf x.addr) fun p => { p with waiting := x :: p.waiting }) s

/-- Resume every paused entry of a queue (04 R167): the faulted transfers go again. -/
def resumeQueue (s : State) (q : Nat) : State :=
  let s := s.updSync fun y => { y with quietSince := none }
  (s.ops.filter fun o => o.q == q && o.pause.isSome).foldl (fun s o =>
    match o.pause with
    | none => s
    | some p =>
      let s := reissue s p.faulted
      let s := refreshResume (s.updOp q o.c fun o => { o with pause := none, waitBytes := 0 }) q
      stepOp s q o.c) s

/-! ### Errors and timeouts (12 R457) -/

/-- A write that is dropped is counted (12 R457, R489). -/
def countDropped (s : State) (i : Nat) : State := s.updSiphon i fun p => { p with dropped := min 0x3FFF (p.dropped + 1) }

/-- A payload transfer of an entry fails: a group-wide entry halts its group, a local one ends with FAULT; a commit unit that
lost a write is torn (07 R293). -/
def entryFails (s : State) (q c : Nat) (unit : Bool) : State :=
  match s.op? q c with
  | none => s
  | some o =>
    let s := if o.ended.isSome then s
      else if isGroupWide o.desc.opcode then haltOnFault s o.desc.group haltFault (endFaultOf o.num)
      else endOp s q c codeFault
    continueUnit (s.updOp q c fun o => { o with upd := { o.upd with tornDue := o.upd.tornDue || unit } }) q c

/-- A write of the dump has returned: the last one ends it, and the resume marks that waited for it are raised (02 R83;
08 R338, R345). -/
def dumpReturned (s : State) (ok : Bool) : State :=
  let s := s.updSync fun y => { y with dumpBroken := y.dumpBroken || !ok, dumpFailed := y.dumpFailed || !ok }
  if (s.xfers.any fun x => x.pur == .dump) then s
  else
    let gs := s.sync.resumeAfter
    let s := s.updSync fun y => { y with
      dumpBusy := false, dumpFull := y.dumpFull || !y.dumpBroken, dumpBroken := false, resumeAfter := [] }
    gs.foldl raiseResume s

/-- The effect of a transfer that failed: by an error, a timeout, or a page fault that does not pause (12 R457; 04 R169). A failed
descriptor read names in ERR_INDEX the first entry of its 256 B transfer, whether or not an earlier entry of the batch has OWN 0
(in part DEDUCED and DESIGN CHOICE, log entry 17). -/
def xferFails (s : State) (i : Nat) (x : Xfer) : State :=
  match x.pur with
  | .fetch q id off =>
    match (s.queue q).batch with
    | some b => if b.id == id then queueError s q 0x0A ((b.start + off / 64) % 2 ^ 32) else s
    | none => s
  | .staticMap q c id _ =>
    if (s.queue q).mapLeft != 0 && (s.queue q).mapId == id then queueError s q 0x0A c else s
  | .payload q c _ _ => entryFails s q c false
  | .result q c _ => entryFails s q c false
  | .stateWrite q c _ => entryFails s q c true
  | .headerWrite q c _ => entryFails s q c true
  | .record q c => recordFailed s q c
  | .image id _ =>
    if s.img.loader == .loading && id == s.img.fetchId then dropImage (refuseImage s refFetch 0 0) else s
  | .dump => dumpReturned s false
  | .mirror _ => s.updSync fun y => { y with mirrorFailed := true }
  | .replaySlot g step =>
    let s := (countDropped s i).updGroup g fun y => { y with short := true }
    let y := (s.group g).slot step
    if y.step != step then s
    else
      let s := s.updGroup g fun z => z.setSlot step { y with short := true }
      if x.addr == (s.group g).slotAddr step then s else writeSlotHeader s g step
  | .recallRec gen => recordWritten (countDropped s i) false gen false
  | .faultRec gen => recordWritten (countDropped s i) true gen false
  | .headWb _ | .ledger => countDropped s i

/-- The waiters of the fill that a tag brings, and the cache without it. -/
def takeFill (s : State) (i tag : Nat) : State × Option Fill :=
  match s.cache.fills.find? fun f => f.tag == tag && siphonOf f.block == i with
  | some f => (s.updCache fun c => { c with fills := c.fills.erase f }, some f)
  | none => (s, none)

/-- A transfer and the readers that waited for its fill fail alike (04 R169; 12 R457). -/
def failAll (s : State) (i tag : Nat) (x : Xfer) : State :=
  let (s, f) := takeFill s i tag
  (x :: ((f.map (·.waiters)).getD [])).foldl (fun s x => xferFails s i x) s

/-- A page fault: payload pauses its entry and every entry that waited for the block; anything else fails (04 R165, R169). -/
def faultAll (s : State) (i tag : Nat) (x : Xfer) : State :=
  if x.pur.entry.isSome then
    let (s, f) := takeFill s i tag
    (x :: ((f.map (·.waiters)).getD [])).foldl (fun s x => pauseOn s i x) s
  else failAll s i tag x

/-! ### Responses (12 R454) -/

/-- A transfer has succeeded. -/
def xferDone (s : State) (i tag : Nat) (x : Xfer) (block : List Byte) : State :=
  let bs := slice block (x.addr % 256) x.len
  match x.pur with
  | .fetch q id off =>
    s.updQueue q fun y => match y.batch with
      | some b => if b.id == id then { y with batch := some { b with data := bufWrite b.data off bs, left := b.left - 1 } } else y
      | none => y
  | .staticMap q _ id off =>
    let y := s.queue q
    if y.mapLeft == 0 || y.mapId != id then s
    else
      let buf := bufWrite y.mapBuf off bs
      match y.buffered with
      | b :: rest =>
        if y.mapLeft == 1 then
          checkQueue (s.setQueue q { y with
            mapLeft := 0, mapBuf := [], buffered := { b with map := some (bufRead buf 0 (8 * s.mapEntries b.desc)) } :: rest }) q
        else s.setQueue q { y with mapLeft := y.mapLeft - 1, mapBuf := buf }
      | [] => s
  | .payload _ _ _ _ =>
    let (s, f) := takeFill s i tag
    match f with
    | none => landPayload s x block
    | some f =>
      let s := if f.install then s.updCache fun c => c.insert f.block block else s
      (x :: f.waiters).foldl (fun s x => landPayload s x block) s
  | .result q c off =>
    notePos (stepOp (s.updOp q c fun o => { o with acked := joinRanges (o.acked ++ [(off, x.len)]) }) q c) q c
  | .stateWrite q c _ => continueUnit (stepOp s q c) q c
  | .headerWrite q c _ => continueUnit (stepOp s q c) q c
  | .record q c => recordVisible s q c
  | .dump => dumpReturned s true
  | .image id off => landImage s id off bs
  | .recallRec gen => recordWritten s false gen true
  | .faultRec gen => recordWritten s true gen true
  | .headWb _ | .mirror _ | .ledger | .replaySlot _ _ => s

/-- A response arrives on a fabric port; the tag of a request still on offer is not outstanding (12 R454, R456, R457)
(in part DEDUCED, log entry 17). -/
def takeResponse (s : State) (i tag status : Nat) (block : List Byte) : State :=
  let p := s.siphon i
  if p.lost.any fun y => y.1 == tag then s.setSiphon i { p with lost := p.lost.filter fun y => y.1 != tag }
  else match p.out.find? fun y => y.1 == tag && p.offered != some tag with
    | none => s.setSiphon i { p with stray := satAdd 255 p.stray 1 }
    | some (_, x) =>
      let p := { p with out := p.out.filter fun y => y.1 != tag }
      if status = 0 then xferDone (s.setSiphon i p) i tag x block
      else if status = 1 then faultAll (s.setSiphon i { p with faults := satAdd 0xFFFF p.faults 1 }) i tag x
      else failAll (fabricRecord (s.setSiphon i { p with errors := satAdd 0xFFFF p.errors 1 }) i 6 status x.addr) i tag x

/-- A transfer has had no response within TIMEOUT_US of its acceptance (12 R456, R457): its tag is lost (in part DEDUCED, log entry 17). -/
def timeOut (s : State) (i tag : Nat) : State :=
  let p := s.siphon i
  match p.out.find? fun y => y.1 == tag && p.offered != some tag with
  | none => s
  | some (_, x) =>
    if x.at_ + s.fabricTimeoutUs * 1000 ≤ s.now then
      let p := { p with out := p.out.filter (fun y => y.1 != tag), lost := p.lost ++ [(tag, x)] }
      failAll (fabricRecord (s.setSiphon i p) i 7 tag x.addr) i tag x
    else s

/-! ### The scrubber (01 R34, R35; 11 R427) -/

/-- Stuck words of a bank. -/
def WardenSt.stuckIn (w : WardenSt) (bank : Nat) : Nat := (w.stuck.filter fun y => y.bank == bank && y.stuck).length

/-- A record of the scrubber (in part DEDUCED, log entry 18). -/
def scrubRecord (s : State) (type verdict action : Nat) (capped : Bool) (bank g s0 s1 s2 : Nat) : State :=
  makeRecord s { type, verdict, action, capped, unit := 0x300 + bank, operation := 0xF2, group := g
                 step := if (s.gr g).valid then (s.group g).stepNow.1 else 0, count := 0xFFFFFFFF, s0, s1, s2 }

/-- One upset word that a pass reads. One bit is corrected and counted, and the same bit on two passes makes the word stuck;
two bits are a unit fault that loses the parcel which held the word
(in part DESIGN CHOICE, log entry 11; DEDUCED, log entry 18). -/
def scrubWord (s : State) (seen : List StuckWord) (u : Upset) : State :=
  let b := u.bank.val
  match u.bits with
  | [] => s
  | [k] =>
    let old := seen.find? fun y => y.bank == b && y.word == u.word
    let again := old.any fun y => y.bit == k
    let was := old.any (·.stuck)
    let s := s.updWarden fun w => { w with
      eccCount := w.eccCount + 1
      stuck := (w.stuck.filter fun y => !(y.bank == b && y.word == u.word)) ++ [StuckWord.mk b u.word k (was || again)] }
    if again && !was then
      let full := s.warden.stuckLimit ≤ s.warden.stuckIn b
      let n := s.warden.stuckIn b
      if full && s.warden.autoFence then
        let (s, acts, short) := withdrawEngine s 0x02
        scrubRecord s 0x02 0 (firstAction acts) short b 0xFFFF u.word k n
      else scrubRecord s 0x02 0 0 full b 0xFFFF u.word k n
    else s
  | _ =>
    let (s, g, acts) := wordLost s b u.word
    scrubRecord s 0x01 vNotRepeatable (firstAction acts) false b g u.word (Config.eccSyndrome u.bits).toNat 0

/-- One pass over every cistern, bank by bank from the bank and in the order that a timing draw chooses (01 R35; 09 R361): words not upset in
this pass lose what the last one noted, but for those found stuck (in part DEDUCED, log entry 18). -/
def scrub (s : State) (ups : List Upset) : State :=
  let (s, d) := timingDraw s 2
  let place (u : Upset) : Nat := Config.bankPlace [d.x0, d.x1, d.x2, d.x3] u.bank.val
  let ups := sortBy (fun a b => decide (place a ≤ place b)) ups
  let seen := s.warden.stuck
  let s := s.updWarden fun w => { w with stuck := w.stuck.filter (fun y =>
    y.stuck || ups.any fun u => u.bank.val == y.bank && u.word == y.word) }
  ups.foldl (fun s u => scrubWord s seen u) s

/-! ### Commands -/

/-- STAGING_PAIR_GRANT (04 R151). -/
def execStagingPairGrant (p : Fin 64) (s : State) : Host.Outcome State Fault Refusal :=
  let t := grantPairs p 64 s
  finishPlain s ((t.ops.filter fun o => o.partition == p.val).foldl (fun t o => stepOp t o.q o.c) t)

/-- TRANSFER_ISSUE (04 R144). -/
def execTransferIssue (i : Fin 8) (s : State) : Host.Outcome State Fault Refusal := finishPlain s (issueOne s i)

/-- FABRIC_RESPONSE (12 R454). -/
def execFabricResponse (i : Fin 8) (tag : Fin 512) (status : Fin 4) (data : List Byte) (s : State) :
    Host.Outcome State Fault Refusal :=
  checked (responseWf data) "FABRIC_RESPONSE" <|
    finishPlain s (raiseDue (takeResponse s i tag status data))

/-- FABRIC_TIMEOUT (12 R456). -/
def execFabricTimeout (i : Fin 8) (tag : Fin 512) (s : State) : Host.Outcome State Fault Refusal :=
  finishPlain s (raiseDue (timeOut s i tag))

/-- RESUME (04 R167). -/
def execResume (m : Mgmt) (q : Fin 256) (s : State) : Host.Outcome State Fault Refusal :=
  finish s (mgmtWrite s m fun s => some (resumeQueue s q))

/-- A write of CACHE_CTRL (04 R163, R178). -/
def writeCacheCtrl (s : State) (d : W64) : State :=
  if bit d.toNat 0 then (flushCache s).updCache fun c => { c with flushing := true } else s

/-- FLUSH (04 R163). -/
def execFlush (m : Mgmt) (s : State) : Host.Outcome State Fault Refusal :=
  finish s (mgmtWrite s m fun s => some (writeCacheCtrl s 1))

/-- FLUSH_DONE (04 R178). -/
def execFlushDone (s : State) : Host.Outcome State Fault Refusal :=
  finishPlain s (s.updCache fun c => { c with flushing := false })

/-- A write of CACHE_WIN_BASE or CACHE_WIN_LIMIT (04 R179). -/
def writeWindow (s : State) (n : Nat) (limit : Bool) (d : W64) : Option State :=
  let w := s.window n
  let page := bits d.toNat 12 52
  if limit then
    if w.en && page != w.limit then none
    else some (s.setWindow n { w with group := bits d.toNat 0 12, limit := page })
  else if w.en && page != w.base then none
  else
    let en := bit d.toNat 0
    let s := if w.en && !en then flushWindow s w else s
    some (s.setWindow n { w with en, stepFlush := bit d.toNat 1, base := page })

/-- CACHE_WINDOW_WRITE (04 R179). -/
def execCacheWindowWrite (m : Mgmt) (n : Fin 8) (limit : Bool) (d : W64) (s : State) : Host.Outcome State Fault Refusal :=
  finish s (mgmtWrite s m fun s => writeWindow s n limit d)

/-- SCRUB_PASS (01 R35). -/
def execScrubPass (ups : List Upset) (s : State) : Host.Outcome State Fault Refusal :=
  checked (ups.all Upset.wf) "SCRUB_PASS" <|
    finishPlain s (raiseDue (scrub s ups))

end Sys2Proof.Machine
end

