-- ==== Sys2Proof/Machine/Groups.lean ====
section
/-! DEFINITION. The groups' commands: tokens, HALT, step marks and swaps, GROUP_CTRL, and the step timeout (05 R209-R214,
R224; 02 R75-R83); with the parcels, answers, level marks and recalls of 10 R376-R400. -/

namespace Sys2Proof.Machine

/-! ### Messages -/

/-- TOKEN (05 R209). -/
def execToken (t : Token) (s : State) : Host.Outcome State Fault Refusal :=
  checked t.wf "TOKEN" <|
    finishPlain s (raiseDue (recvToken (takeIn s t.src (.token t)) t))

/-- A parcel that is held back stands among the messages that have arrived; it has come from a peer all the same (04 R170; 05 R212; 08
R322). -/
def leaveParcel (s : State) (p : Parcel) : State :=
  let s := groupStirs s p.h.group
  if s.net.inbox.any fun x => x.msg.carries p.src (.parcel p) then s
  else { s with net := { s.net with inbox := s.net.inbox ++ [{ msg := { dest := s.me, src := p.src, body := .parcel p } }] } }

/-- PARCEL (10 R379). -/
def execParcel (p : Parcel) (s : State) : Host.Outcome State Fault Refusal :=
  checked p.wf "PARCEL" <|
    finishPlain s (if s.noRoom p then leaveParcel s p else raiseDue (recvParcel (takeIn s p.src (.parcel p)) p))

/-- ANSWER (10 R388). -/
def execAnswer (a : AnswerMsg) (s : State) : Host.Outcome State Fault Refusal :=
  checked a.wf "ANSWER" <|
    finishPlain s (recvAnswer (takeIn s a.src (.answer a)) a)

/-- LEVEL_MARK (10 R394). -/
def execLevelMark (l : LevelMsg) (s : State) : Host.Outcome State Fault Refusal :=
  checked l.wf "LEVEL_MARK" <|
    finishPlain s (recvLevel (takeIn s l.src (.level l)) l)

/-- RECALL (10 R397). -/
def execRecall (r : RecallMsg) (s : State) : Host.Outcome State Fault Refusal :=
  checked r.wf "RECALL" <|
    finishPlain s (raiseDue (recvRecall (takeIn s r.src (.recall r)) r))

/-- A HALT arrives (05 R213; 02 R83): one of a step or run that has ended here is stale; a member that has not halted halts with PEER_HALT and forwards it once, names included;
with AUTO_EVICT the named members that it lists are evicted and the resume mark is raised (in part DEDUCED, log entry 24). -/
def recvHalt (s : State) (m : HaltMsg) : State :=
  let g := m.c.group
  let x := s.group g
  if !x.gr.valid || x.halted || !(s.mayTradeIn g) || x.hasEnded m.c.step m.c.run then s
  else
    let s := dropHeld (haltGroup s g haltPeer endHalted) g
    let s := sendAll s (s.allPeers g) (.halt { m with src := s.me })
    if x.gr.autoEvict then raiseResume (m.missing.foldl (fun s d => evictDie s g 0 d) s) g else s

/-- HALT (05 R213). -/
def execHalt (h : HaltMsg) (s : State) : Host.Outcome State Fault Refusal :=
  checked h.wf "HALT" <|
    finishPlain s (raiseDue (recvHalt (takeIn s h.src (.halt h)) h))

/-! ### Step marks and swaps -/

/-- STEP_MARK (01 R24). -/
def execStepMark (g : Fin 4096) (s : State) : Host.Outcome State Fault Refusal := finishPlain s (noteDrain s (commitMark s g))

/-- IMAGE_SWAP (02 R75). -/
def execImageSwap (s : State) : Host.Outcome State Fault Refusal := finishPlain s (noteDrain s (swapImage s))

/-! ### Missing peers (05 R213) -/

/-- The peers of a stage whose token has not arrived: for the weir that runs, else for the oldest started group-wide entry
that waits on a peer. -/
def State.missingAt (s : State) (g st : Nat) : List Nat :=
  match (s.group g).marking with
  | some m => (s.weirWaits g st m.resume).filter fun d => (s.weirFrom g m.resume st d).isNone
  | none =>
    match s.ops.find? fun o => !o.desc.noGroup && o.desc.group == g && isGroupWide o.desc.opcode && o.waitsOnPeer with
    | some o => (s.peers g st).filter fun d => !((s.toksOf o).any fun t => t.2.src == d && t.2.c.stage == st)
    | none => []

/-- The missing peers per enabled stage. -/
def State.missing (s : State) (g : Nat) : List (Nat × List Nat) :=
  (enabled (s.gr g).stageMask).map fun st => (st, sortBy (fun a b : Nat => decide (a ≤ b)) (s.missingAt g st))

/-- The missing peers by die address, each once. -/
def missingNames (miss : List (Nat × List Nat)) : List Nat :=
  (sortBy (fun a b : Nat => decide (a ≤ b)) (miss.flatMap (·.2))).eraseDups

/-! ### GROUP_CTRL (05 R224; 02 R83) -/

/-- A write of GROUP_CTRL; HALT is sent with the names of the peers whose token had not arrived (in part DEDUCED, log entry 24). -/
def writeGroupCtrl (s : State) (g : Nat) (d : W64) : Option State :=
  let x := s.group g
  let resume := bit d.toNat 0
  if !x.gr.valid || (resume && !x.halted) then none
  else
    let s := if resume then raiseResume s g else s
    some (if bit d.toNat 1 && !x.halted then raiseDue (haltNaming s g haltManual endHalted (missingNames (s.missing g))) else s)

/-- GROUP_RESUME (02 R83). -/
def execGroupResume (m : Mgmt) (g : Fin 4096) (s : State) : Host.Outcome State Fault Refusal :=
  finish s (mgmtWrite s m fun s => writeGroupCtrl s g 1)

/-- GROUP_HALT (05 R224). -/
def execGroupHalt (m : Mgmt) (g : Fin 4096) (s : State) : Host.Outcome State Fault Refusal :=
  finish s (mgmtWrite s m fun s => writeGroupCtrl s g 2)

/-! ### The step timeout (05 R212, R213; 02 R83) -/

/-- Put the numbers of missing peers into GROUP_SLOW. -/
def noteMissing (s : State) (g : Nat) (miss : List (Nat × List Nat)) : State :=
  s.updGroup g fun x => miss.foldl (fun x (st, ds) => x.setSlow st { x.slowAt st with missing := ds.length }) x

/-- The stage and the die of the lowest-positioned missing peer. -/
def lowestMissing (miss : List (Nat × List Nat)) : Option (Nat × Nat) :=
  (miss.flatMap fun (st, ds) => ds.map fun d => (st, d)).foldl (fun b x => match b with
    | none => some x
    | some y => if x.2 < y.2 then some x else some y) none

/-- The started group-wide entries take note of the lowest-positioned missing peer (05 R213). -/
def slowTimeout (s : State) (g : Nat) (miss : List (Nat × List Nat)) : State :=
  match lowestMissing miss with
  | none => s
  | some (st, d) =>
    let hit (o : Op) : Bool := !o.desc.noGroup && o.desc.group == g && isGroupWide o.desc.opcode && o.ended.isNone
    { s with ops := mapIf hit (fun o => { o with missed := some (st, d) }) s.ops }

/-- The step timeout of a group expires (05 R213): halt, HALT with up to 8 names, GROUP_SLOW, the record, the dump; with
AUTO_EVICT the evictions and the resume mark once the dump is written (02 R83). A resume weir that waits in vain proceeds
in the same way (in part DEDUCED, log entry 24). -/
def expire (s : State) (g : Nat) : State :=
  let x := s.group g
  let miss := s.missing g
  let names := missingNames miss
  let s := slowTimeout s g miss
  let s := if x.halted then
      s.updGroup g fun x => { x with haltCause := haltTimeout, marking := none, timerAt := none }
    else haltGroup s g haltTimeout endTimeout
  let s := sendHalt s g haltTimeout names
  let s := noteMissing s g miss
  let s := makeRecord s { type := 0x08, action := 5, unit := 0xFFFF, operation := 0xFF, group := g, step := x.stepNow.1
                          count := 0xFFFFFFFF, s0 := names.length, s1 := (names.head?).getD 0 }
  let (s, dumped) := writeDump s 1 g
  let s := dropHeld s g
  if x.gr.autoEvict then
    let s := names.foldl (fun s d => evictDie s g 0 d) s
    if dumped then s.updSync fun y => { y with resumeAfter := addTo g y.resumeAfter } else raiseResume s g
  else s

/-- STEP_TIMEOUT (05 R213). -/
def execStepTimeout (g : Fin 4096) (s : State) : Host.Outcome State Fault Refusal :=
  let x := s.group g
  let due := match x.timerAt with
    | some t => decide (t + x.gr.timeoutUs * 1000 ≤ s.now)
    | none => false
  finishPlain s (if x.gr.valid && due then raiseDue (expire s g) else s)

end Sys2Proof.Machine
end

