-- ==== Sys2Proof/Machine/Links.lean ====
section
/-! DEFINITION. The link ports (12 R459-R481, R487): training, attach, width, retrains and failures, flits with their
acknowledgement and replay, the flood of link states, and messages received. -/

namespace Sys2Proof.Machine

/-! ### Widths and lane groups (12 R475) -/

/-- The width of a port over its ready and calibrated lane groups. -/
def LinkSt.fitWidth (l : LinkSt) : Nat := l.widthOver (l.good &&& l.ready)

/-- The lowest ready lane group, on which a port trains (12 R473). -/
def LinkSt.lowest (l : LinkSt) : List Nat := ((List.range 4).filter (bit l.ready)).take 1

/-- The lane groups that a port uses: the lowest-numbered good ones up to its width, and the lowest ready one in BASIC and while it trains
and attaches (12 R473, R475). -/
def LinkSt.lanes (l : LinkSt) : List Nat :=
  if l.state == .up then ((List.range 4).filter (bit (l.good &&& l.ready))).take l.width
  else if l.state == .disabled || l.state == .waitPhy || l.state == .down then []
  else l.lowest

/-- The lane group on which a port sends a sequenced flit, by its SEQ, or a link flit, by 4,096 + its KIND (12 R480): one of those in use
(DESIGN CHOICE, log entry 33). -/
def LinkSt.laneOf (l : LinkSt) (port k : Nat) : Option Nat := (l.lanes)[Config.laneFor port k % l.lanes.length]?

/-- The lane group on which the last link flit was sent: STATUS, NACK or TRAIN (12 R465, R480). -/
def LinkSt.sentLane (l : LinkSt) (port : Nat) : Option Nat := l.sent.bind fun f => l.laneOf port (4096 + f.kind)

/-- PHY_TRAIN of a port: the lane groups whose training and calibration it asks for, those it trains or has not found good
(12 R480) (in part DEDUCED, log entry 33). -/
def LinkSt.phyTrain (l : LinkSt) : List Nat :=
  if l.state == .waitPhy || l.state == .train || l.state == .attach || l.state == .retrain then List.range 4
  else if l.state == .basic then (List.range 4).filter fun g => bit l.ready g && !bit l.good g
  else []

/-- A mask without the lane groups of another. -/
def maskOff (a b : Nat) : Nat := a - (a &&& b)

/-! ### The link map (12 R469) -/

/-- Set the map's bit of a port. -/
def setMap (s : State) (die port : Nat) (up : Bool) : State :=
  let k := die % 64
  let old := tabGet (fun _ => 0) s.net.map k
  let v := maskOff old (2 ^ port) + (if up then 2 ^ port else 0)
  { s with net := { s.net with map := tabSet (fun _ => 0) s.net.map k v } }

/-- Send a flood on every carrying package port but one. -/
def floodOn (s : State) (m : Msg) (but : Option Nat) : State :=
  ([0, 1, 2, 3].filter fun p => some p != but && (s.link p).carries).foldl (fun s p =>
    drainPort (s.updLink p fun l => { l with queue := l.queue ++ [{ src := (but.map (· + 1)).getD 0, idx := 0, msg := m }] }) p) s

/-- A package port of this die has come up or gone down: the map takes it, and the package is told. -/
def tellState (s : State) (n : Nat) (up : Bool) : State :=
  if n < 4 then
    let k := s.net.nonce
    let s := setMap s s.me n up
    let s := { s with net := { s.net with nonce := wrap32 (k + 1), seen := addTo (s.me, k) s.net.seen } }
    floodOn s { dest := s.me, src := s.me, flood := true, body := .linkState n up k } none
  else s

/-- A flood arrives (12 R469): one not seen before updates the map and goes on. -/
def recvLinkState (s : State) (n src port : Nat) (up : Bool) (nonce hops : Nat) : State :=
  if s.net.seen.contains (src, nonce) then s
  else
    let s := setMap { s with net := { s.net with seen := s.net.seen ++ [(src, nonce)] } } src port up
    floodOn s { dest := src, src, flood := true, hops := hops + 1, body := .linkState port up nonce } (some n)

/-! ### Messages received (12 R460, R461, R472) -/

/-- Count a message that is discarded on a port. -/
def dropOn (s : State) (n k : Nat) : State := s.updLink n fun l => { l with dropped := (l.dropped + k) % 2 ^ 64 }

/-- The TYPE and HOPS of a message that is discarded at receipt: a reserved type, or too many links crossed (12 R461). -/
def badMessage (bs : List Byte) : Bool := 12 < field bs 0x0A 1 || 64 ≤ field bs 0x0B 1

/-- The message whose flits are `bs`, as it goes on. -/
def rawMsg (vc : Nat) (bs : List Byte) : Msg :=
  { dest := bits (field bs 0 4) 0 18, src := bits (field bs 4 4) 0 18, order := bit (field bs 0 4) 18
    hops := field bs 0x0B 1 + 1, body := .raw vc (field bs 0x0A 1) bs }

/-- A message that only passes through this die (01 R44). -/
def State.transits (s : State) (bs : List Byte) : Bool :=
  !badMessage bs && !bit (field bs 0 4) 19 && bits (field bs 0 4) 0 18 != s.me

/-- A whole message has arrived on a port that does not pass on: discarded, flooded on, or kept in the input's buffer until the
engine takes it in (in part DESIGN CHOICE, log entry 21). -/
def takeMessage (s : State) (n vc : Nat) (bs : List Byte) : State :=
  let w := field bs 0 4
  let type := field bs 0x0A 1
  let hops := field bs 0x0B 1
  let flits := bs.length / 64
  if badMessage bs then dropOn (giveCredit s n vc flits) n 1
  else if bit w 19 then
    let s := giveCredit s n vc flits
    if type == 12 then recvLinkState s n (bits w 0 18) (field bs 0x1C 1) (bit (field bs 0x1D 1) 0) (field bs 0x1E 4) hops else s
  else
    { s with net := { s.net with inbox := s.net.inbox ++ [{ msg := { rawMsg vc bs with hops }, from_ := some (n, vc, flits) }] } }

/-- The open transit message of an input on a VC: its output port. -/
def State.passing (s : State) (n vc : Nat) : Option Nat :=
  (List.range 8).find? fun p => (s.link p).queue.any fun x => x.src == n + 1 && !x.closed && bodyVc x.msg.body == vc

/-- The open transit message of an input on a VC at a port takes what has arrived of it. -/
def LinkSt.extend (l : LinkSt) (n vc : Nat) (bs : List Byte) (last : Bool) : LinkSt :=
  { l with
    queue := mapIf (fun x => x.src == n + 1 && !x.closed && bodyVc x.msg.body == vc)
      (fun x => { x with closed := last, msg := { x.msg with body := .raw vc (field bs 0x0A 1) bs } }) l.queue }

/-- The bytes that the payload of a parcel message can have (10 R375, R376): COUNT elements of FORMAT, with the scales of any block
length in either direction where the format is block-scaled, and with TOUCH the touch bits of up to 256 rows, since no field of the
message tells those: an UPDATE's parcel has a bit for each of its rows, and elements of the touched ones alone (07 R295). COUNT 0 stands
for 1 element or, in an empty parcel, for none (in part DEDUCED, log entry 34). -/
def transitLengths (bs : List Byte) : List Nat :=
  let fmt := bits (field bs 0x12 1) 0 4
  let kind := bits (field bs 0x12 1) 4 4
  let c := bits (field bs 0x20 4) 20 12
  let any : List Nat := [16, 32, 64, 128]
  let touch := if bit (field bs 0x13 1) 4 then List.range 33 else [0]
  (if c = 0 then [0, 1] else [c + 1]).flatMap fun count =>
    let scales := if isBlockFmt fmt && kind != 3 && kind != 5 then any.flatMap fun b => [cdiv count b, 128 * cdiv count (128 * b)] else [0]
    scales.flatMap fun n => touch.map fun t => parcelElem kind fmt * count + n + t

/-- Whether a parcel in transit passes its CRC over the bytes of its payload (10 R379; 12 R461) (in part DEDUCED, log entry 34). -/
def transitCrcOk (bs : List Byte) : Bool :=
  let payload := bs.drop 64
  (transitLengths bs).any fun n => n ≤ payload.length && crc32c (slice bs 0x10 0x14 ++ payload.take n) == field bs 0x24 4

/-- A parcel in transit is checked, once its last flit has come; it goes on whatever the check gives (01 R44; 10 R379, R410). -/
def checkTransit (s : State) (n : Nat) (bs : List Byte) : State :=
  if field bs 0x0A 1 != 0 || transitCrcOk bs then s
  else checkFailed (countCrc s) { type := 4, unit := 0x500 + n, operation := 0xFF, stage := bits (field bs 0x10 2) 12 3
                                  group := bits (field bs 0x10 2) 0 12, count := 0xFFFFFFFF
                                  s0 := bits (field bs 0x12 1) 4 4, s1 := bits (field bs 0x1C 4) 0 18, s2 := bits (field bs 0x20 4) 0 20
                                  s3 := bits (field bs 4 4) 0 18 }

/-- One more flit of a transit message has arrived: the first one finds the output, or the message is discarded and counted; every
one goes on as it arrives (01 R44, R45; 12 R462, R463, R472). -/
def passFlit (s : State) (n vc : Nat) (first last : Bool) (bs : List Byte) : State :=
  let m := rawMsg vc bs
  let s := if first then match s.route m false with
      | some (p, order) =>
        drainPort (s.updLink p fun l => { l with queue := l.queue ++
          [{ src := n + 1, idx := 0, msg := { m with order }, closed := last, owed := true }] }) p
      | none => giveCredit (dropOn s (s.dropPort m.dest m.order) 1) n vc 1
    else match s.passing n vc with
      | some p => drainPort (s.updLink p fun l => l.extend n vc bs last) p
      | none => giveCredit s n vc 1
  if last then checkTransit s n bs else s

/-- The bytes of the flits that have arrived on a VC, in order. -/
def LinkSt.parts (l : LinkSt) (vc : Nat) : List Byte := tabGet (fun _ => []) l.rxParts vc

/-- A transit message cut off at its input is completed on its output with zero flits (12 R477) (in part DEDUCED, log entry 34). -/
def finishPart (s : State) (n vc : Nat) (bs : List Byte) : State :=
  match s.passing n vc with
  | some p => drainPort (s.updLink p fun l => l.extend n vc (slice bs 0 (64 * max (bs.length / 64) (field bs 8 2))) true) p
  | none => s

/-- What stands elsewhere of an input's messages holds its credits no longer: the link begins anew. -/
def disown (s : State) (n : Nat) : State :=
  let s := (List.range 8).foldl (fun s p => s.updLink p fun l =>
    { l with queue := mapIf (fun x => x.src == n + 1) (fun x => { x with owed := false }) l.queue }) s
  let inbox := mapIf (fun x => x.from_.any fun y => y.1 == n) (fun x => { x with from_ := none }) s.net.inbox
  { s with net := { s.net with inbox } }

/-- The messages that an input was receiving end here: those in transit are completed, and its credits are forgotten (12 R477). -/
def cutInput (s : State) (n : Nat) : State :=
  let parts := (s.link n).rxParts
  let s := disown s n
  let s := parts.foldl (fun s (vc, bs) => if bs.isEmpty then s else finishPart s n vc bs) s
  s.updLink n fun l => { l with rxParts := [] }

/-! ### DOWN and RETRAIN (12 R473, R476-R478) -/

/-- What a port loses when it goes down: its replay buffer and the messages queued for it (in part DEDUCED, log entry 34). -/
def LinkSt.fall (l : LinkSt) : LinkSt :=
  let lost := l.queue.length + (l.kept.filter (·.last)).length
  { l with
    dropped := (l.dropped + lost) % 2 ^ 64, kept := [], queue := [], rxParts := [], width := 0, good := 0, goodTrain := 0
    backoffUntil := none, nackSent := false, replayCounts := [], replayTimes := [], replayWait := none, pendNack := none
    peerValid := false, seqNext := 0, rxSeq := 0, ackSeq := 0, credUsed := [0, 0, 0, 0], credBack := [0, 0, 0, 0]
    credGiven := [0, 0, 0, 0], sent := none, again := [], line := [], slots := 0 }

/-- A port stops carrying: a transit message on its way in is completed, what it holds is discarded, and the package is
told (12 R469, R477). -/
def fallPort (s : State) (n : Nat) (st : PortState) : State :=
  let s := cutInput s n
  let old := s.link n
  let s := creditsBack (s.setLink n { old.fall with state := st }) old old.fall
  refreshPhase (tellState s n false)

/-- A port goes DOWN for a cause: 1 TRAIN_FAIL, 2 MISWIRED, 3 RETRAIN_FAIL. -/
def goDown (s : State) (n cause : Nat) : State :=
  fallPort (linkRecord (s.updLink n fun l => { l with downCause := cause }) n 2 cause) n .down

/-- A port enters RETRAIN; `trigger` is none when the owner asks for it, and the full width is then tried again
(in part DEDUCED, log entry 33). -/
def enterRetrain (s : State) (n : Nat) (trigger : Option Nat) : State :=
  let s := match trigger with
    | some t => linkRecord s n 3 t
    | none => s
  s.updLink n fun l =>
    let l := { l with
      state := .retrain, goodTrain := 0, attempts := 0, attemptAt := s.now, backoffUntil := none, fromRetrain := true
      retrains := satAdd 255 l.retrains 1, replayCounts := [], replayTimes := [], replayWait := none, pendNack := none
      again := [], line := [], slots := 0
      cap := if trigger.isNone then 4 else if l.state == PortState.up then min l.cap (max 1 l.width) else l.cap }
    { l with sent := some (trainFlit l) }

/-- UP, BASIC: the states in which a trigger of R476 counts. -/
def LinkSt.live (l : LinkSt) : Bool := l.state == .up || l.state == .basic

/-- A port becomes UP with its width; below 4 it is DEGRADED (12 R475; 02 R95) (in part DEDUCED, log entry 33). -/
def portUp (s : State) (n : Nat) : State :=
  let l := s.link n
  let w := l.fitWidth
  let s := s.updLink n fun l => { l with state := .up, width := w, attempts := 0, degraded := l.degraded || decide (w < 4) }
  refreshPhase (if w < 4 then linkRecord s n 1 l.good else s)

/-- Calibration of every ready lane group is complete (12 R473). -/
def LinkSt.calibrated (l : LinkSt) : Bool := l.ready != 0 && maskOff l.ready l.good == 0 && l.fitWidth != 0

/-! ### Attach (12 R474) -/

/-- The peer stands where the port's place says. -/
def State.wired (s : State) (n : Nat) (t : TrainFlit) : Bool :=
  if n < 4 then neighbour s.me n == some t.die && t.port == opposite n else !samePackage s.me t.die

/-- The kept flits that go again after attach: from the NACK that met the retrain, else from ACK_SEQ + 1 (12 R476, R478). -/
def LinkSt.resend (l : LinkSt) : List KeptFlit :=
  match l.pendNack with
  | some seq => if l.kept.any fun k => k.seq == seq then l.kept.dropWhile fun k => k.seq != seq else l.kept
  | none => l.kept

/-- The checks of attach, and what follows when they pass: the identity, the peer, BASIC, and on a port that had a peer since it was
last DOWN the kept flits again (in part DEDUCED, log entry 33). -/
def attach (s : State) (n : Nat) (t : TrainFlit) : State :=
  if !s.wired n t then goDown (s.updLink n fun l => { l with peerDie := t.die }) n 2
  else
    let s := quarantineDie s t.die t.idCheck
    let was := s.link n
    let changed := was.peerValid && !(was.peerDie == t.die && was.peerId == t.idCheck)
    let s := if changed then cutInput s n else s
    let s := s.updLink n fun l =>
      let l := if changed then { l with kept := [], seqNext := 0, rxSeq := 0, ackSeq := 0, credUsed := [0, 0, 0, 0]
                                        credBack := [0, 0, 0, 0], credGiven := [0, 0, 0, 0], peerChanged := true, rxParts := [] } else l
      { l with
        peerDie := t.die, peerPort := t.port, peerValid := true, peerId := t.idCheck, goodTrain := 0, attemptAt := s.now
        state := .basic, width := 1, lastGood := s.now, again := l.resend, pendNack := none, nackSent := false, sent := none }
    let s := if changed then linkRecord s n 4 0 else s
    let s := if (s.link n).calibrated then portUp s n else s
    let s := linkRecord s n 0 0
    let s := if n < 4 && !s.mapUp s.me n then tellState s n true else s
    drainPort s n

/-- A TRAIN flit (12 R473): counted while an attempt runs; attach follows once both sides have 8 (in part DEDUCED, log entry 33). -/
def takeTrain (s : State) (n : Nat) (t : TrainFlit) : State :=
  let l := s.link n
  if (l.state == .train || l.state == .attach || l.state == .retrain) && l.backoffUntil.isNone then
    let s := s.updLink n fun l =>
      let l := { l with goodTrain := min 255 (l.goodTrain + 1) }
      { l with sent := some (trainFlit l) }
    if 8 ≤ (s.link n).goodTrain && 8 ≤ t.count then
      attach (s.updLink n fun l => { l with state := if l.state == .retrain then .retrain else .attach }) n t
    else s
  else s

/-! ### Acknowledgement and replay (12 R464-R467) -/

/-- Kept flits that an ACK_SEQ does not cover; all of them when it names none. -/
def uncovered (ks : List KeptFlit) (ack : Nat) : List KeptFlit :=
  match ks.findIdx? fun k => k.seq == ack with
  | some i => ks.drop (i + 1)
  | none => ks

/-- An acknowledgement. -/
def LinkSt.acked (l : LinkSt) (ack : Nat) : LinkSt :=
  if l.kept.any fun k => k.seq == ack then
    let ks := uncovered l.kept ack
    { l with
      ackSeq := ack, kept := ks, replayCounts := l.replayCounts.filter fun r => ks.any fun k => k.seq == r.1
      again := l.again.filter fun k => ks.any fun y => y.seq == k.seq }
  else l

/-- The cumulative credits that a STATUS carries, each a 16-bit count that wraps. -/
def creditsNow (old : List Nat) (c : List (BitVec 16)) : List Nat :=
  (List.range 4).map fun vc =>
    let o := (old[vc]?).getD 0
    ((c.drop vc).head?.map fun x => o + (x.toNat + 65536 - o % 65536) % 65536).getD o

/-- Replays of a SEQ so far. -/
def LinkSt.replaysOf (l : LinkSt) (seq : Nat) : Nat := ((l.replayCounts.find? fun r => r.1 == seq).map (·.2)).getD 0

/-- Replay from a SEQ: every kept flit from it on goes again in order; counted, and too many of one SEQ or in one millisecond put the
port into RETRAIN, where the SEQ stands as the resend point (12 R466, R476, R478). -/
def replayFrom (s : State) (n seq : Nat) : State :=
  let s := s.updLink n fun l =>
    let times := (l.replayTimes.filter fun t => s.now < t + 1000000) ++ [s.now]
    { l with
      replays := (l.replays + 1) % 2 ^ 64, replayWait := none, replayTimes := times
      again := l.kept.dropWhile fun k => k.seq != seq
      replayCounts := (l.replayCounts.filter fun r => r.1 != seq) ++ [(seq, l.replaysOf seq + 1)] }
  let l := s.link n
  let retrain (t : Nat) : State := (enterRetrain s n (some t)).updLink n fun l => { l with pendNack := some seq }
  if 8 ≤ l.replaysOf seq then retrain 0
  else if 64 < l.replayTimes.length then retrain 1
  else drainPort s n

/-- A NACK with the cumulative credits it carries (12 R465, R466, R478): a second replay of a SEQ waits for a drawn time. -/
def takeNack (s : State) (n ack seq : Nat) (c : List (BitVec 16)) : State :=
  let l := s.link n
  if l.live then
    let s := s.updLink n fun l => { l.acked ack with credBack := creditsNow l.credBack c, lastGood := s.now }
    let l := s.link n
    if !(l.kept.any fun k => k.seq == seq) then drainPort s n
    else if l.replaysOf seq = 0 then replayFrom s n seq
    else
      let (s, x) := timingDraw s (1 + at_ n 4)
      s.updLink n fun l => { l with replayWait := some (seq, s.now + x.x0.toNat % 64 * 4) }
  else if l.state == .retrain && l.attemptAt == s.now && l.kept.any (fun k => k.seq == seq) then
    s.updLink n fun l => { l with pendNack := some seq }
  else s

/-- A STATUS (12 R465). -/
def takeStatus (s : State) (n ack : Nat) (c : List (BitVec 16)) : State :=
  if (s.link n).live then
    drainPort (s.updLink n fun l => { l.acked ack with credBack := creditsNow l.credBack c, lastGood := s.now }) n
  else s

/-- Send a NACK for the SEQ expected next; it takes a flit slot, behind a STATUS that is due (12 R463, R465) (in part DEDUCED, log entry
34). -/
def sendNack (s : State) (n : Nat) : State :=
  s.updLink n fun l =>
    let l := if 63 ≤ l.slots then l.sendStatus n else l
    { l with
      nackSent := true, slots := l.slots + 1, dataRun := l.runAfter n
      sent := some { kind := 1, ack := l.lastSeq, nack := l.rxSeq, credits := l.credGiven.map (· % 65536), width := l.width } }

/-- Accept a sequenced flit: one of a transit message goes on, the last one of another message hands it over (12 R460, R462, R464)
(in part DEDUCED, log entry 34). -/
def acceptFlit (s : State) (n vc : Nat) (last : Bool) (data : List Byte) : State :=
  let old := (s.link n).parts vc
  let bs := old ++ data
  let s := s.updLink n fun l => { l with
    rxSeq := (l.rxSeq + 1) % 4096, nackSent := false, rxParts := tabSet (fun _ => []) l.rxParts vc (if last then [] else bs) }
  if s.transits bs then passFlit s n vc old.isEmpty last bs else if last then takeMessage s n vc bs else s

/-- A link flit on a lane group (12 R465): a TRAIN flit counts on the lowest ready one (R473). -/
def takeLinkFlit (s : State) (n lane : Nat) (data : List Byte) : State :=
  let f := field data
  match f 0 1 with
  | 0 => takeStatus s n (bits (f 2 2) 0 12) ((List.range 4).map fun i => BitVec.ofNat 16 (f (8 + 2 * i) 2))
  | 1 => takeNack s n (bits (f 2 2) 0 12) (bits (f 4 2) 0 12) ((List.range 4).map fun i => BitVec.ofNat 16 (f (8 + 2 * i) 2))
  | 2 => if !((s.link n).lowest.contains lane) then s else
    takeTrain s n { port := f 1 1, die := bits (f 4 4) 0 18, idCheck := BitVec.ofNat 64 (f 8 8), ready := f 0x10 1, width := f 0x11 1
                    count := f 0x12 1 }
  | _ => s

/-- A flit arrives on a lane group (12 R459, R464, R480): one whose CRC fails is discarded and counted; in sequence it is accepted, ahead of it the
first one makes a NACK (in part DEDUCED, log entry 34). -/
def takeFlit (s : State) (n lane : Nat) (sb : Nat) (data : List Byte) : State :=
  let l := s.link n
  let good := crc16 (data ++ leBytes 2 (sb % 65536)) == bits sb 16 16
  if !good then
    let s := s.updLink n fun l => { l with
      crcErrors := (l.crcErrors + 1) % 2 ^ 64, goodTrain := if l.lowest.contains lane then 0 else l.goodTrain }
    if l.live then sendNack s n else s
  else
    let s := s.updLink n fun l => { l with lastGood := s.now }
    if bit sb 2 then takeLinkFlit s n lane data
    else if !l.live then s
    else
      let seq := bits sb 4 12
      if seq == l.rxSeq then acceptFlit s n (bits sb 0 2) (bit sb 3) data
      else if (seq + 4096 - l.rxSeq) % 4096 < 2048 && !l.nackSent then sendNack s n
      else s

/-! ### LINK_CTRL (12 R475, R478, R487) -/

/-- A write of LINK_CTRL: EN 0 takes the port to DISABLED at once; RETRAIN retrains an UP, BASIC or DOWN port
(in part DEDUCED, log entry 33). -/
def writeLinkCtrl (s : State) (n : Nat) (d : W64) : Option State :=
  let v := d.toNat
  let en := bit v 0
  if bits v 2 2 == 3 then none
  else
    let s := s.updLink n fun l => { l with en, maxWidth := bits v 2 2 }
    if !en then some (if (s.link n).state == .disabled then s else fallPort s n .disabled)
    else
      let s := wakePort s n
      let st := (s.link n).state
      some (if !bit v 1 then s
        else if st == .up || st == .basic then enterRetrain s n none
        else if st == .down then enterTrain s n else s)

/-- LINK_CTRL (12 R487). -/
def LinkSt.ctrl (l : LinkSt) : Nat := b1 l.en + at_ l.maxWidth 2

/-- RETRAIN (12 R475). -/
def execRetrain (m : Mgmt) (n : Fin 8) (s : State) : Host.Outcome State Fault Refusal :=
  finish s (mgmtWrite s m fun s => writeLinkCtrl s n (BitVec.ofNat 64 ((s.link n).ctrl + 2)))

/-- LINK_EN_WRITE (12 R478). -/
def execLinkEnWrite (m : Mgmt) (n : Fin 8) (d : W64) (s : State) : Host.Outcome State Fault Refusal :=
  finish s (mgmtWrite s m fun s => writeLinkCtrl s n d)

/-! ### Events of a port -/

/-- The PHY shows its ready lane groups (12 R473, R480). -/
def showReady (s : State) (n mask : Nat) : State := wakePort (s.updLink n fun l => { l with ready := mask }) n

/-- PHY_READY (12 R473). -/
def execPhyReady (n : Fin 8) (mask : Fin 16) (s : State) : Host.Outcome State Fault Refusal :=
  finishPlain s (showReady s n mask)

/-- TRAIN (12 R473). -/
def execTrain (n : Fin 8) (t : TrainFlit) (s : State) : Host.Outcome State Fault Refusal :=
  checked t.wf "TRAIN" <|
    finishPlain s (takeTrain s n t)

/-- The bound of an attempt in ns (12 R473). -/
def attemptBound (n : Nat) (st : PortState) : Nat :=
  let train := if n < 4 then 200000 else 2000000
  let att := if n < 4 then 10000 else 100000
  if st == .retrain then train + att else if st == .attach then att
  else if st == .basic then (if n < 4 then 5000000 else 20000000) else train

/-- An attempt has overrun its bound, calibration in BASIC included (12 R473): the next one waits, and the eighth takes the port down.
It begins in the state from which the attempts are made, and what was sent in BASIC stays kept (in part DESIGN CHOICE, log entry
33). -/
def failAttempt (s : State) (n : Nat) : State :=
  let l := s.link n
  if (l.state == .train || l.state == .attach || l.state == .retrain || l.state == .basic) && l.backoffUntil.isNone &&
      l.attemptAt + attemptBound n l.state ≤ s.now then
    let s := s.updLink n fun l => { l with
      attempts := l.attempts + 1, goodTrain := 0, again := [], line := [], slots := 0
      state := if l.state == .retrain || (l.state == .basic && l.fromRetrain) then .retrain else .train }
    if 8 ≤ l.attempts + 1 then goDown s n (if l.fromRetrain then 3 else 1)
    else
      let (s, x) := timingDraw s (1 + at_ n 4)
      s.updLink n fun l => { l with backoffUntil := some (s.now + 10000 * (1 + x.x0.toNat % 64)) }
  else s

/-- TRAIN_ATTEMPT_FAIL (12 R473). -/
def execTrainAttemptFail (n : Fin 8) (s : State) : Host.Outcome State Fault Refusal := finishPlain s (failAttempt s n)

/-- The next attempt begins once its wait is over (12 R473). -/
def nextAttempt (s : State) (n : Nat) : State :=
  match (s.link n).backoffUntil with
  | some t => if t ≤ s.now then s.updLink n fun l => { l with backoffUntil := none, attemptAt := s.now, goodTrain := 0 } else s
  | none => s

/-- TRAIN_BACKOFF (12 R473). -/
def execTrainBackoff (n : Fin 8) (s : State) : Host.Outcome State Fault Refusal := finishPlain s (nextAttempt s n)

/-- Lane groups have been calibrated; once every ready one is, the port is UP (12 R473, R475) (in part DEDUCED, log entry 33). -/
def calibrate (s : State) (n good : Nat) : State :=
  if (s.link n).state == .basic then
    let s := s.updLink n fun l => { l with good := good &&& l.ready }
    if (s.link n).fitWidth != 0 then portUp s n else s
  else s

/-- CALIBRATION_COMPLETE (12 R473). -/
def execCalibrationComplete (n : Fin 8) (good : Fin 16) (s : State) : Host.Outcome State Fault Refusal :=
  finishPlain s (calibrate s n good)

/-- The PHY reports lane groups lost (12 R476). -/
def losePhy (s : State) (n mask : Nat) : State :=
  let s := s.updLink n fun l => { l with ready := maskOff l.ready mask, good := maskOff l.good mask }
  if mask != 0 && (s.link n).live then enterRetrain s n (some 3) else s

/-- PHY_LOST (12 R476). -/
def execPhyLost (n : Fin 8) (mask : Fin 16) (s : State) : Host.Outcome State Fault Refusal :=
  finishPlain s (losePhy s n mask)

/-- No good flit for 10 µs on a package port, 100 µs on a system port (12 R476). -/
def silence (s : State) (n : Nat) : State :=
  let l := s.link n
  if l.live && l.lastGood + (if n < 4 then 10000 else 100000) ≤ s.now then enterRetrain s n (some 2) else s

/-- LINK_SILENCE (12 R476). -/
def execLinkSilence (n : Fin 8) (s : State) : Host.Outcome State Fault Refusal := finishPlain s (silence s n)

/-- FLIT (12 R464). -/
def execFlit (n : RxLane) (sideband : BitVec 32) (data : List Byte) (s : State) : Host.Outcome State Fault Refusal :=
  checked (flitWf data) "FLIT" <|
    finishPlain s (takeFlit s n.port n.lane sideband.toNat data)

/-- NACK (12 R466). -/
def execNack (n : Fin 8) (ackSeq nackSeq : Fin 4096) (s : State) : Host.Outcome State Fault Refusal :=
  finishPlain s (takeNack s n ackSeq nackSeq [])

/-- REPLAY_BACKOFF (12 R466): the drawn wait is over. -/
def execReplayBackoff (n : Fin 8) (s : State) : Host.Outcome State Fault Refusal :=
  finishPlain s (match (s.link n).replayWait with
    | some (seq, t) =>
      if t ≤ s.now && (s.link n).live then
        (if (s.link n).kept.any fun k => k.seq == seq then replayFrom s n seq
          else s.updLink n fun l => { l with replayWait := none })
      else s
    | none => s)

/-- STATUS (12 R465). -/
def execStatus (n : Fin 8) (ackSeq : Fin 4096) (credits : List (BitVec 16)) (width : Nat) (s : State) :
    Host.Outcome State Fault Refusal :=
  checked (statusWf credits width) "STATUS" <|
    finishPlain s (takeStatus s n ackSeq credits)

/-- STATUS_SEND (12 R465): in RETRAIN a port sends nothing and withholds its credits. -/
def execStatusSend (n : Fin 8) (s : State) : Host.Outcome State Fault Refusal :=
  finishPlain s (if (s.link n).live then s.updLink n (fun l => l.sendStatus n) else s)

/-- LINK_STATE (12 R469). -/
def execLinkState (n : Fin 8) (src port : Nat) (up : Bool) (nonce : Nat) (s : State) : Host.Outcome State Fault Refusal :=
  checked (linkStateWf src port nonce) "LINK_STATE" <|
    finishPlain s (recvLinkState s n src port up nonce 0)

end Sys2Proof.Machine
end

