-- ==== Sys2Proof/Machine/Keeper.lean ====
section
/-! DEFINITION. The keeper (02 R61, R62, R66-R78, R84-R95; 13 R498-R508): elections, leases and freezes, the member table,
the image loader's commands, resets and bring-up. -/

namespace Sys2Proof.Machine

/-! ### Elections (02 R85, R86) -/

/-- A read of KEEPER_CLAIM: the fields as they stand after the claim that the read makes (13 R504) (in part DEDUCED, log entry 12). -/
def readClaim (s : State) (m : Mgmt) : State :=
  if !s.mgmt.portReady then respond s m respError 0
  else if s.isFrozen m.agent then respond s m respFrozen 0
  else
    let t := claim s m.agent
    respond t m respOk (BitVec.ofNat 64 t.keeperState)

/-- KEEPER_CLAIM (02 R85). -/
def execKeeperClaim (m : Mgmt) (s : State) : Host.Outcome State Fault Refusal := finish s (readClaim s m)

/-- The claimants that are not frozen, lowest first. -/
def State.freeClaimants (s : State) : List Nat :=
  (List.range 8).filter fun a => s.keeper.claimants.contains a && !s.isFrozen a

/-- The claim window closes after 1 µs (02 R85). -/
def closeClaim (s : State) : State :=
  if s.keeper.ownership == .contest && s.keeper.claimAt + 1000 ≤ s.now then
    match s.freeClaimants with
    | a :: _ => ownBy s a
    | [] => unown s
  else s

/-- CLAIM_WINDOW_CLOSE (02 R85). -/
def execClaimWindowClose (s : State) : Host.Outcome State Fault Refusal := finishPlain s (closeClaim s)

/-- KEEPER_LEASE (02 R85). -/
def execKeeperLease (m : Mgmt) (d : W64) (s : State) : Host.Outcome State Fault Refusal :=
  finish s (mgmtWrite s m fun s => some (writeLease s d))

/-- The length of a lease in ns: 10 ms, or 8 to 12 ms before the tally input is valid (02 R85, R86)
(in part DESIGN CHOICE, log entry 5). -/
def State.leaseLength (s : State) : Nat :=
  if s.tally.everLocked then 10000000 else 8000000 + (Config.lapseSpread s.keeper.leaseAt).toNat % 4000001

/-- The lease lapses (02 R85). -/
def lapseLease (s : State) : State :=
  if s.keeper.hasOwner && s.keeper.leaseAt + s.leaseLength ≤ s.now then unown s else s

/-- LEASE_LAPSE (02 R85). -/
def execLeaseLapse (s : State) : Host.Outcome State Fault Refusal := finishPlain s (lapseLease s)

/-- KEEPER_HANDOVER (13 R504). -/
def execKeeperHandover (m : Mgmt) (d : W64) (s : State) : Host.Outcome State Fault Refusal :=
  finish s (mgmtWrite s m fun s => writeHandover s m.agent d)

/-- The acceptance window closes after 1 ms (02 R85). -/
def closeHandover (s : State) : State :=
  if s.keeper.ownership == .handover && s.keeper.handoverAt + 1000000 ≤ s.now then
    s.updKeeper fun k => { k with ownership := .owned }
  else s

/-- HANDOVER_WINDOW_CLOSE (02 R85). -/
def execHandoverWindowClose (s : State) : Host.Outcome State Fault Refusal := finishPlain s (closeHandover s)

/-- KEEPER_FREEZE (13 R505). -/
def execKeeperFreeze (m : Mgmt) (d : W64) (s : State) : Host.Outcome State Fault Refusal :=
  finish s (mgmtWrite s m fun s => some (writeFreeze s d))

/-- KEEPER_THAW (13 R505). -/
def execKeeperThaw (m : Mgmt) (d : W64) (s : State) : Host.Outcome State Fault Refusal :=
  finish s (mgmtWrite s m fun s => some (writeThaw s d))

/-! ### The member table (02 R61, R62, R78, R93; 13 R502) -/

/-- The states in which DIE_ADDR and ID_CHECK accept writes (02 R62). -/
def openState (st : Nat) : Bool := st == stVacant || st == stQuarantine || st == stEvicted

/-- The transitions that an owner's write may make; keeping the state is none (02 R78). -/
def ownerMay (old new : Nat) : Bool :=
  old == new || (openState old && new == stAdmit) || (old == stAdmit && new == stVacant) ||
    (old == stActive && new == stEvict) || (old == stEvict && new == stActive)

/-- Whether another entry of the same group and stage has a die address. -/
def State.dieTaken (s : State) (g i : Nat) (m : Member) (die : Nat) : Bool :=
  (s.groupEntries g).any fun x => x.1 != i && x.2.stage == m.stage && x.2.dieAddr == die

/-- A write of word 0 of a member entry. The own position has a copy of its entry for every enabled stage; a new DIE_ADDR is held to
the level of the STAGE of the copy that is written (02 R62) (DESIGN CHOICE, log entry 12). -/
def writeMember0 (s : State) (g i : Nat) (d : W64) : Option State :=
  let m := s.member i
  let die := bits d.toNat 0 18
  let st := bits d.toNat 21 3
  let moves := die != m.dieAddr
  if !ownerMay m.state st || (moves && (!openState m.state || !differOnlyIn (s.gr g).stageMask m.stage die s.me ||
      s.dieTaken g i m die)) then none
  else
    let afterQ := st == stAdmit && (m.state == stQuarantine || (m.state == stAdmit && m.afterQ))
    some (refreshQuarantine (s.setEntry g i { m with dieAddr := die, state := st, afterQ }))

/-- A write of a word of a member entry (13 R502). -/
def writeMember (s : State) (i w : Nat) (d : W64) : Option State :=
  match s.groupOf i with
  | none => none
  | some g =>
    if w = 0 then writeMember0 s g i d
    else if openState (s.member i).state then some (s.setEntry g i { s.member i with idCheck := d }) else none

/-- MEMBER_ENTRY_WRITE (13 R502). -/
def execMemberEntryWrite (m : Mgmt) (i : Fin 131072) (w : Fin 2) (d : W64) (s : State) : Host.Outcome State Fault Refusal :=
  finish s (mgmtWrite s m fun s => writeMember s i w d)

/-! ### The image loader (02 R66-R73; 13 R507) -/

/-- LOAD (02 R67, R68): any staged image goes, the length is checked, and the header is asked for. -/
def loadImage (s : State) : Option State :=
  let im := s.img
  if im.loader == .loading || im.swapping.isSome then none
  else
    let id := im.fetchId + 1
    let s := s.updImg fun i => { i with
      loader := .loading, staged := none, hashMismatch := false, unparked := false, deferrals := 0, refusal := 0
      section_ := 0, index := 0, bytes := [], headerDone := false, fetchId := id }
    some (if lengthBad im.len then refuseImage s refLength 0 0
      else enqueueRead s 256 im.base 64 siphonOf fun k => .image id k)

/-- DISCARD by the loader's state (13 R507). -/
def discardImage (s : State) : Option State :=
  let im := s.img
  if im.swapping.isSome then none
  else
    let s := if im.loader == .loading then dropImage s else s
    some (s.updImg fun i => { i with
      loader := .idle, staged := none, hashMismatch := false, unparked := false, deferrals := 0, bytes := [], headerDone := false })

/-- START (02 R73; 11 R432): step mark 0 with the staged image; an UNFIT engine starts none (in part DEDUCED, log entry 31). R95 gives
only the order: a START before the built-in self-test has ended is accepted, and the test of that reset then never runs (DESIGN CHOICE,
log entry 31). -/
def startStaged (s : State) : Option State :=
  match s.img.active, s.img.staged with
  | none, some im => if s.img.loader == .staged && !s.warden.unfit then some (startImage s im) else none
  | _, _ => none

/-- A write of IMAGE_CTRL (13 R506, R507): more than one bit is a reserved encoding (in part DEDUCED, log entry 14). -/
def writeImageCtrl (s : State) (d : W64) : Option State :=
  match bits d.toNat 0 3 with
  | 0 => some s
  | 1 => loadImage s
  | 2 => discardImage s
  | 4 => startStaged s
  | _ => none

/-- LOAD (02 R67). -/
def execLoad (m : Mgmt) (s : State) : Host.Outcome State Fault Refusal := finish s (mgmtWrite s m loadImage)

/-- DISCARD (13 R507). -/
def execDiscard (m : Mgmt) (s : State) : Host.Outcome State Fault Refusal := finish s (mgmtWrite s m discardImage)

/-- START (02 R73). -/
def execStart (m : Mgmt) (s : State) : Host.Outcome State Fault Refusal := finish s (mgmtWrite s m startStaged)

/-- The state of this engine's own entry of each group, while an image is active. -/
def State.ownStates (s : State) : Option (Nat → Nat) :=
  if s.img.active.isSome then some fun g => ((s.ownEntry g).map (·.state)).getD stVacant else none

/-- The checks of an image whose fetch is complete (02 R68): staged, or refused by the first that fails. -/
def checkFetched (s : State) : State :=
  let im := s.img
  if im.loader == .loading && im.headerDone && s.imageXfers.isEmpty then
    match checkImage (bytesOf im.len im.bytes) im.len s.me s.ownStates with
    | (some e, _) => refuseImage s e.code e.sec e.idx
    | (none, new) => s.updImg fun i => { i with loader := .staged, staged := some new, bytes := [], headerDone := false }
  else s

/-- IMAGE_CHECK (02 R68). -/
def execImageCheck (s : State) : Host.Outcome State Fault Refusal := finishPlain s (checkFetched s)

/-! ### Resets and bring-up (02 R90, R94, R95; 13 R498) -/

/-- Every register at its reset value: a warm reset keeps the identity and the fault log (02 R94). The inputs keep the levels
that the surroundings hold (in part DEDUCED, log entry 7). -/
def warmReset (s : State) : State :=
  { State.reset with
    pending := s.pending, now := s.now, fresh := s.fresh
    mgmt := { s.mgmt with portReady := false, releasedAt := s.now, selfTestDone := false }
    keeper := { idFail := s.keeper.idFail, quarantine := s.keeper.idFail }
    warden := { log := s.warden.log, seq := s.warden.seq, drawGrant := s.warden.drawGrant, tjAt := s.now, vengAt := s.now
                autoAt := s.now } }

/-- A write of GLOBAL_CTRL (13 R498): it is answered with OK, and the reset follows. -/
def writeGlobalCtrl (s : State) (m : Mgmt) (d : W64) : State :=
  ownerWrite s m fun s => respond (if bit d.toNat 0 then warmReset s else restartLease s) m respOk 0

/-- WARM_RESET (13 R498). -/
def execWarmReset (m : Mgmt) (s : State) : Host.Outcome State Fault Refusal := finish s (writeGlobalCtrl s m 1)

/-- RESET_N is low (02 R94) (in part DEDUCED, log entry 7). -/
def coldReset (s : State) : State :=
  { State.reset with
    pending := s.pending, now := s.now, fresh := s.fresh, mgmt := { dieAddr := s.mgmt.dieAddr }
    warden := { drawGrant := s.warden.drawGrant, tjAt := s.now, vengAt := s.now, autoAt := s.now } }

/-- COLD_RESET (02 R94). -/
def execColdReset (s : State) : Host.Outcome State Fault Refusal := finish s (coldReset s)

/-- Release of the reset input: the keeper and the warden start (02 R95) (in part DEDUCED, log entry 7). -/
def releaseReset (s : State) (die : Nat) : State :=
  if s.mgmt.released then s
  else
    let s := s.updWarden fun w => { w with tjAt := s.now, vengAt := s.now, autoAt := s.now }
    { s with mgmt := { s.mgmt with released := true, releasedAt := s.now, dieAddr := die } }

/-- RESET_RELEASE (02 R95). -/
def execResetRelease (dieAddr : BitVec 18) (s : State) : Host.Outcome State Fault Refusal :=
  finish s (releaseReset s dieAddr.toNat)

/-- The identity on which two successive derivations agree (02 R90) (in part DEDUCED, log entry 35). -/
def agreed (r1 r2 r3 : BitVec 128) : Option (BitVec 128) :=
  if r1 = r2 then some r2 else if r2 = r3 then some r3 else none

/-- The identity is derived once after a cold reset; a derivation that fails leaves its record (02 R90; 11 R415) (in part DEDUCED, log
entry 35). -/
def deriveIdentity (s : State) (r1 r2 r3 : BitVec 128) : State :=
  if !s.mgmt.released || s.mgmt.idDerived || s.keeper.idFail then s
  else match agreed r1 r2 r3 with
    | some id =>
      { s with mgmt := { s.mgmt with idLo := id.setWidth 64, idHi := (id >>> 64).setWidth 64, idDerived := true } }
    | none =>
      makeRecord (s.updKeeper fun k => { k with idFail := true, quarantine := true })
        { type := 0x16, unit := 0x800, operation := 0xFF, group := 0xFFFF, count := 0xFFFFFFFF, s0 := 3 }

/-- IDENTITY_DERIVATION (02 R90). -/
def execIdentityDerivation (r1 r2 r3 : BitVec 128) (s : State) : Host.Outcome State Fault Refusal :=
  finish s (deriveIdentity s r1 r2 r3)

/-- The management port begins to accept accesses 200 µs after release, once the identity is settled (02 R95; 12 R483)
(in part DEDUCED, log entry 35). -/
def readyPort (s : State) : State :=
  if s.mgmt.released && (s.mgmt.idDerived || s.keeper.idFail) && s.mgmt.releasedAt + 200000 ≤ s.now then
    { s with mgmt := { s.mgmt with portReady := true } }
  else s

/-- MANAGEMENT_PORT_READY (02 R95). -/
def execManagementPortReady (s : State) : Host.Outcome State Fault Refusal := finish s (readyPort s)

end Sys2Proof.Machine
end

