-- ==== Sys2Proof/Machine/RegMap.lean ====
section
/-! DEFINITION. The management window (13 R490, R491): every register at its offset. An offset that names none is reserved. -/

namespace Sys2Proof.Machine

/-- The registers of the window, in address order, with the number of the unit and the word. -/
inductive Reg where
  | engineInfo | globalCtrl | idLo | idHi | idCheck | engineAddr
  | siphonStatus (i : Nat) | splitActive | cacheCtrl | cacheHits | cacheMisses | winBase (n : Nat) | winLimit (n : Nat)
  | streamNotify | pausedMap (j : Nat)
  | tallyNow | tallyStatus | tallyLate | cadenceStatus | detStatus
  | twinCtrl | twinStart | twinStatus | twinDivEntry | twinDivKey | twinDivCheck | twinDivTally
  | queueBase (q : Nat) | queueCfg (q : Nat) | queueCtrl (q : Nat) | queueHead (q : Nat) | queueFetch (q : Nat)
  | queueStatus (q : Nat) | queueHeadWb (q : Nat) | queueMap (q : Nat) | queueGrants (q : Nat)
  | resumeEntry (q : Nat) | resumeAddr (q : Nat) | resumeRpos (q : Nat) | resumeWpos (q : Nat) | resumeTally (q : Nat)
  | resumeCtrl (q : Nat)
  | groupRec (g k : Nat) | groupCtrl (g : Nat) | groupStatus (g : Nat) | groupSlow (g st : Nat) | groupStep (g : Nat)
  | groupFill (g : Nat)
  | member (i w : Nat)
  | syncValue (n : Nat) | syncCfg (n : Nat) | syncLast (n : Nat) | weirCfg (w : Nat) | weir (w : Nat) | waiter (q : Nat)
  | syncStatus | syncRefusal | syncCheck | dumpAddr | dumpCtrl | dumpStatus | hostMirror | syncLend | groupGen (g : Nat)
  | refineRow (r k : Nat) | sched (s k : Nat) | refineStatus | refineUpdates | refineSkipped
  | refineEta (g : Nat) | refineBc (g : Nat) | refineSkew (g : Nat)
  | numFormats | numBlock | rngSeed | satTotal | flushTotal | nonfinite | testKey | testLo | testHi | testOutLo | testOutHi
  | amax (q : Nat)
  | integStatus | crcErrors | residueErrors | railErrors | repairs | recallLog | recallProd | recallCons | recallNotify
  | guardActive (g : Nat) | settle (g : Nat) | replayAddr (g : Nat) | digestLatch (g : Nat)
  | wardenStatus | wardenPolicy | vengCtrl | vengStatus | surgeCtrl | surgeStatus | ledgerAddr | ledgerRestore | ledgerCheck
  | testCtrl | testStatus | testAuto | faultRing | faultProd | faultCons | faultNotify | fenceStatus | laneLo | laneHi
  | pace (d : Nat) | faultLog (n k : Nat)
  | keeperState | keeperClaim | keeperLease | keeperHandover | keeperFreeze | keeperThaw | freezeCause
  | imageBase | imageLen | imageCtrl | imageStatus | activeHash | stagedHash
  | linkCtrl (n : Nat) | linkStatus (n : Nat) | linkPeer (n : Nat) | linkPeerId (n : Nat) | linkReplays (n : Nat)
  | linkCrc (n : Nat) | linkDropped (n : Nat) | fabricCtrl | fabricStatus (i : Nat) | linkMap (j : Nat)
  deriving DecidableEq, Repr

/-- Identity and global control, streaming, tally, twins: 0x000_0000. -/
def globalReg (o : Nat) : Option Reg :=
  match o with
  | 0x000 => some .engineInfo
  | 0x008 => some .globalCtrl
  | 0x010 => some .idLo
  | 0x018 => some .idHi
  | 0x020 => some .idCheck
  | 0x028 => some .engineAddr
  | 0x440 => some .splitActive
  | 0x448 => some .cacheCtrl
  | 0x450 => some .cacheHits
  | 0x458 => some .cacheMisses
  | 0x500 => some .streamNotify
  | 0x600 => some .tallyNow
  | 0x608 => some .tallyStatus
  | 0x610 => some .tallyLate
  | 0x618 => some .cadenceStatus
  | 0x620 => some .detStatus
  | 0x700 => some .twinCtrl
  | 0x708 => some .twinStart
  | 0x710 => some .twinStatus
  | 0x718 => some .twinDivEntry
  | 0x720 => some .twinDivKey
  | 0x728 => some .twinDivCheck
  | 0x730 => some .twinDivTally
  | _ =>
    if 0x400 ≤ o ∧ o < 0x440 then some (.siphonStatus ((o - 0x400) / 8))
    else if 0x480 ≤ o ∧ o < 0x500 then
      some (if o % 16 = 0 then .winBase ((o - 0x480) / 16) else .winLimit ((o - 0x480) / 16))
    else if 0x508 ≤ o ∧ o < 0x528 then some (.pausedMap ((o - 0x508) / 8))
    else none

/-- Queues: 0x010_0000. -/
def queueReg (o : Nat) : Option Reg :=
  let q := o / 0x100
  if 256 ≤ q then none
  else match o % 0x100 with
    | 0x00 => some (.queueBase q)
    | 0x08 => some (.queueCfg q)
    | 0x10 => some (.queueCtrl q)
    | 0x18 => some (.queueHead q)
    | 0x20 => some (.queueFetch q)
    | 0x28 => some (.queueStatus q)
    | 0x30 => some (.queueHeadWb q)
    | 0x38 => some (.queueMap q)
    | 0x40 => some (.queueGrants q)
    | 0x80 => some (.resumeEntry q)
    | 0x88 => some (.resumeAddr q)
    | 0x90 => some (.resumeRpos q)
    | 0x98 => some (.resumeWpos q)
    | 0xA0 => some (.resumeTally q)
    | 0xA8 => some (.resumeCtrl q)
    | _ => none

/-- Group table and group control: 0x020_0000. -/
def groupReg (o : Nat) : Option Reg :=
  if o < 0x40000 then some (.groupRec (o / 0x40) (o % 0x40 / 8))
  else if 0x100000 ≤ o ∧ o < 0x140000 then
    let g := (o - 0x100000) / 0x40
    match o % 0x40 with
    | 0x00 => some (.groupCtrl g)
    | 0x08 => some (.groupStatus g)
    | 0x30 => some (.groupStep g)
    | 0x38 => some (.groupFill g)
    | k => some (.groupSlow g ((k - 0x10) / 8 + 1))
  else none

/-- The member table: 0x040_0000. -/
def memberReg (o : Nat) : Option Reg := if o < 0x200000 then some (.member (o / 16) (o % 16 / 8)) else none

/-- Sync objects: 0x080_0000. -/
def syncReg (o : Nat) : Option Reg :=
  if o < 0x20000 then
    match o % 0x20 with
    | 0x00 => some (.syncValue (o / 0x20))
    | 0x08 => some (.syncCfg (o / 0x20))
    | 0x10 => some (.syncLast (o / 0x20))
    | _ => none
  else if o < 0x20400 then
    let w := (o - 0x20000) / 0x10
    some (if o % 0x10 = 0 then .weirCfg w else .weir w)
  else if 0x21000 ≤ o ∧ o < 0x21800 then some (.waiter ((o - 0x21000) / 8))
  else if 0x40000 ≤ o ∧ o < 0x48000 then some (.groupGen ((o - 0x40000) / 8))
  else match o with
    | 0x30000 => some .syncStatus
    | 0x30008 => some .syncRefusal
    | 0x30010 => some .syncCheck
    | 0x30018 => some .dumpAddr
    | 0x30020 => some .dumpCtrl
    | 0x30028 => some .dumpStatus
    | 0x30030 => some .hostMirror
    | 0x30038 => some .syncLend
    | _ => none

/-- Refiner: 0x0A0_0000. -/
def refinerReg (o : Nat) : Option Reg :=
  if o < 0x1000 then some (.refineRow (o / 0x40) (o % 0x40 / 8))
  else if o < 0x1800 then some (.sched ((o - 0x1000) / 0x20) (o % 0x20 / 8))
  else if 0x2000 ≤ o ∧ o < 0x22000 then
    let g := (o - 0x2000) / 0x20
    match o % 0x20 with
    | 0x00 => some (.refineEta g)
    | 0x08 => some (.refineBc g)
    | 0x10 => some (.refineSkew g)
    | _ => none
  else match o with
    | 0x1800 => some .refineStatus
    | 0x1808 => some .refineUpdates
    | 0x1810 => some .refineSkipped
    | _ => none

/-- Numerics: 0x0B0_0000. -/
def numericReg (o : Nat) : Option Reg :=
  match o with
  | 0x00 => some .numFormats
  | 0x08 => some .numBlock
  | 0x10 => some .rngSeed
  | 0x18 => some .satTotal
  | 0x20 => some .flushTotal
  | 0x28 => some .nonfinite
  | 0x40 => some .testKey
  | 0x48 => some .testLo
  | 0x50 => some .testHi
  | 0x58 => some .testOutLo
  | 0x60 => some .testOutHi
  | _ => if 0x1000 ≤ o ∧ o < 0x1800 then some (.amax ((o - 0x1000) / 8)) else none

/-- Integrity: 0x0C0_0000. -/
def integrityReg (o : Nat) : Option Reg :=
  if 0x10000 ≤ o ∧ o < 0x30000 then
    let g := (o - 0x10000) / 0x20
    match o % 0x20 with
    | 0x00 => some (.guardActive g)
    | 0x08 => some (.settle g)
    | 0x10 => some (.replayAddr g)
    | _ => some (.digestLatch g)
  else match o with
    | 0x00 => some .integStatus
    | 0x08 => some .crcErrors
    | 0x10 => some .residueErrors
    | 0x18 => some .railErrors
    | 0x20 => some .repairs
    | 0x28 => some .recallLog
    | 0x30 => some .recallProd
    | 0x38 => some .recallCons
    | 0x40 => some .recallNotify
    | _ => none

/-- Warden: 0x0D0_0000. -/
def wardenReg (o : Nat) : Option Reg :=
  if 0x1000 ≤ o ∧ o < 0x5000 then some (.faultLog ((o - 0x1000) / 0x40) (o % 0x40 / 8))
  else if 0x100 ≤ o ∧ o < 0x1C8 then some (.pace ((o - 0x100) / 8))
  else match o with
    | 0x00 => some .wardenStatus
    | 0x08 => some .wardenPolicy
    | 0x10 => some .vengCtrl
    | 0x18 => some .vengStatus
    | 0x20 => some .surgeCtrl
    | 0x28 => some .surgeStatus
    | 0x30 => some .ledgerAddr
    | 0x38 => some .ledgerRestore
    | 0x40 => some .ledgerCheck
    | 0x48 => some .testCtrl
    | 0x50 => some .testStatus
    | 0x58 => some .testAuto
    | 0x60 => some .faultRing
    | 0x68 => some .faultProd
    | 0x70 => some .faultCons
    | 0x78 => some .faultNotify
    | 0x80 => some .fenceStatus
    | 0x88 => some .laneLo
    | 0x90 => some .laneHi
    | _ => none

/-- Keeper and image loader: 0x0E0_0000. -/
def keeperReg (o : Nat) : Option Reg :=
  match o with
  | 0x000 => some .keeperState
  | 0x008 => some .keeperClaim
  | 0x010 => some .keeperLease
  | 0x018 => some .keeperHandover
  | 0x020 => some .keeperFreeze
  | 0x028 => some .keeperThaw
  | 0x030 => some .freezeCause
  | 0x100 => some .imageBase
  | 0x108 => some .imageLen
  | 0x110 => some .imageCtrl
  | 0x118 => some .imageStatus
  | 0x120 => some .activeHash
  | 0x128 => some .stagedHash
  | _ => none

/-- Link and fabric ports: 0x0F0_0000. -/
def portReg (o : Nat) : Option Reg :=
  if o < 0x800 then
    let n := o / 0x100
    match o % 0x100 with
    | 0x00 => some (.linkCtrl n)
    | 0x08 => some (.linkStatus n)
    | 0x10 => some (.linkPeer n)
    | 0x18 => some (.linkPeerId n)
    | 0x20 => some (.linkReplays n)
    | 0x28 => some (.linkCrc n)
    | 0x30 => some (.linkDropped n)
    | _ => none
  else if o = 0x1000 then some .fabricCtrl
  else if 0x1008 ≤ o ∧ o < 0x1048 then some (.fabricStatus ((o - 0x1008) / 8))
  else if 0x1100 ≤ o ∧ o < 0x1120 then some (.linkMap ((o - 0x1100) / 8))
  else none

/-- The register at a byte offset of the window (13 R490); none where the offset is reserved (R491). -/
def regAt (o : Nat) : Option Reg :=
  match o / 0x100000 with
  | 0x0 => globalReg o
  | 0x1 => queueReg (o % 0x100000)
  | 0x2 => groupReg (o - 0x200000)
  | 0x3 => groupReg (o - 0x200000)
  | 0x4 => memberReg (o - 0x400000)
  | 0x5 => memberReg (o - 0x400000)
  | 0x8 => syncReg (o - 0x800000)
  | 0xA => refinerReg (o - 0xA00000)
  | 0xB => numericReg (o - 0xB00000)
  | 0xC => integrityReg (o - 0xC00000)
  | 0xD => wardenReg (o - 0xD00000)
  | 0xE => keeperReg (o - 0xE00000)
  | 0xF => portReg (o - 0xF00000)
  | _ => none

/-- The byte offset of a request: the port carries bits [23:3] of it (12 R482). -/
def byteOffset (off : BitVec 21) : Nat := 8 * off.toNat

end Sys2Proof.Machine
end

