-- ==== Sys2Proof/Machine/Time.lean ====
section
/-! DEFINITION. The tally, cadence and the twin pair (09 R347-R351, R358, R359, R365-R371): the tally's advance, lock and loss,
alignment, pairing, comparison and its ends. -/

namespace Sys2Proof.Machine

/-! ### The tally (09 R347-R350) -/

/-- The interface becomes locked at a count. -/
def TallySt.locks (t : TallySt) (count : Nat) : TallySt :=
  { t with tally := count, lock := true, holdover := false, everLocked := true, behind := none, lockedAt := count }

/-- One nanosecond of the tally: it advances while locked or in holdover, and holds while its input is behind
(in part DESIGN CHOICE, log entry 1). -/
def TallySt.advance (t : TallySt) : TallySt :=
  match t.behind with
  | some b => if t.tally < b + 1 then t.locks (b + 1) else { t with behind := some (b + 1) }
  | none => if t.lock || t.holdover then { t with tally := t.tally + 1 } else t

/-- 1,024 consistent samples have been seen, the last of value `input` (09 R348, R349): an input ahead takes the tally
forward, one behind is a backward sample and is waited for (in part DEDUCED, log entry 29). -/
def TallySt.relock (t : TallySt) (input : Nat) : TallySt :=
  if t.lock then t
  else if t.everLocked && input < t.tally then { t with holdover := false, behind := some input, backward := true }
  else t.locks input

/-- A lock that has just come is one of the conditions of full service (02 R95, R99). -/
def afterLock (was s : State) : State := if s.tally.lock && !was.tally.lock then refreshPhase s else s

/-- TALLY_LOCK (09 R348). -/
def execTallyLock (input : W64) (s : State) : Host.Outcome State Fault Refusal :=
  finishPlain s (afterLock s (s.updTally fun t => t.relock input.toNat))

/-- Whether a loss ends something: the lock, or the wait for an input that lies behind (in part DEDUCED, log entry 29). -/
def TallySt.loses (t : TallySt) (below : Bool) : Bool := t.lock || (t.behind.isSome && !below)

/-- A loss of lock (09 R349, R359). An input that is waited for can be lost as well, but not for lying below the tally; a backward
sample is noted in any case (in part DEDUCED, log entry 29). -/
def TallySt.lose (t : TallySt) (below : Bool) : TallySt :=
  if t.loses below then
    { t with
      lock := false, holdover := true, behind := none, lost := true, losses := satAdd 255 t.losses 1, backward := t.backward || below
      aligned := false, brk := t.brk || t.aligned, breaks := if t.aligned then satAdd 255 t.breaks 1 else t.breaks }
  else { t with backward := t.backward || (below && t.everLocked) }

/-- A loss and its fault record, with LOSSES and BACKWARD as they stand after it (09 R349; 11 R415) (in part DEDUCED, log entry 29). -/
def loseTally (s : State) (below : Bool) : State :=
  let t := s.tally.lose below
  let u := s.updTally fun _ => t
  if s.tally.loses below then
    makeRecord u { type := 0x13, unit := 0x704, operation := 0xFF, group := 0xFFFF, count := 0xFFFFFFFF
                   s0 := t.losses, s1 := b1 t.backward }
  else u

/-- TALLY_LOSS (09 R349). -/
def execTallyLoss (kind : TallyLossKind) (s : State) : Host.Outcome State Fault Refusal :=
  finishPlain s (loseTally s (kind == .below))

/-! ### Cadence lock (09 R358, R359) -/

/-- The first multiple of 65,536 that is at least 65,536 counts after a lock. -/
def alignPoint (locked : Nat) : Nat := (locked + 65536 + 65535) / 65536 * 65536

/-- The next alignment point: the first after the lock, and the first multiple of 65,536 after the commit point of a swap that set or
cleared CADENCE_LOCK (09 R358, R359) (in part DEDUCED, log entry 29). -/
def TallySt.alignAt (t : TallySt) : Nat := max (alignPoint t.lockedAt) ((t.cadenceAt / 65536 + 1) * 65536)

/-- Align the crossings once their count has come; a change of CADENCE_LOCK takes effect here (in part DEDUCED, log entry 29). -/
def alignCadence (s : State) : State :=
  let t := s.tally
  let on := s.image.cadence
  if t.lock && t.alignAt ≤ t.tally && (on != t.cadenceOn || (on && !t.aligned)) then
    s.updTally fun t => { t with cadenceOn := on, aligned := on, c0 := if on then t.alignAt else t.c0 }
  else s

/-- CADENCE_ALIGN (09 R358). -/
def execCadenceAlign (s : State) : Host.Outcome State Fault Refusal := finishPlain s (alignCadence s)

/-! ### Pairing (09 R365, R371) -/

/-- The pair forms: comparison begins with nothing unmatched. -/
def TwinSt.pair (x : TwinSt) (now : Nat) : TwinSt :=
  { x with paired := true, own := [], theirs := [], held := false, lastAt := now }

/-- The pair ends: comparison stops and the hold is released. -/
def TwinSt.part (x : TwinSt) : TwinSt := { x with paired := false, own := [], theirs := [], held := false }

/-- A write of TWIN_CTRL (09 R365, R374): while PAIRED only a write that clears EN is accepted, and it ends the pair on both
engines; a request goes to the partner, and the pair forms if the partner has asked (in part DEDUCED, log entry 30). -/
def writeTwinCtrl (s : State) (d : W64) : Option State :=
  let v := d.toNat
  let en := bit v 0
  let old := s.twin
  let partner := bits v 16 18
  if partner = s.me || (old.paired && en) then none
  else
    let s := if old.en && (!en || partner != old.partner) then sendTo s old.partner (.twinPair false) else s
    let s := s.updTwin fun x => { (if x.paired then x.part else x) with
      en, haltOnDiverge := bit v 1, queue := bits v 8 8, partner, rngGroup := bits v 36 12 }
    if !en then some s
    else
      let s := sendTo s partner (.twinPair true)
      some (if s.twin.peers.contains partner then s.updTwin fun x => x.pair s.now else s)

/-- A write of TWIN_START (09 R365, R374). -/
def writeTwinStart (s : State) (d : W64) : Option State :=
  if s.twin.paired then none else some (s.updTwin fun x => { x with start := bits d.toNat 0 32 })

/-- TWIN_CTRL_WRITE (09 R365). -/
def execTwinCtrlWrite (m : Mgmt) (d : W64) (s : State) : Host.Outcome State Fault Refusal :=
  finish s (mgmtWrite s m fun s => writeTwinCtrl s d)

/-- A pairing message arrives (09 R365) (in part DEDUCED, log entry 30). -/
def recvTwinPair (s : State) (src : Nat) (en : Bool) : State :=
  s.updTwin fun x =>
    if en then
      let x := { x with peers := addTo src x.peers }
      if x.en && !x.paired && x.partner == src then x.pair s.now else x
    else
      let x := { x with peers := x.peers.erase src }
      if x.paired && x.partner == src then x.part else x

/-- TWIN_PAIR (09 R365). -/
def execTwinPair (src : Nat) (en : Bool) (s : State) : Host.Outcome State Fault Refusal :=
  checked (fits 18 src) "TWIN_PAIR" <|
    finishPlain s (recvTwinPair (takeIn s src (.twinPair en)) src en)

/-! ### Comparison (09 R369-R371) -/

/-- Check records of the partner arrive (09 R369). -/
def recvTwinRecords (s : State) (src : Nat) (rs : List TwinRec) : State :=
  if s.twin.paired && s.twin.partner == src then
    rs.foldl twinTheirs (s.updTwin fun x => { x with lastAt := s.now })
  else s

/-- TWIN_RECORD (09 R369). -/
def execTwinRecord (src : Nat) (rs : List TwinRec) (s : State) : Host.Outcome State Fault Refusal :=
  checked (twinRecordWf src rs) "TWIN_RECORD" <|
    finishPlain s (recvTwinRecords (takeIn s src (.twinRecord rs)) src rs)

/-- The step counter of the twinned queue's group; 0 for a queue without one (in part DEDUCED, log entry 30). -/
def State.twinStep (s : State) : Nat :=
  let m := (s.queue s.twin.queue).map
  if m.comm then (s.group m.group).step else 0

/-- Latch the lowest mismatch, 1 ms after the first or once the backlog is empty (09 R370) (in part DEDUCED, log entry 30). -/
def latchTwin (s : State) : State :=
  let x := s.twin
  let due := match x.mismatchAt with
    | some t => x.own.isEmpty || decide (t + 1000000 ≤ s.now)
    | none => false
  match x.best with
  | some (k, own, theirs) =>
    if due && !x.latched then
      s.updTwin fun x => { x with
        latched := true, best := none, divEntry := k.k, divStep := s.twinStep, divKey := k, divOwn := own
        divPartner := theirs, divTally := s.stamp }
    else s
  | none => s

/-- TWIN_DIVERGE_LATCH (09 R370). -/
def execTwinDivergeLatch (s : State) : Host.Outcome State Fault Refusal := finishPlain s (latchTwin s)

/-- The partner has been silent for 10 ms while records wait (09 R371) (in part DEDUCED, log entry 30). -/
def loseTwin (s : State) : State :=
  let x := s.twin
  if x.paired && !x.own.isEmpty && x.lastAt + 10000000 ≤ s.now then
    s.updTwin fun x => { x.part with alone := true, peers := x.peers.erase x.partner }
  else s

/-- TWIN_ALONE (09 R371). -/
def execTwinAlone (s : State) : Host.Outcome State Fault Refusal := finishPlain s (loseTwin s)

/-- Clearing DIVERGED releases the latched record (09 R370, R374) (in part DEDUCED, log entry 30). -/
def TwinSt.clearDiverged (x : TwinSt) : TwinSt :=
  { x with diverged := false, latched := false, mismatchAt := none, best := none, divEntry := 0, divStep := 0
           divKey := ⟨0, 0, 0, 0, 0, 0⟩, divOwn := 0, divPartner := 0, divTally := 0 }

end Sys2Proof.Machine
end

