-- ==== Sys2Proof/Machine/RegRead.lean ====
section
/-! DEFINITION. What every register reads (13 R491-R508 and the field tables it names), and what an owner's read clears
(00 R11; 13 R492). -/

namespace Sys2Proof.Machine

/-- A set of numbers as bits. -/
def bitSet (xs : List Nat) : Nat := (xs.eraseDups.map fun i => at_ 1 i).sum

/-- A 64-bit word of two halves. -/
def halves (lo hi : Nat) : Nat := lo % 2 ^ 32 + at_ (hi % 2 ^ 32) 32

/-! ### Identity, streaming, tally, twins -/

/-- SIPHON_STATUS (04 R176), lost tags among those held; SHARED_FREE reads its reset value until an image is active (00 R18)
(in part DEDUCED, log entry 14). -/
def State.siphonStatus (s : State) (i : Nat) : Nat :=
  let p := s.siphon i
  let ofClass (c : Nat) : Nat := ((p.out ++ p.lost).filter fun y => y.2.cls == c).length
  p.busyTags.length + at_ (ofClass 0) 10 + at_ (ofClass 1) 20 + at_ (ofClass 2) 30 +
    at_ (if s.img.active.isSome then s.sharedFree i else 0) 40 + at_ (b1 (p.refusedAt.any fun k => p.shakes < k + 64)) 50

/-- STREAM_PAUSED_MAP (04 R166). -/
def State.pausedMap (s : State) (j : Nat) : Nat :=
  bitSet (s.queues.filterMap fun (q, x) => if x.resume.valid && q / 64 == j then some (q % 64) else none)

/-- TALLY_STATUS (09 R372). -/
def TallySt.status (t : TallySt) : Nat :=
  b1 t.lock + at_ (b1 t.holdover) 1 + at_ (b1 t.everLocked) 2 + at_ (b1 t.lost) 3 + at_ (b1 t.backward) 4 +
    at_ (b1 t.lateSeen) 5 + at_ t.losses 8

/-- TALLY_LATE (09 R372). -/
def TallySt.late (t : TallySt) : Nat := t.lateQueue + at_ t.lateBy 8 + at_ t.lates 40

/-- CADENCE_STATUS (09 R372). -/
def State.cadenceStatus (s : State) : Nat :=
  b1 s.image.cadence + at_ (b1 s.tally.aligned) 1 + at_ (b1 s.tally.brk) 2 + at_ s.tally.breaks 8 +
    at_ (s.tally.c0 / 65536) 16

/-- DET_STATUS (09 R373). -/
def State.detStatus (s : State) : Nat := b1 s.image.seeded + at_ (b1 s.image.forbidV) 1 + at_ s.tally.vEntries 32

/-- TWIN_CTRL (09 R374). -/
def TwinSt.ctrl (x : TwinSt) : Nat :=
  b1 x.en + at_ (b1 x.haltOnDiverge) 1 + at_ x.queue 8 + at_ x.partner 16 + at_ x.rngGroup 36

/-- TWIN_STATUS (09 R374). -/
def TwinSt.status (x : TwinSt) : Nat :=
  b1 x.paired + at_ (b1 x.diverged) 1 + at_ (b1 x.alone) 2 + at_ (b1 x.held) 3 + at_ (min 8192 x.own.length) 16 +
    at_ x.compared 32

/-- TWIN_DIV_KEY (09 R374). -/
def divKeyReg (k : TwinKey) : Nat :=
  k.chunk + at_ k.parcel 18 + at_ k.stage 38 + at_ k.phase 41 + at_ k.round 44

/-! ### Queues -/

/-- QUEUE_CFG (03 R135). -/
def QueueSt.cfg (x : QueueSt) : Nat := x.log2 + at_ x.wake 8 + at_ (b1 x.wakeEn) 16 + at_ x.poll 20

/-- QUEUE_MAP (03 R138); a queue without COMM reads GROUP 0xFFF. -/
def QueueRec.reg (r : QueueRec) : Nat :=
  r.weight + at_ r.burst 8 + at_ r.agent 16 + at_ (b1 r.comm) 19 + at_ (if r.comm then r.group else 0xFFF) 20 +
    at_ r.tagReserve 32

/-- RESUME_ENTRY (04 R181). -/
def ResumeRec.reg (r : ResumeRec) : Nat :=
  r.entry + at_ (b1 r.valid) 32 + at_ (b1 r.write) 33 + at_ (b1 r.multi) 34 + at_ (min 31 r.paused) 35 + at_ r.faults 40 +
    at_ r.siphon 48

/-! ### Groups and members -/

/-- A word of a group record (13 R501). -/
def GroupRec.word (r : GroupRec) (k : Nat) : Nat :=
  match k with
  | 0 => r.group + at_ (b1 r.valid) 16 + at_ (b1 r.keepStep) 17 + at_ (b1 r.flow) 18 + at_ r.stageMask 19 +
      at_ (b1 r.autoEvict) 23 + at_ r.memberBase 32
  | 1 => r.peers1 + at_ r.peers2 16 + at_ r.peers3 32 + at_ r.peers4 48
  | 2 => halves r.memberCount r.minMembers
  | 3 => r.maxMembers + at_ r.pumpMask 32 + at_ r.partition 48 + at_ r.refinerRow 56
  | 4 => r.schedule + at_ r.guardSet 8 + at_ r.queue 16 + at_ r.replayPlace 24 + at_ r.stepInit 32
  | 5 => r.footprint
  | 6 => halves r.replayBytes r.timeoutUs
  | _ => halves r.lagKib r.roster

/-- GROUP_STATUS (05 R225). -/
def GroupSt.status (x : GroupSt) : Nat :=
  b1 x.halted + at_ x.haltCause 1 + at_ (b1 x.rebalance) 5 + at_ (b1 x.memberDisagree) 6 + at_ (b1 x.lag) 7 +
    at_ (b1 x.stepSkew) 8 + at_ (b1 x.full) 9 + at_ x.lagDie 16 + at_ x.lagStage 34

/-- GROUP_SLOW (05 R226). -/
def SlowReg.reg (x : SlowReg) : Nat := x.die + at_ x.wait 18 + at_ x.rep 34 + at_ x.missing 42

/-- A word of a member entry (02 R61). -/
def Member.word (m : Member) (w : Nat) : Nat :=
  if w = 0 then m.dieAddr + at_ m.stage 18 + at_ m.state 21 + at_ m.rank 24 else m.idCheck.toNat

/-! ### Sync unit -/

/-- SYNC_CFG (08 R340). -/
def Counter.cfg (x : Counter) (n : Nat) : Nat :=
  x.bind + at_ (b1 x.bound) 12 + at_ (b1 x.check) 13 + at_ (b1 x.mirror) 14 + at_ (wakeWire n x) 16 + at_ x.rest 32

/-- SYNC_WEIR_CFG (08 R342). -/
def Weir.cfg (w : Weir) : Nat := b1 w.engine + at_ (b1 w.bound) 1 + at_ w.group 2

/-- SYNC_STATUS, SYNC_REFUSAL, SYNC_CHECK (08 R344). -/
def SyncSt.status (y : SyncSt) : Nat :=
  b1 y.satSeen + at_ (b1 y.underSeen) 1 + at_ (b1 y.weirMisuse) 2 + at_ (b1 y.refused) 3 + at_ y.held.length 16
def SyncSt.refusal (y : SyncSt) : Nat :=
  y.refCounter + at_ y.refKind 12 + at_ y.refDie 16 + at_ y.refSource 34 + at_ y.refReason 42
def SyncSt.check (y : SyncSt) : Nat :=
  y.chkGroup + at_ y.chkObject 12 + at_ (b1 y.chkWire) 24 + at_ (b1 y.chkValid) 25 + at_ y.chkDiffs 32

/-- SYNC_DUMP_STATUS (08 R345). -/
def SyncSt.dumpStatus (y : SyncSt) : Nat :=
  b1 y.dumpFull + at_ (b1 y.dumpBusy) 1 + at_ (b1 y.dumpFailed) 2 + at_ y.dumpMissed 8

/-- SYNC_LEND (08 R346). -/
def SyncSt.lend (y : SyncSt) : Nat := b1 y.lendEn + at_ (b1 y.lent) 1 + at_ y.offer 8 + at_ y.lends 32

/-- SYNC_GROUP_GEN (08 R343). -/
def GroupSt.genReg (x : GroupSt) : Nat := x.gen + at_ (b1 x.genActive) 32 + at_ (b1 x.genMisuse) 33

/-! ### Refiner and numerics -/

/-- A word of a refiner row (07 R302). -/
def RowRec.word (r : RowRec) (k : Nat) : Nat :=
  match k with
  | 0 => halves r.a1 r.a2
  | 1 => halves r.b1 r.b2
  | 2 => halves r.beta1 r.beta2
  | 3 => halves r.eps r.c1
  | 4 => halves r.c2 r.c3
  | 5 => r.stateFmt + at_ (Sys2Proof.Machine.b1 r.blockScaled) 8 + at_ (Sys2Proof.Machine.b1 r.biasCorrect) 9 + at_ (Sys2Proof.Machine.b1 r.embedding) 10 + at_ r.block 16 +
      at_ r.weightFmt 24
  | _ => 0

/-- A word of a schedule (07 R303). -/
def SchedRec.word (r : SchedRec) (k : Nat) : Nat :=
  match k with
  | 0 => halves r.etaPeak r.etaFloor
  | 1 => halves r.warmup r.decay
  | 2 => halves r.horizon r.gamma
  | _ => halves r.period r.restart

/-- A staged word, if one stands. -/
def stagedWord (t : Tab W64) (i : Nat) : Option Nat := (t.find? fun x => x.1 == i).map fun x => x.2.toNat

/-- REFINE_ROW: the value last written; a row that the image does not hold reads as zeros (13). -/
def State.refineRow (s : State) (r k : Nat) : Nat :=
  if s.image.rows.length ≤ r then 0
  else (stagedWord s.refiner.rowsStaged (8 * r + k)).getD ((tabGet (fun _ => {}) s.refiner.rows r).word k)

/-- SCHED: the value last written (00 R11), also of a schedule that the active image does not hold. -/
def State.schedWord (s : State) (i k : Nat) : Nat :=
  (stagedWord s.refiner.schedsStaged (4 * i + k)).getD ((tabGet (fun _ => {}) s.refiner.scheds i).word k)

/-- REFINE_STATUS (07 R304). -/
def RefSt.status (x : RefSt) : Nat := b1 x.rowReject + at_ (b1 x.schedReject) 1 + at_ x.rowNo 8 + at_ x.schedNo 16

/-- REFINE_SKEW (07 R305). -/
def GroupSt.skewReg (x : GroupSt) : Nat := x.skewSeen + at_ x.skewDie 32 + at_ (b1 x.skewValid) 50

/-- The words that R244 computes from the test key and counter (06 R272). -/
def NumSt.testDraw (x : NumSt) : Draw :=
  draw x.testKey (bits x.testLo.toNat 0 32) (bits x.testLo.toNat 32 32) (bits x.testHi.toNat 0 32) (bits x.testHi.toNat 32 32)

/-- AMAX (06 R273). -/
def AmaxRec.reg (a : AmaxRec) : Nat :=
  a.amax + at_ a.cookie 32 + at_ (b1 a.valid) 48 + at_ (b1 a.nan) 49 + at_ (b1 a.inf) 50

/-! ### Integrity -/

/-- INTEG_STATUS (10 R410). -/
def IntegSt.status (i : IntegSt) : Nat :=
  b1 i.crcSeen + at_ (b1 i.residueSeen) 1 + at_ (b1 i.railSeen) 2 + at_ (b1 i.repairFailed) 3 +
    at_ (b1 i.recallRaised) 4 + at_ (b1 i.recallSeen) 5 + at_ (b1 i.digestMismatch) 6

/-- The registers of a record ring (10 R411; 11 R449). -/
def Ring.ctrl (r : Ring) : Nat := b1 r.en + at_ r.log2 1 + r.base
def Ring.prodReg (r : Ring) : Nat := r.prod + at_ r.lost 32
def Ring.notifyReg (r : Ring) : Nat := r.wake + at_ (b1 r.wakeEn) 8

/-- GUARD_ACTIVE (10 R412). -/
def State.guardActive (s : State) (g : Nat) : Nat :=
  if (s.gr g).valid then
    let x := (s.image.guards[(s.gr g).guardSet]?).getD {}
    x.l1 + at_ x.l2 2 + at_ x.l3 4 + at_ x.l4 6 + at_ (s.gr g).guardSet 8 + at_ x.digestD 16
  else 0

/-- Entries of a group started or completed but not settled: those that have completed under flow, and the started ones of its
communication queue, of which a local one is settled with its own part (10 R394, R412). -/
def State.openCount (s : State) (g : Nat) : Nat :=
  (s.group g).openEntries.length +
    (s.started.filter fun o => !o.desc.noGroup && o.desc.group == g && o.ended.isNone &&
      !(o.settled || (!isGroupWide o.desc.opcode && o.ready))).length

/-- SETTLE (10 R412). -/
def State.settleReg (s : State) (g : Nat) : Nat :=
  let x := s.group g
  min 16 (s.openCount g) + at_ x.run 8 + at_ (b1 x.short) 12 + at_ (b1 x.digestValid) 13 + at_ x.digestStep 16

/-! ### Warden -/

/-- WARDEN_STATUS (11 R445). -/
def State.wardenStatus (s : State) : Nat :=
  let w := s.warden
  b1 w.unfit + at_ (b1 w.withdrawn) 1 + at_ (b1 w.cap) 2 + at_ (b1 w.trip) 3 + at_ (b1 s.judging) 4 + at_ (b1 w.newFault) 5 +
    at_ w.suppressed 8 + at_ (temp16 w.temp) 16 + at_ w.vengMv 32

/-- WARDEN_POLICY (11 R445). -/
def WardenSt.policy (w : WardenSt) : Nat :=
  w.transientLimit + at_ w.window 8 + at_ w.paceMax 24 + at_ w.vstepMax 28 + at_ (b1 w.voltageFirst) 30 +
    at_ (b1 w.autoRelief) 31 + at_ (b1 w.autoFence) 32 + at_ (b1 w.autoWithdraw) 33 + at_ w.stuckLimit 40

/-- VENG_STATUS (11 R446). -/
def State.vengStatus (s : State) : Nat :=
  s.vengTarget.1 + at_ s.warden.vengMv 10 + at_ s.warden.vsteps 20 + at_ (b1 s.settledVeng) 22 + at_ s.vengTarget.2 23

/-- SURGE_STATUS.STATE codes (11 R447). -/
def SurgeState.code : SurgeState → Nat
  | .off => 0
  | .ramp => 1
  | .on => 2
  | .disabled => 3

/-- SURGE_STATUS (11 R447). -/
def WardenSt.surgeStatus (w : WardenSt) : Nat :=
  w.surge.code + at_ (b1 w.ledgerValid) 2 + at_ (b1 w.ledgerBad) 3 + at_ (b1 w.spent) 4 + at_ (min 511 w.windowUsed) 5 +
    at_ w.ledgerSec 16

/-- TEST_CTRL (11 R448). -/
def WardenSt.testCtrl (w : WardenSt) : Nat := w.testId + at_ (b1 w.testStress) 16 + at_ (b1 w.testWhole) 17 + at_ w.testGroup 20

/-- TEST_STATUS.STATE codes (11 R448). -/
def TestState.code : TestState → Nat
  | .idle => 0
  | .waiting => 1
  | .running => 2
  | .pass => 3
  | .fail => 4
  | .refused => 5

/-- TEST_STATUS (11 R448). -/
def WardenSt.testStatus (w : WardenSt) : Nat := w.test.code + at_ w.testVerdict 3 + at_ w.failId 8 + at_ w.failUnit 24

/-- FENCE_STATUS (11 R449). -/
def WardenSt.fenceStatus (w : WardenSt) : Nat :=
  bitSet w.fenced + at_ w.lanes.length 24 + at_ (b1 w.spareIn.isSome) 32 + at_ (w.spareIn.getD 0) 33

/-- PACE (11 R450). -/
def State.paceReg (s : State) (d : Nat) : Nat := (s.pace d).level + at_ (s.effectivePace d) 4 + at_ (s.pace d).steps 8

/-! ### Image loader -/

/-- IMAGE_STATUS.LOADER codes (02 R66). -/
def Loader.code : Loader → Nat
  | .idle => 0
  | .loading => 1
  | .staged => 2
  | .refused => 3

/-- IMAGE_STATUS (02 R66). -/
def ImageSt.status (i : ImageSt) : Nat :=
  i.loader.code + at_ (b1 i.hashMismatch) 2 + at_ (b1 i.unparked) 3 + at_ i.refusal 8 + at_ i.section_ 16 +
    at_ i.deferrals 24 + at_ (i.index % 2 ^ 32) 32

/-! ### Ports -/

/-- State codes of a link port (12 R473). -/
def PortState.code : PortState → Nat
  | .disabled => 0
  | .waitPhy => 1
  | .train => 2
  | .attach => 3
  | .basic => 4
  | .up => 5
  | .retrain => 6
  | .down => 7

/-- LINK_STATUS (12 R487). -/
def LinkSt.status (l : LinkSt) : Nat :=
  l.state.code + at_ l.width 3 + at_ l.good 6 + at_ (b1 l.degraded) 10 + at_ (b1 l.peerChanged) 11 + at_ l.downCause 12 +
    at_ l.ackSeq 16 + at_ l.kept.length 28 + at_ l.retrains 40 + at_ l.attempts 48

/-- LINK_PEER (12 R488): zeros while no peer is attached. -/
def LinkSt.peer (l : LinkSt) : Nat := if l.peerValid then l.peerDie + at_ l.peerPort 18 + at_ 1 21 else 0

/-- FABRIC_STATUS (12 R489). -/
def SiphonSt.fabricStatus (p : SiphonSt) : Nat :=
  p.errors + at_ p.faults 16 + at_ p.lost.length 32 + at_ p.stray 42 + at_ p.dropped 50

/-- LINK_MAP (12 R469). -/
def State.linkMap (s : State) (j : Nat) : Nat := bitSet ((List.range 64).filter fun k => s.mapUp (16 * j + k / 4) (k % 4))

/-! ### Every register -/

/-- The value of a register; KEEPER_CLAIM's read has its own operation (in part DEDUCED, log entry 14). -/
def regRead (s : State) : Reg → Nat
  | .engineInfo => 0x0001000447535357
  | .globalCtrl => 0
  | .idLo => s.idLo.toNat
  | .idHi => s.idHi.toNat
  | .idCheck => s.idCheck.toNat
  | .engineAddr => s.me
  | .siphonStatus i => s.siphonStatus i
  | .splitActive => s.image.splitRead + at_ s.image.splitWrite 4 + at_ s.image.splitRemote 8
  | .cacheCtrl => at_ (b1 s.cache.flushing) 1
  | .cacheHits => s.cache.hits
  | .cacheMisses => s.cache.misses
  | .winBase n => b1 (s.window n).en + at_ (b1 (s.window n).stepFlush) 1 + at_ (s.window n).base 12
  | .winLimit n => (s.window n).group + at_ (s.window n).limit 12
  | .streamNotify => s.cache.notifySync + at_ (b1 s.cache.notifyEn) 12
  | .pausedMap j => s.pausedMap j
  | .tallyNow => s.tally.tally
  | .tallyStatus => s.tally.status
  | .tallyLate => s.tally.late
  | .cadenceStatus => s.cadenceStatus
  | .detStatus => s.detStatus
  | .twinCtrl => s.twin.ctrl
  | .twinStart => s.twin.start
  | .twinStatus => s.twin.status
  | .twinDivEntry => s.twin.divEntry + at_ s.twin.divStep 32
  | .twinDivKey => divKeyReg s.twin.divKey
  | .twinDivCheck => halves s.twin.divOwn s.twin.divPartner
  | .twinDivTally => s.twin.divTally
  | .queueBase q => (s.queue q).base
  | .queueCfg q => (s.queue q).cfg
  | .queueCtrl q => b1 (s.queue q).enable
  | .queueHead q => (s.queue q).head
  | .queueFetch q => (s.queue q).fetch
  | .queueStatus q => s.queueStatus q
  | .queueHeadWb q => b1 (s.queue q).wbEn + (s.queue q).wbAddr
  | .queueMap q => if s.img.active.isSome then (s.queue q).map.reg else 0
  | .queueGrants q => (s.queue q).grants
  | .resumeEntry q => (s.queue q).resume.reg
  | .resumeAddr q => (s.queue q).resume.addr
  | .resumeRpos q => (s.queue q).resume.rpos
  | .resumeWpos q => (s.queue q).resume.wpos
  | .resumeTally q => (s.queue q).resume.tally
  | .resumeCtrl _ => 0
  | .groupRec g k => (s.gr g).word k
  | .groupCtrl _ => 0
  | .groupStatus g => (s.group g).status
  | .groupSlow g st => ((s.group g).slowAt st).reg
  | .groupStep g => (s.group g).step
  | .groupFill g => (s.group g).fillStaged.getD (s.group g).fill
  | .member i w => if (s.groupOf i).isSome then (s.member i).word w else 0
  | .syncValue n => valueReg s n
  | .syncCfg n => (s.counter n).cfg n
  | .syncLast n => lastReg (s.counter n)
  | .weirCfg w => (s.weir w).cfg
  | .weir w => weirReg (s.weir w)
  | .waiter q => waiterReg s q
  | .syncStatus => s.sync.status
  | .syncRefusal => s.sync.refusal
  | .syncCheck => s.sync.check
  | .dumpAddr => b1 s.sync.dumpEn + s.sync.dumpAddr
  | .dumpCtrl => 0
  | .dumpStatus => s.sync.dumpStatus
  | .hostMirror => b1 s.sync.mirrorEn + at_ (b1 s.sync.mirrorFailed) 1 + s.sync.mirrorBase
  | .syncLend => s.sync.lend
  | .groupGen g => (s.group g).genReg
  | .refineRow r k => s.refineRow r k
  | .sched i k => s.schedWord i k
  | .refineStatus => s.refiner.status
  | .refineUpdates => s.refiner.updates
  | .refineSkipped => s.refiner.skipped
  | .refineEta g => halves (s.group g).eta (s.group g).etaStep
  | .refineBc g => halves (s.group g).k1 (s.group g).k2
  | .refineSkew g => (s.group g).skewReg
  | .numFormats => s.image.formats.enable + at_ s.image.formats.strict 16 + at_ s.image.formats.round 24
  | .numBlock => s.image.formats.block + at_ s.image.formats.dir 2
  | .rngSeed => (s.num.keyStaged.getD s.num.key).toNat
  | .satTotal => s.num.satTotal
  | .flushTotal => s.num.flushTotal
  | .nonfinite => s.num.nonfinite
  | .testKey => s.num.testKey.toNat
  | .testLo => s.num.testLo.toNat
  | .testHi => s.num.testHi.toNat
  | .testOutLo => halves s.num.testDraw.x0.toNat s.num.testDraw.x1.toNat
  | .testOutHi => halves s.num.testDraw.x2.toNat s.num.testDraw.x3.toNat
  | .amax q => (s.queue q).amax.reg
  | .integStatus => s.integ.status
  | .crcErrors => s.integ.crcErrors
  | .residueErrors => s.integ.residueErrors
  | .railErrors => s.integ.railErrors
  | .repairs => s.integ.repairs
  | .recallLog => s.integ.log.ctrl
  | .recallProd => s.integ.log.prodReg
  | .recallCons => s.integ.log.cons
  | .recallNotify => s.integ.log.notifyReg
  | .guardActive g => s.guardActive g
  | .settle g => s.settleReg g
  | .replayAddr g =>
    let x := s.group g
    match x.replayStaged with
    | some (en, a) => b1 en + a
    | none => b1 x.replayEn + x.replayAddr
  | .digestLatch g => (s.group g).digest.toNat
  | .wardenStatus => s.wardenStatus
  | .wardenPolicy => s.warden.policy
  | .vengCtrl => s.warden.baseMv
  | .vengStatus => s.vengStatus
  | .surgeCtrl => b1 s.warden.request
  | .surgeStatus => s.warden.surgeStatus
  | .ledgerAddr => b1 s.warden.ledgerEn + s.warden.ledgerAddr
  | .ledgerRestore => s.warden.restoreS
  | .ledgerCheck => s.warden.restoreCheck.toNat
  | .testCtrl => s.warden.testCtrl
  | .testStatus => s.warden.testStatus
  | .testAuto => b1 s.warden.testAutoEn + at_ s.warden.testInterval 16
  | .faultRing => s.warden.ring.ctrl
  | .faultProd => s.warden.ring.prodReg
  | .faultCons => s.warden.ring.cons
  | .faultNotify => s.warden.ring.notifyReg
  | .fenceStatus => s.warden.fenceStatus
  | .laneLo => bitSet (s.warden.lanes.filter (· < 64))
  | .laneHi => bitSet ((s.warden.lanes.filter (64 ≤ ·)).map (· - 64))
  | .pace d => s.paceReg d
  | .faultLog n k => field ((tabGet (fun _ => {}) s.warden.log n).bytes) (8 * k) 8
  | .keeperState => s.keeperState
  | .keeperClaim => s.keeperState
  | .keeperLease => s.keeper.leaseValue.toNat
  | .keeperHandover => s.keeper.successor + at_ (b1 (s.keeper.ownership == .handover)) 3
  | .keeperFreeze => s.frozenSet
  | .keeperThaw => 0
  | .freezeCause => s.freezeCauses
  | .imageBase => s.img.base
  | .imageLen => s.img.len
  | .imageCtrl => 0
  | .imageStatus => s.img.status
  | .activeHash => ((s.img.active.map fun (im : Image) => im.hash).getD 0).toNat
  | .stagedHash => s.stagedHash.toNat
  | .linkCtrl n => (s.link n).ctrl
  | .linkStatus n => (s.link n).status
  | .linkPeer n => (s.link n).peer
  | .linkPeerId n => if (s.link n).peerValid then (s.link n).peerId.toNat else 0
  | .linkReplays n => (s.link n).replays
  | .linkCrc n => (s.link n).crcErrors
  | .linkDropped n => (s.link n).dropped
  | .fabricCtrl => s.fabricTimeoutUs
  | .fabricStatus i => (s.siphon i).fabricStatus
  | .linkMap j => s.linkMap j

/-- An owner's read clears the RC fields of a register (00 R11; 13 R492) (in part DEDUCED, log entry 14). -/
def regClear (s : State) : Reg → State
  | .refineUpdates => { s with refiner := { s.refiner with updates := 0 } }
  | .refineSkipped => { s with refiner := { s.refiner with skipped := 0 } }
  | .satTotal => { s with num := { s.num with satTotal := 0 } }
  | .flushTotal => { s with num := { s.num with flushTotal := 0 } }
  | .nonfinite => { s with num := { s.num with nonfinite := 0 } }
  | .crcErrors => s.updInteg fun i => { i with crcErrors := 0 }
  | .residueErrors => s.updInteg fun i => { i with residueErrors := 0 }
  | .railErrors => s.updInteg fun i => { i with railErrors := 0 }
  | .repairs => s.updInteg fun i => { i with repairs := 0 }
  | .linkReplays n => s.updLink n fun l => { l with replays := 0 }
  | .linkCrc n => s.updLink n fun l => { l with crcErrors := 0 }
  | .linkDropped n => s.updLink n fun l => { l with dropped := 0 }
  | .fabricStatus i => s.updSiphon i fun p => { p with errors := 0, faults := 0, stray := 0, dropped := 0 }
  | _ => s

/-- A read of the window: a reserved offset reads 0 (13 R491). -/
def readRegister (s : State) (m : Mgmt) (off : BitVec 21) : State :=
  match regAt (byteOffset off) with
  | none => mgmtRead s m (fun _ => 0) fun s => s
  | some .keeperClaim => readClaim s m
  | some r => mgmtRead s m (fun s => BitVec.ofNat 64 (regRead s r)) fun s => if s.owns m.agent then regClear s r else s

/-- RC_READ (13 R492). -/
def execRcRead (m : Mgmt) (off : BitVec 21) (s : State) : Host.Outcome State Fault Refusal := finish s (readRegister s m off)

end Sys2Proof.Machine
end

