-- ==== Sys2Proof/Machine/Sync.lean ====
section
/-! DEFINITION. The sync unit's commands (08 R306-R346; 12 R458, R484, R485): remote signals, fabric signal requests, owner
writes of objects, wake pulses, host mirrors, barrier wires, landing credits, lending and the owner's dump. -/

namespace Sys2Proof.Machine

/-! ### Remote signals (08 R323-R325) -/

/-- The engine is present in a group: its own entry is ACTIVE or EVICT (08 R308). -/
def State.presentIn (s : State) (g : Nat) : Bool :=
  (s.gr g).valid && (s.ownEntry g).any fun m => m.state == stActive || m.state == stEvict

/-- Why a remote signal is refused (08 R307, R308), as the REASON of R344 (in part DEDUCED, log entry 27). -/
def State.remoteRefusal (s : State) (m : SignalMsg) : Option Nat :=
  let x := s.counter m.counter
  if !s.presentIn m.c.group then some 2
  else if !x.bound || x.bind != m.c.group then some 1 else none

/-- Acknowledge a remote signal; a quarantined or withdrawn engine sends no answer (02 R92; 11 R429). -/
def ackSignal (s : State) (m : SignalMsg) (code : Nat) : State :=
  if s.mayTrade then sendTo s m.src (.ack { src := s.me, c := m.c, code, ref := m.ref }) else s

/-- Apply a remote signal, or refuse it, and acknowledge (08 R323). -/
def applyRemote (s : State) (m : SignalMsg) : State :=
  match s.remoteRefusal m with
  | some r => ackSignal (refuse s m.counter ⟨kindRemote, m.src, 0⟩ r) m 3
  | none =>
    let (s, code) := applySignal s m.counter m.sub m.amount ⟨kindRemote, m.src, 0⟩
    ackSignal s m code

/-- A remote signal may be applied: the group's step is beyond STEP, or every entry of it below N has completed (08 R323). -/
def State.signalDue (s : State) (m : SignalMsg) : Bool :=
  let x := s.group m.c.group
  m.c.step < x.step || (m.c.step == x.step && m.n ≤ x.entryNo &&
    !(s.started.any fun o => isGroupWide o.desc.opcode && !o.desc.noGroup && o.desc.group == m.c.group && o.num < m.n))

/-- The run of a message has ended on this member: an earlier step's run that was not its last, or a run of the present step that is
neither the present one nor the one a resume mark begins (10 R378) (in part DEDUCED, log entry 27). -/
def GroupSt.ranOut (x : GroupSt) (c : Common) : Bool :=
  if c.step < x.step then c.run != ((x.pastRuns.find? fun p => p.1 == c.step).map (·.2)).getD 0
  else c.step == x.step && c.run != x.run && !(x.isNext c)

/-- A remote signal arrives (08 R323-R325): discarded where its run has ended or its group is halted, BUSY when 1,024 are
held, refused, applied or held (in part DEDUCED, log entry 27). One of a group in which the engine is not present is refused also
while 1,024 are held (DESIGN CHOICE, log entry 27). -/
def recvSignal (s : State) (m : SignalMsg) : State :=
  let g := m.c.group
  let x := s.group g
  if !s.mayTrade then s
  else match (if s.presentIn g then none else some 2 : Option Nat) with
    | some _ => applyRemote s m
    | none =>
      if x.halted || x.ranOut m.c then s
      else
        let s := groupStirs s g
        if 1024 ≤ s.sync.held.length then ackSignal s m 4
        else if (s.remoteRefusal m).isSome || s.signalDue m then applyRemote s m
        else s.updSync fun y => { y with held := y.held ++ [Held.mk m s.stamp] }

/-- A held signal comes before another in the order of R312: by sender, then by arrival (in part DEDUCED, log entry 27). -/
def heldBefore (a b : Held × Nat) : Bool := a.1.m.src < b.1.m.src || (a.1.m.src == b.1.m.src && a.2 < b.2)

/-- A held signal that has become applicable, and is the first of its counter, is applied (08 R312, R323, R324)
(in part DEDUCED, log entry 27). -/
def applyHeld (s : State) (i : Nat) : State :=
  match s.sync.held[i]? with
  | none => s
  | some h =>
    let rivals := s.sync.held.zipIdx.filter fun (k, _) => k.m.counter == h.m.counter && s.signalDue k.m
    if s.signalDue h.m && !(rivals.any fun k => heldBefore k (h, i)) then
      applyRemote (s.updSync fun y => { y with held := y.held.eraseIdx i }) h.m
    else s

/-- The started remote SIGNAL that an acknowledgement names. -/
def State.signalOf (s : State) (a : AckMsg) : Option Op :=
  s.ops.find? fun o => o.ended.isNone && !o.desc.noGroup && o.desc.group == a.c.group && bits o.desc.aux64 0 18 == a.src &&
    o.step == a.c.step && o.run == a.c.run && (o.sig.any fun x => x.ref == a.ref)

/-- An acknowledgement arrives (08 R314, R323). -/
def recvAck (s : State) (a : AckMsg) : State :=
  match if s.mayTradeIn a.c.group then s.signalOf a else none with
  | none => s
  | some o =>
    let g := a.c.group
    let s := groupStirs s g
    let done (s : State) : State :=
      s.updOp o.q o.c fun o => { o with sig := none, ready := true, settled := true }
    if a.code == 0 then refreshTimer (done s) g
    else if a.code == 1 || a.code == 2 then refreshTimer (queueError (done s) o.q 0x08 o.c) g
    else if a.code == 3 then refreshTimer (queueError (s.removeOp o.q o.c) o.q 0x08 o.c) g
    else s.updOp o.q o.c fun o => { o with sig := o.sig.map fun x => { x with busyAt := some s.now } }

/-- 1 µs after BUSY the signal goes again (08 R323) (in part DEDUCED, log entry 27). -/
def resendSignal (s : State) (q c : Nat) : State :=
  match s.op? q c with
  | none => s
  | some o =>
    match o.sig with
    | none => s
    | some x =>
      match x.busyAt with
      | none => s
      | some t =>
        if o.ended.isSome || s.now < t + 1000 then s
        else
          let d := o.desc
          let s := s.updOp q c fun o => { o with sig := some { x with busyAt := none } }
          if s.mayTradeIn d.group then
            sendTo s (bits d.aux64 0 18)
              (.signal { src := s.me, c := { commonOf s d.group 0 0 with step := x.step, run := o.run }, counter := d.sync
                         sub := bit d.aux16 0, amount := d.aux32, n := x.n, ref := x.ref })
          else s

/-- REMOTE_SIGNAL (08 R323). -/
def execRemoteSignal (x : SignalMsg) (s : State) : Host.Outcome State Fault Refusal :=
  checked x.wf "REMOTE_SIGNAL" <|
    finishPlain s (recvSignal (takeIn s x.src (.signal x)) x)

/-- HELD_SIGNAL_APPLY (08 R323). -/
def execHeldSignalApply (i : Nat) (s : State) : Host.Outcome State Fault Refusal := finishPlain s (applyHeld s i)

/-- SIGNAL_ACK (08 R323). -/
def execSignalAck (a : AckMsg) (s : State) : Host.Outcome State Fault Refusal :=
  checked a.wf "SIGNAL_ACK" <|
    finishPlain s (recvAck (takeIn s a.src (.ack a)) a)

/-- BUSY_RESEND (08 R323). -/
def execBusyResend (q : Fin 256) (c : Nat) (s : State) : Host.Outcome State Fault Refusal :=
  finishPlain s (resendSignal s q c)

/-! ### Fabric requests (12 R458; 08 R307) -/

/-- A signal request on a fabric port, answered with its tag and code: 0 applied, 1 saturated, 2 underflow, 3 refused
(in part DEDUCED, log entry 27). One of AMOUNT 0 is recorded with REASON 0 (DESIGN CHOICE, log entry 27). -/
def fabricSignal (s : State) (i : Nat) (x : FabricSignal) : State :=
  let kind := if x.origin == 0 then kindDie else if x.origin == 1 then kindHost else kindOther
  let src : ChangeSrc := ⟨kind, s.me, x.requester⟩
  let answer (s : State) (code : Nat) : State :=
    s.updSync fun y => { y with answers := (y.answers.filter fun a => a.1 != i) ++ [(i, x.tag.val, code)] }
  if kind == kindOther || (kind == kindHost && 64 ≤ x.counter.val) || x.amount == 0 then
    answer (refuse s x.counter src 0) 3
  else
    let (s, code) := applySignal s x.counter x.sub x.amount.toNat src
    answer s code

/-- SIGNAL_REQUEST (12 R458). -/
def execSignalRequest (i : Fin 8) (x : FabricSignal) (s : State) : Host.Outcome State Fault Refusal :=
  finishPlain s (fabricSignal s i x)

/-! ### Owner writes of objects (08 R336, R337, R340, R342, R345, R346) -/

/-- SYNC_VALUE_WRITE (08 R336). -/
def execSyncValueWrite (m : Mgmt) (n : Fin 4096) (d : W64) (s : State) : Host.Outcome State Fault Refusal :=
  finish s (mgmtWrite s m fun s => some (setValue s n (bits d.toNat 0 32) m.agent))

/-- A write of SYNC_CFG (08 R308, R316, R340). -/
def writeSyncCfg (s : State) (n : Nat) (d : W64) : Option State :=
  let v := d.toNat
  let x := s.counter n
  if (s.sync.waiters.any fun w => w.counter == n) || (n < 64 && bit v 12) || (64 ≤ n && bit v 14) then none
  else
    some (s.setCounter n { x with
      bind := bits v 0 12, bound := bit v 12, check := bit v 13, mirror := bit v 14, wakeX := (bits v 16 8 + 256 - n % 256) % 256
      rest := bits v 32 32, mirrorDirty := x.mirrorDirty && x.mirror && bit v 14 })

/-- A write of SYNC_WEIR_CFG (08 R328, R342): an engine that begins to take part has not entered (in part DEDUCED, log entry 27). -/
def writeWeirCfg (s : State) (w : Nat) (d : W64) : Option State :=
  let v := d.toNat
  let x := s.weir w
  if x.engine && x.entered then none
  else some (s.setWeir w { x with engine := bit v 0, bound := bit v 1, group := bits v 2 12, input := x.sense })

/-- A generation of a wire completes (08 R326): SENSE inverts and GEN counts (in part DEDUCED, log entry 27). -/
def completeGen (s : State) (w : Nat) : State :=
  let x := s.weir w
  s.setWeir w { x with sense := !x.sense, gen := inc32 x.gen, and_ := false, lastTally := s.stamp }

/-- A write of SYNC_WEIR (08 R337, R342). -/
def writeWeir (s : State) (w : Nat) (d : W64) : State :=
  let s := if bit d.toNat 35 then s.setWeir w { s.weir w with misuse := false } else s
  if bit d.toNat 36 then senseChanged (completeGen s w) w else s

/-- FORCE (08 R337). -/
def execForce (m : Mgmt) (w : Fin 64) (s : State) : Host.Outcome State Fault Refusal :=
  finish s (mgmtWrite s m fun s => some (writeWeir s w 0x1000000000))

/-- BARRIER_AND_RISE (08 R326): AND cannot rise while the engine takes part and has not entered. -/
def execBarrierAndRise (w : Fin 64) (s : State) : Host.Outcome State Fault Refusal :=
  finishPlain s
    (if (s.weir w).entered then senseChanged (completeGen s w) w else s)

/-- A write of SYNC_HOST_MIRROR (08 R316, R346). Nothing is owed for changes made while mirroring was off. -/
def writeHostMirror (s : State) (d : W64) : Option State :=
  let v := d.toNat
  let base := bits v 3 61 * 8
  let en := bit v 0
  if s.sync.mirrorEn && base != s.sync.mirrorBase then none
  else
    let s := if en && !s.sync.mirrorEn then
        (List.range 64).foldl (fun s n => s.setCounter n { s.counter n with mirrorDirty := false }) s else s
    some (s.updSync fun y => { y with mirrorEn := en, mirrorBase := base, mirrorFailed := y.mirrorFailed && !bit v 1 })

/-- A write of SYNC_DUMP_ADDR (08 R345). -/
def writeDumpAddr (s : State) (d : W64) : Option State :=
  if s.sync.dumpBusy then none
  else some (s.updSync fun y => { y with dumpEn := bit d.toNat 0, dumpAddr := bits d.toNat 12 52 * 4096 })

/-- A write of SYNC_DUMP_CTRL (08 R345). -/
def writeDumpCtrl (s : State) (d : W64) : State := if bit d.toNat 0 then (writeDump s 0 0xFFFF).1 else s

/-- DUMP (08 R345). -/
def execDump (m : Mgmt) (s : State) : Host.Outcome State Fault Refusal :=
  finish s (mgmtWrite s m fun s => some (writeDumpCtrl s 1))

/-! ### Wake wires and mirrors (08 R316-R318) -/

/-- WAKE_PULSE (08 R318; 03 R117). -/
def execWakePulse (w : Fin 256) (s : State) : Host.Outcome State Fault Refusal :=
  finishPlain s (wakeQueues (wakeWaiters s w) w)

/-- Write the mirror word of a host counter when it is due (08 R316). -/
def writeMirror (s : State) (n : Nat) : State :=
  let x := s.counter n
  if s.sync.mirrorEn && x.mirror && x.mirrorDirty && x.mirrorAt + 256 ≤ s.now then
    enqueueWrite (s.setCounter n { x with mirrorDirty := false, mirrorAt := s.now }) 1 257 (s.sync.mirrorBase + 8 * n)
      (leBytes 8 (x.value + at_ (b1 x.sat) 32 + at_ (b1 x.under) 33)) siphonOf fun _ => .mirror n
  else s

/-- HOST_MIRROR_WRITE (08 R316). -/
def execHostMirrorWrite (n : Fin 64) (s : State) : Host.Outcome State Fault Refusal := finishPlain s (writeMirror s n)

/-! ### Landing credits (05 R221) -/

/-- A landing credit of the successor lets ROTATE send block `k`. -/
def recvCredit (s : State) (x : CreditMsg) : State :=
  let g := x.c.group
  match s.opNum g x.c.entry with
  | none => s
  | some o =>
    if o.desc.opcode != opRotate || o.ended.isSome || x.c.step != o.step || x.c.run != o.run || !(s.mayTradeIn g) ||
        x.src != s.ringAt g 1 true then s
    else
      stepOp ((groupStirs s g).updOp o.q o.c fun o => { o with rot := { o.rot with credits := max o.rot.credits x.k } }) o.q o.c

/-- LANDING_CREDIT (05 R221). -/
def execLandingCredit (x : CreditMsg) (s : State) : Host.Outcome State Fault Refusal :=
  checked x.wf "LANDING_CREDIT" <|
    finishPlain s (recvCredit (takeIn s x.src (.credit x)) x)

/-! ### Lending power (08 R321, R322; 09 R357; 12 R485) -/

/-- A started operation that leaves the engine quiescent (08 R321) (in part DEDUCED, log entry 28). -/
def State.restsNow (s : State) (o : Op) : Bool :=
  o.pause.isSome ||
    (o.running && o.ended.isNone && !o.ready && (s.entryXfers o.q o.c).isEmpty &&
      ((o.desc.opcode == opWait && s.sync.waiters.any fun w => w.q == o.q && w.c == o.c) ||
        o.desc.opcode == opBarrier || (o.desc.opcode == opRotate && o.pair != .waiting && !o.wants)))

/-- A launch held only by its count comes within 1,500 ns (09 R357) (in part DEDUCED, log entry 28). -/
def State.launchNear (s : State) : Bool :=
  s.queues.any fun (q, x) => s.eligibleBut q && (match x.buffered with
    | b :: _ => b.desc.launchAt && b.desc.launch ≤ s.tally.tally + 1500
    | [] => false)

/-- The engine is quiescent (08 R321; 09 R357) (in part DEDUCED, log entry 28). -/
def State.quiescent (s : State) : Bool :=
  !(s.queues.any fun (q, _) => s.eligible q) && s.started.all s.restsNow && !(s.sync.lendEn && s.launchNear)

/-- LEND_OFFER (08 R321): 2,000 ns of quiescence; surge ends first (11 R441) (in part DEDUCED, log entry 28). -/
def execLendOffer (s : State) : Host.Outcome State Fault Refusal :=
  let y := s.sync
  let due := match y.quietSince with
    | some t => decide (t + 2000 ≤ s.now)
    | none => false
  finishPlain s
    (if y.lendEn && !y.lent && !y.lendValid && due && s.quiescent then
      (endSurge s 2).updSync fun y => { y with lendValid := true, offer := min 40 (fullLoad s.warden.vengMv - 6) }
    else s)

/-- LEND_GRANT (12 R485). -/
def execLendGrant (s : State) : Host.Outcome State Fault Refusal :=
  finishPlain s
    (if s.sync.lendValid && !s.sync.lent then s.updSync fun y => { y with lent := true, lends := inc32 y.lends } else s)

/-- LEND_RECLAIM (08 R322): quiescence has ended; the engine asks for the budget, or withdraws its offer. -/
def execLendReclaim (s : State) : Host.Outcome State Fault Refusal :=
  let y := s.sync
  finishPlain s
    (if y.lendValid && (y.quietSince.isNone || !s.quiescent) then
      s.updSync fun y => { y with lendValid := false, quietSince := none, reclaimAt := if y.lent then some s.now else none }
    else s)

/-- The engine resumes granting entries and sending payload (08 R322). -/
def resumeWork (s : State) : State :=
  advanceAll (sendDue (s.updSync fun y => { y with lent := false, lendValid := false, reclaimAt := none }))

/-- BUDGET_RETURNED (08 R322). -/
def execBudgetReturned (s : State) : Host.Outcome State Fault Refusal :=
  finishPlain s (if s.sync.lent then resumeWork s else s)

/-- RECLAIM_LIMIT (08 R322): 1 µs after the request. -/
def execReclaimLimit (s : State) : Host.Outcome State Fault Refusal :=
  let due := match s.sync.reclaimAt with
    | some t => decide (t + 1000 ≤ s.now)
    | none => false
  finishPlain s (if s.sync.lent && due then resumeWork s else s)

end Sys2Proof.Machine
end

