-- ==== Sys2Proof/Machine/RegWrite.lean ====
section
/-! DEFINITION. What an owner's write does to every register (00 R11-R16; 13 R491-R508): `none` is the error response, and
a register whose fields are all RO accepts the write unchanged. -/

namespace Sys2Proof.Machine

/-! ### Queues (03 R134-R136) -/

/-- QUEUE_BASE, QUEUE_CFG and QUEUE_HEAD_WB accept writes only in DISABLED. -/
def whileDisabled (s : State) (q : Nat) (f : QueueSt → QueueSt) : Option State :=
  if (s.queue q).state == .disabled then some (s.updQueue q f) else none

/-- A write of QUEUE_CFG. -/
def writeQueueCfg (s : State) (q : Nat) (v : Nat) : Option State :=
  let k := bits v 0 5
  if k < 4 || 16 < k || bits v 20 12 == 0 then none
  else whileDisabled s q fun x => { x with log2 := k, wake := bits v 8 8, wakeEn := bit v 16, poll := bits v 20 12 }

/-- A write of QUEUE_HEAD_WB: nothing is owed for what changed while it was off (in part DEDUCED, log entry 15). -/
def writeHeadWb (s : State) (q : Nat) (v : Nat) : Option State :=
  whileDisabled s q fun x => { x with wbEn := bit v 0, wbAddr := bits v 3 61 * 8, wbDirty := x.wbDirty && x.wbEn }

/-! ### Groups (05 R225, R227; 10 R412, R413; 13 R494) -/

/-- A write of GROUP_STATUS clears its W1C bits. -/
def writeGroupStatus (s : State) (g : Nat) (v : Nat) : State :=
  s.updGroup g fun x => { x with
    rebalance := x.rebalance && !bit v 5, memberDisagree := x.memberDisagree && !bit v 6, lag := x.lag && !bit v 7
    stepSkew := x.stepSkew && !bit v 8 }

/-- A staged write of a group that the active image makes valid (in part DEDUCED, log entry 14). -/
def stageGroup (s : State) (g : Nat) (f : GroupSt → GroupSt) : Option State :=
  if (s.gr g).valid then some (s.updGroup g f) else none

/-! ### Sync unit (08 R343-R346) -/

/-- A write of SYNC_STATUS. -/
def writeSyncStatus (s : State) (v : Nat) : State :=
  s.updSync fun y => { y with
    satSeen := y.satSeen && !bit v 0, underSeen := y.underSeen && !bit v 1, weirMisuse := y.weirMisuse && !bit v 2
    refused := y.refused && !bit v 3 }

/-- A write of SYNC_DUMP_STATUS: clearing FULL also clears MISSED. -/
def writeDumpStatus (s : State) (v : Nat) : State :=
  s.updSync fun y => { y with
    dumpFull := y.dumpFull && !bit v 0, dumpMissed := if bit v 0 then 0 else y.dumpMissed
    dumpFailed := y.dumpFailed && !bit v 2 }

/-! ### Refiner (07 R302-R304) -/

/-- A staged word of a refiner row; words 5 to 7 are RO. -/
def writeRefineRow (s : State) (r k : Nat) (d : W64) : State :=
  if k < 5 then { s with refiner := { s.refiner with rowsStaged := tabInsert s.refiner.rowsStaged (8 * r + k) d } } else s

/-- A staged word of a schedule. -/
def writeSched (s : State) (i k : Nat) (d : W64) : State :=
  let d := if k = 1 then BitVec.ofNat 64 (bits d.toNat 0 40) else d
  { s with refiner := { s.refiner with schedsStaged := tabInsert s.refiner.schedsStaged (4 * i + k) d } }

/-! ### Integrity (10 R410, R411) -/

/-- A write of INTEG_STATUS. -/
def writeIntegStatus (s : State) (v : Nat) : State :=
  s.updInteg fun i => { i with
    crcSeen := i.crcSeen && !bit v 0, residueSeen := i.residueSeen && !bit v 1, railSeen := i.railSeen && !bit v 2
    repairFailed := i.repairFailed && !bit v 3, recallRaised := i.recallRaised && !bit v 4
    recallSeen := i.recallSeen && !bit v 5, digestMismatch := i.digestMismatch && !bit v 6 }

/-- A write of RECALL_LOG or FAULT_RING: BASE and LOG2_SIZE stay while EN is 1, and clearing EN sets PROD and CONS to 0; records on their
way then count no longer. -/
def Ring.write (r : Ring) (v : Nat) : Option Ring :=
  let k := bits v 1 4
  let base := bits v 12 52 * 4096
  if k < 4 || 12 < k || (r.en && (k != r.log2 || base != r.base)) then none
  else if bit v 0 then some { r with en := true, log2 := k, base }
  else some { r with en := false, log2 := k, base, prod := 0, cons := 0, due := [], gen := if r.en then r.gen + 1 else r.gen }

/-- A write of CONS, or of a NOTIFY register. -/
def Ring.setCons (r : Ring) (v : Nat) : Ring := { r with cons := bits v 0 32 }
def Ring.setNotify (r : Ring) (v : Nat) : Ring := { r with wake := bits v 0 8, wakeEn := bit v 8 }

/-! ### Warden (11 R445-R449) -/

/-- A write of WARDEN_STATUS: clearing NEW_FAULT also clears SUPPRESSED. -/
def writeWardenStatus (s : State) (v : Nat) : State :=
  if bit v 5 then s.updWarden fun w => { w with newFault := false, suppressed := 0 } else s

/-- A write of WARDEN_POLICY. -/
def writePolicy (s : State) (v : Nat) : Option State :=
  if bits v 0 8 == 0 || bits v 8 16 == 0 || 8 < bits v 24 4 || bits v 40 8 == 0 then none
  else some (s.updWarden fun w => { w with
    transientLimit := bits v 0 8, window := bits v 8 16, paceMax := bits v 24 4, vstepMax := bits v 28 2
    voltageFirst := bit v 30, autoRelief := bit v 31, autoFence := bit v 32, autoWithdraw := bit v 33
    stuckLimit := bits v 40 8 })

/-- A write of TEST_AUTO: the first interval begins when EN is set (in part DEDUCED, log entry 14). -/
def writeTestAuto (s : State) (v : Nat) : Option State :=
  if bits v 16 16 == 0 then none
  else some (s.updWarden fun w => { w with
    testAutoEn := bit v 0, testInterval := bits v 16 16, autoAt := if bit v 0 && !w.testAutoEn then s.now else w.autoAt })

/-! ### Image loader, ports -/

/-- IMAGE_BASE and IMAGE_LEN stay while the loader fetches (13 R506). -/
def whileNotLoading (s : State) (f : ImageSt → ImageSt) : Option State :=
  if s.img.loader == .loading then none else some (s.updImg f)

/-- A write of LINK_STATUS. -/
def writeLinkStatus (s : State) (n v : Nat) : State :=
  s.updLink n fun l => { l with degraded := l.degraded && !bit v 10, peerChanged := l.peerChanged && !bit v 11 }

/-- A write of FABRIC_CTRL (12 R489) (in part DEDUCED, log entry 14). -/
def writeFabricCtrl (s : State) (v : Nat) : Option State :=
  let t := bits v 0 20
  if t == 0 || 1000000 < t then none else some { s with fabricTimeoutUs := t }

/-- A write of TALLY_STATUS, CADENCE_STATUS (09 R372). -/
def writeTallyStatus (s : State) (v : Nat) : State :=
  s.updTally fun t => { t with
    lost := t.lost && !bit v 3, backward := t.backward && !bit v 4, lateSeen := t.lateSeen && !bit v 5 }
def writeCadenceStatus (s : State) (v : Nat) : State := s.updTally fun t => { t with brk := t.brk && !bit v 2 }

/-- A write of TWIN_STATUS (09 R374). -/
def writeTwinStatus (s : State) (v : Nat) : State :=
  s.updTwin fun x =>
    let x := if bit v 1 then x.clearDiverged else x
    { x with alone := x.alone && !bit v 2 }

/-! ### Every register -/

/-- The effect of an owner's write by an agent; `none` is the error response. GLOBAL_CTRL is `writeGlobalCtrl`
(in part DEDUCED, log entry 14). -/
def regWrite (s : State) (agent : Nat) (r : Reg) (d : W64) : Option State :=
  let v := d.toNat
  match r with
  | .cacheCtrl => some (writeCacheCtrl s d)
  | .winBase n => writeWindow s n false d
  | .winLimit n => writeWindow s n true d
  | .streamNotify => some (s.updCache fun c => { c with notifySync := bits v 0 12, notifyEn := bit v 12 })
  | .tallyStatus => some (writeTallyStatus s v)
  | .cadenceStatus => some (writeCadenceStatus s v)
  | .twinCtrl => writeTwinCtrl s d
  | .twinStart => writeTwinStart s d
  | .twinStatus => some (writeTwinStatus s v)
  | .queueBase q => whileDisabled s q fun x => { x with base := bits v 12 52 * 4096 }
  | .queueCfg q => writeQueueCfg s q v
  | .queueCtrl q => writeQueueCtrl s q d
  | .queueHead q => writeQueueHead s q d
  | .queueHeadWb q => writeHeadWb s q v
  | .resumeCtrl q => some (if bit v 0 then resumeQueue s q else s)
  | .groupCtrl g => writeGroupCtrl s g d
  | .groupStatus g => some (writeGroupStatus s g v)
  | .groupFill g => stageGroup s g fun x => { x with fillStaged := some (bits v 0 32) }
  | .member i w => writeMember s i w d
  | .syncValue n => some (setValue s n (bits v 0 32) agent)
  | .syncCfg n => writeSyncCfg s n d
  | .weirCfg w => writeWeirCfg s w d
  | .weir w => some (writeWeir s w d)
  | .syncStatus => some (writeSyncStatus s v)
  | .syncCheck => some (s.updSync fun y => { y with chkValid := y.chkValid && !bit v 25 })
  | .dumpAddr => writeDumpAddr s d
  | .dumpCtrl => some (writeDumpCtrl s d)
  | .dumpStatus => some (writeDumpStatus s v)
  | .hostMirror => writeHostMirror s d
  | .syncLend => some (s.updSync fun y => { y with lendEn := bit v 0 })
  | .groupGen g => some (s.updGroup g fun x => { x with genMisuse := x.genMisuse && !bit v 33 })
  | .refineRow i k => some (writeRefineRow s i k d)
  | .sched i k => some (writeSched s i k d)
  | .refineStatus => some { s with refiner := { s.refiner with
      rowReject := s.refiner.rowReject && !bit v 0, schedReject := s.refiner.schedReject && !bit v 1 } }
  | .rngSeed => some { s with num := { s.num with keyStaged := some d } }
  | .testKey => some { s with num := { s.num with testKey := d } }
  | .testLo => some { s with num := { s.num with testLo := d } }
  | .testHi => some { s with num := { s.num with testHi := d } }
  | .integStatus => some (writeIntegStatus s v)
  | .recallLog => (s.integ.log.write v).map fun x => s.updInteg fun i => { i with log := x }
  | .recallCons => some (s.updInteg fun i => { i with log := i.log.setCons v })
  | .recallNotify => some (s.updInteg fun i => { i with log := i.log.setNotify v })
  | .settle g => some (s.updGroup g fun x => { x with short := x.short && !bit v 12 })
  | .replayAddr g => stageGroup s g fun x => { x with replayStaged := some (bit v 0, bits v 12 52 * 4096) }
  | .wardenStatus => some (writeWardenStatus s v)
  | .wardenPolicy => writePolicy s v
  | .vengCtrl => writeVengCtrl s (bits v 0 10) (bit v 10)
  | .surgeCtrl => writeSurgeCtrl s (bit v 0) (bit v 1)
  | .surgeStatus => some (s.updWarden fun w => { w with ledgerBad := w.ledgerBad && !bit v 3 })
  | .ledgerAddr => some (s.updWarden fun w => { w with
      ledgerEn := bit v 0, ledgerAddr := bits v 4 60 * 16, ledgerDue := w.ledgerDue && w.ledgerEn
      ledgerNoted := if w.ledgerEn then w.ledgerNoted else w.ledgerSec / 60 })
  | .ledgerRestore => some (s.updWarden fun w => { w with restoreS := bits v 0 32 })
  | .ledgerCheck => some (s.updWarden fun w => { w with restoreCheck := d })
  | .testCtrl => writeTestCtrl s d
  | .testAuto => writeTestAuto s v
  | .faultRing => (s.warden.ring.write v).map fun x => s.updWarden fun w => { w with ring := x }
  | .faultCons => some (s.updWarden fun w => { w with ring := w.ring.setCons v })
  | .faultNotify => some (s.updWarden fun w => { w with ring := w.ring.setNotify v })
  | .pace i => writePace s i d
  | .keeperLease => some (writeLease s d)
  | .keeperHandover => writeHandover s agent d
  | .keeperFreeze => some (writeFreeze s d)
  | .keeperThaw => some (writeThaw s d)
  | .imageBase => whileNotLoading s fun i => { i with base := bits v 6 58 * 64 }
  | .imageLen => whileNotLoading s fun i => { i with len := v }
  | .imageCtrl => writeImageCtrl s d
  | .imageStatus => some (s.updImg fun i => { i with
      hashMismatch := i.hashMismatch && !bit v 2, unparked := i.unparked && !bit v 3 })
  | .linkCtrl n => writeLinkCtrl s n d
  | .linkStatus n => some (writeLinkStatus s n v)
  | .fabricCtrl => writeFabricCtrl s v
  | .globalCtrl | .engineInfo | .idLo | .idHi | .idCheck | .engineAddr | .siphonStatus _ | .splitActive | .cacheHits | .cacheMisses
  | .pausedMap _ | .tallyNow | .tallyLate | .detStatus | .twinDivEntry | .twinDivKey | .twinDivCheck | .twinDivTally
  | .queueFetch _ | .queueStatus _ | .queueMap _ | .queueGrants _ | .resumeEntry _ | .resumeAddr _ | .resumeRpos _
  | .resumeWpos _ | .resumeTally _ | .groupRec _ _ | .groupSlow _ _ | .groupStep _ | .syncLast _ | .waiter _ | .syncRefusal
  | .refineUpdates | .refineSkipped | .refineEta _ | .refineBc _ | .refineSkew _ | .numFormats | .numBlock | .satTotal
  | .flushTotal | .nonfinite | .testOutLo | .testOutHi | .amax _ | .crcErrors | .residueErrors | .railErrors | .repairs
  | .recallProd | .guardActive _ | .digestLatch _ | .vengStatus | .testStatus | .faultProd | .fenceStatus | .laneLo
  | .laneHi | .faultLog _ _ | .keeperState | .keeperClaim | .freezeCause | .activeHash | .stagedHash | .linkPeer _
  | .linkPeerId _ | .linkReplays _ | .linkCrc _ | .linkDropped _ | .fabricStatus _ | .linkMap _ => some s

/-- A write of the window by an agent: a reserved offset is answered with ERROR (13 R491). -/
def writeRegister (s : State) (m : Mgmt) (off : BitVec 21) (d : W64) : State :=
  match regAt (byteOffset off) with
  | some .globalCtrl => writeGlobalCtrl s m d
  | r => mgmtWrite s m fun s => r.bind fun r => regWrite s m.agent r d

/-- REGISTER_WRITE (00 R11). -/
def execRegisterWrite (m : Mgmt) (off : BitVec 21) (d : W64) (s : State) : Host.Outcome State Fault Refusal :=
  finish s (writeRegister s m off d)

/-- WRITE_WITHOUT_OWNERSHIP (00 R17): the write of an agent that does not own the engine freezes it. -/
def execWriteWithoutOwnership (m : Mgmt) (off : BitVec 21) (d : W64) (s : State) : Host.Outcome State Fault Refusal :=
  finish s (writeRegister s m off d)

end Sys2Proof.Machine
end

