-- ==== Sys2Proof/Machine/Dispatch.lean ====
section
/-! DEFINITION. The dispatch: one arm per command, one direct call of its meaning. -/

namespace Sys2Proof.Machine

-- The effect of a command on everything but the queue of commands.
def exec (i : Instr) (s : State) : Host.Outcome State Fault Refusal :=
  match i with
  | .nop q c => Sys2Proof.Machine.execNop q c s
  | .allreduce q c => Sys2Proof.Machine.execAllreduce q c s
  | .reduceScatter q c => Sys2Proof.Machine.execReduceScatter q c s
  | .allgather q c => Sys2Proof.Machine.execAllgather q c s
  | .broadcast q c => Sys2Proof.Machine.execBroadcast q c s
  | .alltoall q c => Sys2Proof.Machine.execAlltoall q c s
  | .exchange q c => Sys2Proof.Machine.execExchange q c s
  | .rotate q c => Sys2Proof.Machine.execRotate q c s
  | .update q c => Sys2Proof.Machine.execUpdate q c s
  | .digest q c => Sys2Proof.Machine.execDigest q c s
  | .barrier q c => Sys2Proof.Machine.execBarrier q c s
  | .signal q c => Sys2Proof.Machine.execSignal q c s
  | .wait q c => Sys2Proof.Machine.execWait q c s
  | .copy q c => Sys2Proof.Machine.execCopy q c s
  | .mark q c => Sys2Proof.Machine.execMark q c s
  | .stepMark g => Sys2Proof.Machine.execStepMark g s
  | .imageSwap => Sys2Proof.Machine.execImageSwap s
  | .load m => Sys2Proof.Machine.execLoad m s
  | .imageCheck => Sys2Proof.Machine.execImageCheck s
  | .discard m => Sys2Proof.Machine.execDiscard m s
  | .start m => Sys2Proof.Machine.execStart m s
  | .warmReset m => Sys2Proof.Machine.execWarmReset m s
  | .coldReset => Sys2Proof.Machine.execColdReset s
  | .identityDerivation r1 r2 r3 => Sys2Proof.Machine.execIdentityDerivation r1 r2 r3 s
  | .managementPortReady => Sys2Proof.Machine.execManagementPortReady s
  | .builtInSelfTest fails => Sys2Proof.Machine.execBuiltInSelfTest fails s
  | .keeperClaim m => Sys2Proof.Machine.execKeeperClaim m s
  | .claimWindowClose => Sys2Proof.Machine.execClaimWindowClose s
  | .keeperLease m d => Sys2Proof.Machine.execKeeperLease m d s
  | .leaseLapse => Sys2Proof.Machine.execLeaseLapse s
  | .keeperHandover m d => Sys2Proof.Machine.execKeeperHandover m d s
  | .handoverWindowClose => Sys2Proof.Machine.execHandoverWindowClose s
  | .keeperFreeze m d => Sys2Proof.Machine.execKeeperFreeze m d s
  | .keeperThaw m d => Sys2Proof.Machine.execKeeperThaw m d s
  | .writeWithoutOwnership m off d => Sys2Proof.Machine.execWriteWithoutOwnership m off d s
  | .registerWrite m off d => Sys2Proof.Machine.execRegisterWrite m off d s
  | .rcRead m off => Sys2Proof.Machine.execRcRead m off s
  | .memberEntryWrite m j w d => Sys2Proof.Machine.execMemberEntryWrite m j w d s
  | .enable m q => Sys2Proof.Machine.execEnable m q s
  | .queueDisable m q => Sys2Proof.Machine.execQueueDisable m q s
  | .cancel m q => Sys2Proof.Machine.execCancel m q s
  | .kick m q => Sys2Proof.Machine.execKick m q s
  | .queueHead m q d => Sys2Proof.Machine.execQueueHead m q d s
  | .poll q => Sys2Proof.Machine.execPoll q s
  | .fetchBatch q => Sys2Proof.Machine.execFetchBatch q s
  | .grant => Sys2Proof.Machine.execGrant s
  | .launchAtCount q => Sys2Proof.Machine.execLaunchAtCount q s
  | .stagingPairGrant p => Sys2Proof.Machine.execStagingPairGrant p s
  | .transferIssue j => Sys2Proof.Machine.execTransferIssue j s
  | .fabricResponse j tag status data => Sys2Proof.Machine.execFabricResponse j tag status data s
  | .fabricTimeout j tag => Sys2Proof.Machine.execFabricTimeout j tag s
  | .resume m q => Sys2Proof.Machine.execResume m q s
  | .entryComplete q c => Sys2Proof.Machine.execEntryComplete q c s
  | .headWriteback q => Sys2Proof.Machine.execHeadWriteback q s
  | .flush m => Sys2Proof.Machine.execFlush m s
  | .cacheWindowWrite m n limit d => Sys2Proof.Machine.execCacheWindowWrite m n limit d s
  | .scrubPass ups => Sys2Proof.Machine.execScrubPass ups s
  | .groupResume m g => Sys2Proof.Machine.execGroupResume m g s
  | .groupHalt m g => Sys2Proof.Machine.execGroupHalt m g s
  | .stepTimeout g => Sys2Proof.Machine.execStepTimeout g s
  | .dump m => Sys2Proof.Machine.execDump m s
  | .token t => Sys2Proof.Machine.execToken t s
  | .halt h => Sys2Proof.Machine.execHalt h s
  | .parcel p => Sys2Proof.Machine.execParcel p s
  | .answer a => Sys2Proof.Machine.execAnswer a s
  | .levelMark l => Sys2Proof.Machine.execLevelMark l s
  | .recallMsg r => Sys2Proof.Machine.execRecall r s
  | .remoteSignal x => Sys2Proof.Machine.execRemoteSignal x s
  | .heldSignalApply j => Sys2Proof.Machine.execHeldSignalApply j s
  | .signalAck a => Sys2Proof.Machine.execSignalAck a s
  | .busyResend q c => Sys2Proof.Machine.execBusyResend q c s
  | .signalRequest j x => Sys2Proof.Machine.execSignalRequest j x s
  | .syncValueWrite m n d => Sys2Proof.Machine.execSyncValueWrite m n d s
  | .wakePulse w => Sys2Proof.Machine.execWakePulse w s
  | .hostMirrorWrite n => Sys2Proof.Machine.execHostMirrorWrite n s
  | .barrierAndRise w => Sys2Proof.Machine.execBarrierAndRise w s
  | .force m w => Sys2Proof.Machine.execForce m w s
  | .landingCredit x => Sys2Proof.Machine.execLandingCredit x s
  | .lendOffer => Sys2Proof.Machine.execLendOffer s
  | .lendGrant => Sys2Proof.Machine.execLendGrant s
  | .lendReclaim => Sys2Proof.Machine.execLendReclaim s
  | .tallyLock input => Sys2Proof.Machine.execTallyLock input s
  | .tallyLoss kind => Sys2Proof.Machine.execTallyLoss kind s
  | .cadenceAlign => Sys2Proof.Machine.execCadenceAlign s
  | .twinCtrlWrite m d => Sys2Proof.Machine.execTwinCtrlWrite m d s
  | .twinPair src en => Sys2Proof.Machine.execTwinPair src en s
  | .twinRecord src rs => Sys2Proof.Machine.execTwinRecord src rs s
  | .twinDivergeLatch => Sys2Proof.Machine.execTwinDivergeLatch s
  | .twinAlone => Sys2Proof.Machine.execTwinAlone s
  | .faultReport r => Sys2Proof.Machine.execFaultReport r s
  | .withdraw x => Sys2Proof.Machine.execWithdraw x s
  | .go m d => Sys2Proof.Machine.execGo m d s
  | .wholeEngineTest fails => Sys2Proof.Machine.execWholeEngineTest fails s
  | .testAuto fails => Sys2Proof.Machine.execTestAuto fails s
  | .paceWrite m j d => Sys2Proof.Machine.execPaceWrite m j d s
  | .baseMvWrite m mv => Sys2Proof.Machine.execBaseMvWrite m mv s
  | .clearRelief m => Sys2Proof.Machine.execClearRelief m s
  | .vengStep => Sys2Proof.Machine.execVengStep s
  | .vengSense => Sys2Proof.Machine.execVengSense s
  | .thermal tj => Sys2Proof.Machine.execThermal tj s
  | .senseStale w => Sys2Proof.Machine.execSenseStale w s
  | .request m v => Sys2Proof.Machine.execRequest m v s
  | .surgeBegin => Sys2Proof.Machine.execSurgeBegin s
  | .surgeWindowSpent => Sys2Proof.Machine.execSurgeWindowSpent s
  | .drawGrantFall => Sys2Proof.Machine.execDrawGrantFall s
  | .ledgerSpent => Sys2Proof.Machine.execLedgerSpent s
  | .ledgerRecord => Sys2Proof.Machine.execLedgerRecord s
  | .restore m => Sys2Proof.Machine.execRestore m s
  | .retrain m n => Sys2Proof.Machine.execRetrain m n s
  | .linkEnWrite m n d => Sys2Proof.Machine.execLinkEnWrite m n d s
  | .phyReady n mask => Sys2Proof.Machine.execPhyReady n mask s
  | .train n t => Sys2Proof.Machine.execTrain n t s
  | .trainAttemptFail n => Sys2Proof.Machine.execTrainAttemptFail n s
  | .trainBackoff n => Sys2Proof.Machine.execTrainBackoff n s
  | .calibrationComplete n good => Sys2Proof.Machine.execCalibrationComplete n good s
  | .phyLost n mask => Sys2Proof.Machine.execPhyLost n mask s
  | .linkSilence n => Sys2Proof.Machine.execLinkSilence n s
  | .flit n sideband data => Sys2Proof.Machine.execFlit n sideband data s
  | .nack n ackSeq nackSeq => Sys2Proof.Machine.execNack n ackSeq nackSeq s
  | .replayBackoff n => Sys2Proof.Machine.execReplayBackoff n s
  | .status n ackSeq credits width => Sys2Proof.Machine.execStatus n ackSeq credits width s
  | .statusSend n => Sys2Proof.Machine.execStatusSend n s
  | .linkState n src port up nonce => Sys2Proof.Machine.execLinkState n src port up nonce s
  | .resetRelease dieAddr => Sys2Proof.Machine.execResetRelease dieAddr s
  | .budgetReturned => Sys2Proof.Machine.execBudgetReturned s
  | .reclaimLimit => Sys2Proof.Machine.execReclaimLimit s
  | .senseStrobe w value => Sys2Proof.Machine.execSenseStrobe w value s
  | .testComplete fails => Sys2Proof.Machine.execTestComplete fails s
  | .flushDone => Sys2Proof.Machine.execFlushDone s
  | .capRelease => Sys2Proof.Machine.execCapRelease s

end Sys2Proof.Machine
end

