-- ==== Sys2Proof/Machine/Idle.lean ====
section
/-! DEFINITION. One nanosecond with no command waiting (log entry 1): the tally and the surge ledger count, wake pulses end, the
sluice's round ends when nothing can be granted in it, the entries that wait for their counts alone are noted, and the time of quiescence begins, ends, or ends surge. -/

namespace Sys2Proof.Machine

/-- The sluice's round ends when no queue is eligible with credit left (03 R119). -/
def endRound (s : State) : State :=
  if s.sluice.active && (s.pick s.sluice).isNone then { s with sluice := { s.sluice with active := false } } else s

/-- Since when the engine is quiescent (08 R321). While an offer or a loan stands, a quiescence that has ended does not begin again
before the engine has asked for its budget (R322). -/
def noteQuiet (s : State) : State :=
  s.updSync fun y => { y with quietSince :=
    if !s.quiescent then none else if y.lendValid then y.quietSince else some (y.quietSince.getD s.now) }

/-- The pulses that the engine gave are over (12 R484). -/
def endPulses (s : State) : State := s.updSync fun y => { y with wakeOut := y.wakeOut.filter fun p => decide (s.now < p.2 + 2) }

/-- Surge ends when the engine has been quiescent for 2,000 ns (11 R441) (in part DESIGN CHOICE, log entry 1). -/
def quietSurge (s : State) : State :=
  let due := match s.sync.quietSince with
    | some t => decide (t + 2000 ≤ s.now)
    | none => false
  if due then endSurge s 2 else s

/-- One nanosecond passes (in part DESIGN CHOICE, log entries 1 and 38). -/
def idleTick (s : State) : State :=
  let s := noteCounting (quietSurge (noteQuiet (endRound (endPulses (tickSurge s)))))
  afterLock s { s.updTally TallySt.advance with now := s.now + 1 }

end Sys2Proof.Machine
end

