-- ==== Sys2Proof/Laws/State.lean ====
section
/-! SUPPORT. What each named update of the state leaves in each field, by unfolding. -/

namespace Sys2Proof.Machine

variable (s : State)

/-! ### setQueue -/

@[simp] theorem State.setQueue_pending (q : Nat) (x : QueueSt) : (s.setQueue q x).pending = s.pending := rfl
@[simp] theorem State.setQueue_now (q : Nat) (x : QueueSt) : (s.setQueue q x).now = s.now := rfl
@[simp] theorem State.setQueue_fresh (q : Nat) (x : QueueSt) : (s.setQueue q x).fresh = s.fresh := rfl
@[simp] theorem State.setQueue_mgmt (q : Nat) (x : QueueSt) : (s.setQueue q x).mgmt = s.mgmt := rfl
@[simp] theorem State.setQueue_keeper (q : Nat) (x : QueueSt) : (s.setQueue q x).keeper = s.keeper := rfl
@[simp] theorem State.setQueue_img (q : Nat) (x : QueueSt) : (s.setQueue q x).img = s.img := rfl
@[simp] theorem State.setQueue_groups (q : Nat) (x : QueueSt) : (s.setQueue q x).groups = s.groups := rfl
@[simp] theorem State.setQueue_members (q : Nat) (x : QueueSt) : (s.setQueue q x).members = s.members := rfl
@[simp] theorem State.setQueue_queues (q : Nat) (x : QueueSt) : (s.setQueue q x).queues = tabSet (fun _ => {}) s.queues q x := rfl
@[simp] theorem State.setQueue_sluice (q : Nat) (x : QueueSt) : (s.setQueue q x).sluice = s.sluice := rfl
@[simp] theorem State.setQueue_ops (q : Nat) (x : QueueSt) : (s.setQueue q x).ops = s.ops := rfl
@[simp] theorem State.setQueue_siphons (q : Nat) (x : QueueSt) : (s.setQueue q x).siphons = s.siphons := rfl
@[simp] theorem State.setQueue_fabricTimeoutUs (q : Nat) (x : QueueSt) : (s.setQueue q x).fabricTimeoutUs = s.fabricTimeoutUs := rfl
@[simp] theorem State.setQueue_cache (q : Nat) (x : QueueSt) : (s.setQueue q x).cache = s.cache := rfl
@[simp] theorem State.setQueue_sync (q : Nat) (x : QueueSt) : (s.setQueue q x).sync = s.sync := rfl
@[simp] theorem State.setQueue_tally (q : Nat) (x : QueueSt) : (s.setQueue q x).tally = s.tally := rfl
@[simp] theorem State.setQueue_twin (q : Nat) (x : QueueSt) : (s.setQueue q x).twin = s.twin := rfl
@[simp] theorem State.setQueue_num (q : Nat) (x : QueueSt) : (s.setQueue q x).num = s.num := rfl
@[simp] theorem State.setQueue_refiner (q : Nat) (x : QueueSt) : (s.setQueue q x).refiner = s.refiner := rfl
@[simp] theorem State.setQueue_integ (q : Nat) (x : QueueSt) : (s.setQueue q x).integ = s.integ := rfl
@[simp] theorem State.setQueue_warden (q : Nat) (x : QueueSt) : (s.setQueue q x).warden = s.warden := rfl
@[simp] theorem State.setQueue_links (q : Nat) (x : QueueSt) : (s.setQueue q x).links = s.links := rfl
@[simp] theorem State.setQueue_net (q : Nat) (x : QueueSt) : (s.setQueue q x).net = s.net := rfl

/-! ### updQueue -/

@[simp] theorem State.updQueue_pending (q : Nat) (f : QueueSt → QueueSt) : (s.updQueue q f).pending = s.pending := rfl
@[simp] theorem State.updQueue_now (q : Nat) (f : QueueSt → QueueSt) : (s.updQueue q f).now = s.now := rfl
@[simp] theorem State.updQueue_fresh (q : Nat) (f : QueueSt → QueueSt) : (s.updQueue q f).fresh = s.fresh := rfl
@[simp] theorem State.updQueue_mgmt (q : Nat) (f : QueueSt → QueueSt) : (s.updQueue q f).mgmt = s.mgmt := rfl
@[simp] theorem State.updQueue_keeper (q : Nat) (f : QueueSt → QueueSt) : (s.updQueue q f).keeper = s.keeper := rfl
@[simp] theorem State.updQueue_img (q : Nat) (f : QueueSt → QueueSt) : (s.updQueue q f).img = s.img := rfl
@[simp] theorem State.updQueue_groups (q : Nat) (f : QueueSt → QueueSt) : (s.updQueue q f).groups = s.groups := rfl
@[simp] theorem State.updQueue_members (q : Nat) (f : QueueSt → QueueSt) : (s.updQueue q f).members = s.members := rfl
@[simp] theorem State.updQueue_queues (q : Nat) (f : QueueSt → QueueSt) : (s.updQueue q f).queues = tabSet (fun _ => {}) s.queues q (f (s.queue q)) := rfl
@[simp] theorem State.updQueue_sluice (q : Nat) (f : QueueSt → QueueSt) : (s.updQueue q f).sluice = s.sluice := rfl
@[simp] theorem State.updQueue_ops (q : Nat) (f : QueueSt → QueueSt) : (s.updQueue q f).ops = s.ops := rfl
@[simp] theorem State.updQueue_siphons (q : Nat) (f : QueueSt → QueueSt) : (s.updQueue q f).siphons = s.siphons := rfl
@[simp] theorem State.updQueue_fabricTimeoutUs (q : Nat) (f : QueueSt → QueueSt) : (s.updQueue q f).fabricTimeoutUs = s.fabricTimeoutUs := rfl
@[simp] theorem State.updQueue_cache (q : Nat) (f : QueueSt → QueueSt) : (s.updQueue q f).cache = s.cache := rfl
@[simp] theorem State.updQueue_sync (q : Nat) (f : QueueSt → QueueSt) : (s.updQueue q f).sync = s.sync := rfl
@[simp] theorem State.updQueue_tally (q : Nat) (f : QueueSt → QueueSt) : (s.updQueue q f).tally = s.tally := rfl
@[simp] theorem State.updQueue_twin (q : Nat) (f : QueueSt → QueueSt) : (s.updQueue q f).twin = s.twin := rfl
@[simp] theorem State.updQueue_num (q : Nat) (f : QueueSt → QueueSt) : (s.updQueue q f).num = s.num := rfl
@[simp] theorem State.updQueue_refiner (q : Nat) (f : QueueSt → QueueSt) : (s.updQueue q f).refiner = s.refiner := rfl
@[simp] theorem State.updQueue_integ (q : Nat) (f : QueueSt → QueueSt) : (s.updQueue q f).integ = s.integ := rfl
@[simp] theorem State.updQueue_warden (q : Nat) (f : QueueSt → QueueSt) : (s.updQueue q f).warden = s.warden := rfl
@[simp] theorem State.updQueue_links (q : Nat) (f : QueueSt → QueueSt) : (s.updQueue q f).links = s.links := rfl
@[simp] theorem State.updQueue_net (q : Nat) (f : QueueSt → QueueSt) : (s.updQueue q f).net = s.net := rfl

/-! ### setGroup -/

@[simp] theorem State.setGroup_pending (g : Nat) (x : GroupSt) : (s.setGroup g x).pending = s.pending := rfl
@[simp] theorem State.setGroup_now (g : Nat) (x : GroupSt) : (s.setGroup g x).now = s.now := rfl
@[simp] theorem State.setGroup_fresh (g : Nat) (x : GroupSt) : (s.setGroup g x).fresh = s.fresh := rfl
@[simp] theorem State.setGroup_mgmt (g : Nat) (x : GroupSt) : (s.setGroup g x).mgmt = s.mgmt := rfl
@[simp] theorem State.setGroup_keeper (g : Nat) (x : GroupSt) : (s.setGroup g x).keeper = s.keeper := rfl
@[simp] theorem State.setGroup_img (g : Nat) (x : GroupSt) : (s.setGroup g x).img = s.img := rfl
@[simp] theorem State.setGroup_groups (g : Nat) (x : GroupSt) : (s.setGroup g x).groups = tabSet (fun _ => {}) s.groups g x := rfl
@[simp] theorem State.setGroup_members (g : Nat) (x : GroupSt) : (s.setGroup g x).members = s.members := rfl
@[simp] theorem State.setGroup_queues (g : Nat) (x : GroupSt) : (s.setGroup g x).queues = s.queues := rfl
@[simp] theorem State.setGroup_sluice (g : Nat) (x : GroupSt) : (s.setGroup g x).sluice = s.sluice := rfl
@[simp] theorem State.setGroup_ops (g : Nat) (x : GroupSt) : (s.setGroup g x).ops = s.ops := rfl
@[simp] theorem State.setGroup_siphons (g : Nat) (x : GroupSt) : (s.setGroup g x).siphons = s.siphons := rfl
@[simp] theorem State.setGroup_fabricTimeoutUs (g : Nat) (x : GroupSt) : (s.setGroup g x).fabricTimeoutUs = s.fabricTimeoutUs := rfl
@[simp] theorem State.setGroup_cache (g : Nat) (x : GroupSt) : (s.setGroup g x).cache = s.cache := rfl
@[simp] theorem State.setGroup_sync (g : Nat) (x : GroupSt) : (s.setGroup g x).sync = s.sync := rfl
@[simp] theorem State.setGroup_tally (g : Nat) (x : GroupSt) : (s.setGroup g x).tally = s.tally := rfl
@[simp] theorem State.setGroup_twin (g : Nat) (x : GroupSt) : (s.setGroup g x).twin = s.twin := rfl
@[simp] theorem State.setGroup_num (g : Nat) (x : GroupSt) : (s.setGroup g x).num = s.num := rfl
@[simp] theorem State.setGroup_refiner (g : Nat) (x : GroupSt) : (s.setGroup g x).refiner = s.refiner := rfl
@[simp] theorem State.setGroup_integ (g : Nat) (x : GroupSt) : (s.setGroup g x).integ = s.integ := rfl
@[simp] theorem State.setGroup_warden (g : Nat) (x : GroupSt) : (s.setGroup g x).warden = s.warden := rfl
@[simp] theorem State.setGroup_links (g : Nat) (x : GroupSt) : (s.setGroup g x).links = s.links := rfl
@[simp] theorem State.setGroup_net (g : Nat) (x : GroupSt) : (s.setGroup g x).net = s.net := rfl

/-! ### updGroup -/

@[simp] theorem State.updGroup_pending (g : Nat) (f : GroupSt → GroupSt) : (s.updGroup g f).pending = s.pending := rfl
@[simp] theorem State.updGroup_now (g : Nat) (f : GroupSt → GroupSt) : (s.updGroup g f).now = s.now := rfl
@[simp] theorem State.updGroup_fresh (g : Nat) (f : GroupSt → GroupSt) : (s.updGroup g f).fresh = s.fresh := rfl
@[simp] theorem State.updGroup_mgmt (g : Nat) (f : GroupSt → GroupSt) : (s.updGroup g f).mgmt = s.mgmt := rfl
@[simp] theorem State.updGroup_keeper (g : Nat) (f : GroupSt → GroupSt) : (s.updGroup g f).keeper = s.keeper := rfl
@[simp] theorem State.updGroup_img (g : Nat) (f : GroupSt → GroupSt) : (s.updGroup g f).img = s.img := rfl
@[simp] theorem State.updGroup_groups (g : Nat) (f : GroupSt → GroupSt) : (s.updGroup g f).groups = tabSet (fun _ => {}) s.groups g (f (s.group g)) := rfl
@[simp] theorem State.updGroup_members (g : Nat) (f : GroupSt → GroupSt) : (s.updGroup g f).members = s.members := rfl
@[simp] theorem State.updGroup_queues (g : Nat) (f : GroupSt → GroupSt) : (s.updGroup g f).queues = s.queues := rfl
@[simp] theorem State.updGroup_sluice (g : Nat) (f : GroupSt → GroupSt) : (s.updGroup g f).sluice = s.sluice := rfl
@[simp] theorem State.updGroup_ops (g : Nat) (f : GroupSt → GroupSt) : (s.updGroup g f).ops = s.ops := rfl
@[simp] theorem State.updGroup_siphons (g : Nat) (f : GroupSt → GroupSt) : (s.updGroup g f).siphons = s.siphons := rfl
@[simp] theorem State.updGroup_fabricTimeoutUs (g : Nat) (f : GroupSt → GroupSt) : (s.updGroup g f).fabricTimeoutUs = s.fabricTimeoutUs := rfl
@[simp] theorem State.updGroup_cache (g : Nat) (f : GroupSt → GroupSt) : (s.updGroup g f).cache = s.cache := rfl
@[simp] theorem State.updGroup_sync (g : Nat) (f : GroupSt → GroupSt) : (s.updGroup g f).sync = s.sync := rfl
@[simp] theorem State.updGroup_tally (g : Nat) (f : GroupSt → GroupSt) : (s.updGroup g f).tally = s.tally := rfl
@[simp] theorem State.updGroup_twin (g : Nat) (f : GroupSt → GroupSt) : (s.updGroup g f).twin = s.twin := rfl
@[simp] theorem State.updGroup_num (g : Nat) (f : GroupSt → GroupSt) : (s.updGroup g f).num = s.num := rfl
@[simp] theorem State.updGroup_refiner (g : Nat) (f : GroupSt → GroupSt) : (s.updGroup g f).refiner = s.refiner := rfl
@[simp] theorem State.updGroup_integ (g : Nat) (f : GroupSt → GroupSt) : (s.updGroup g f).integ = s.integ := rfl
@[simp] theorem State.updGroup_warden (g : Nat) (f : GroupSt → GroupSt) : (s.updGroup g f).warden = s.warden := rfl
@[simp] theorem State.updGroup_links (g : Nat) (f : GroupSt → GroupSt) : (s.updGroup g f).links = s.links := rfl
@[simp] theorem State.updGroup_net (g : Nat) (f : GroupSt → GroupSt) : (s.updGroup g f).net = s.net := rfl

/-! ### setMember -/

@[simp] theorem State.setMember_pending (i : Nat) (x : Member) : (s.setMember i x).pending = s.pending := rfl
@[simp] theorem State.setMember_now (i : Nat) (x : Member) : (s.setMember i x).now = s.now := rfl
@[simp] theorem State.setMember_fresh (i : Nat) (x : Member) : (s.setMember i x).fresh = s.fresh := rfl
@[simp] theorem State.setMember_mgmt (i : Nat) (x : Member) : (s.setMember i x).mgmt = s.mgmt := rfl
@[simp] theorem State.setMember_keeper (i : Nat) (x : Member) : (s.setMember i x).keeper = s.keeper := rfl
@[simp] theorem State.setMember_img (i : Nat) (x : Member) : (s.setMember i x).img = s.img := rfl
@[simp] theorem State.setMember_groups (i : Nat) (x : Member) : (s.setMember i x).groups = s.groups := rfl
@[simp] theorem State.setMember_members (i : Nat) (x : Member) : (s.setMember i x).members = tabSet (fun _ => {}) s.members i x := rfl
@[simp] theorem State.setMember_queues (i : Nat) (x : Member) : (s.setMember i x).queues = s.queues := rfl
@[simp] theorem State.setMember_sluice (i : Nat) (x : Member) : (s.setMember i x).sluice = s.sluice := rfl
@[simp] theorem State.setMember_ops (i : Nat) (x : Member) : (s.setMember i x).ops = s.ops := rfl
@[simp] theorem State.setMember_siphons (i : Nat) (x : Member) : (s.setMember i x).siphons = s.siphons := rfl
@[simp] theorem State.setMember_fabricTimeoutUs (i : Nat) (x : Member) : (s.setMember i x).fabricTimeoutUs = s.fabricTimeoutUs := rfl
@[simp] theorem State.setMember_cache (i : Nat) (x : Member) : (s.setMember i x).cache = s.cache := rfl
@[simp] theorem State.setMember_sync (i : Nat) (x : Member) : (s.setMember i x).sync = s.sync := rfl
@[simp] theorem State.setMember_tally (i : Nat) (x : Member) : (s.setMember i x).tally = s.tally := rfl
@[simp] theorem State.setMember_twin (i : Nat) (x : Member) : (s.setMember i x).twin = s.twin := rfl
@[simp] theorem State.setMember_num (i : Nat) (x : Member) : (s.setMember i x).num = s.num := rfl
@[simp] theorem State.setMember_refiner (i : Nat) (x : Member) : (s.setMember i x).refiner = s.refiner := rfl
@[simp] theorem State.setMember_integ (i : Nat) (x : Member) : (s.setMember i x).integ = s.integ := rfl
@[simp] theorem State.setMember_warden (i : Nat) (x : Member) : (s.setMember i x).warden = s.warden := rfl
@[simp] theorem State.setMember_links (i : Nat) (x : Member) : (s.setMember i x).links = s.links := rfl
@[simp] theorem State.setMember_net (i : Nat) (x : Member) : (s.setMember i x).net = s.net := rfl

/-! ### setSiphon -/

@[simp] theorem State.setSiphon_pending (i : Nat) (x : SiphonSt) : (s.setSiphon i x).pending = s.pending := rfl
@[simp] theorem State.setSiphon_now (i : Nat) (x : SiphonSt) : (s.setSiphon i x).now = s.now := rfl
@[simp] theorem State.setSiphon_fresh (i : Nat) (x : SiphonSt) : (s.setSiphon i x).fresh = s.fresh := rfl
@[simp] theorem State.setSiphon_mgmt (i : Nat) (x : SiphonSt) : (s.setSiphon i x).mgmt = s.mgmt := rfl
@[simp] theorem State.setSiphon_keeper (i : Nat) (x : SiphonSt) : (s.setSiphon i x).keeper = s.keeper := rfl
@[simp] theorem State.setSiphon_img (i : Nat) (x : SiphonSt) : (s.setSiphon i x).img = s.img := rfl
@[simp] theorem State.setSiphon_groups (i : Nat) (x : SiphonSt) : (s.setSiphon i x).groups = s.groups := rfl
@[simp] theorem State.setSiphon_members (i : Nat) (x : SiphonSt) : (s.setSiphon i x).members = s.members := rfl
@[simp] theorem State.setSiphon_queues (i : Nat) (x : SiphonSt) : (s.setSiphon i x).queues = s.queues := rfl
@[simp] theorem State.setSiphon_sluice (i : Nat) (x : SiphonSt) : (s.setSiphon i x).sluice = s.sluice := rfl
@[simp] theorem State.setSiphon_ops (i : Nat) (x : SiphonSt) : (s.setSiphon i x).ops = s.ops := rfl
@[simp] theorem State.setSiphon_siphons (i : Nat) (x : SiphonSt) : (s.setSiphon i x).siphons = tabSet (fun _ => {}) s.siphons i x := rfl
@[simp] theorem State.setSiphon_fabricTimeoutUs (i : Nat) (x : SiphonSt) : (s.setSiphon i x).fabricTimeoutUs = s.fabricTimeoutUs := rfl
@[simp] theorem State.setSiphon_cache (i : Nat) (x : SiphonSt) : (s.setSiphon i x).cache = s.cache := rfl
@[simp] theorem State.setSiphon_sync (i : Nat) (x : SiphonSt) : (s.setSiphon i x).sync = s.sync := rfl
@[simp] theorem State.setSiphon_tally (i : Nat) (x : SiphonSt) : (s.setSiphon i x).tally = s.tally := rfl
@[simp] theorem State.setSiphon_twin (i : Nat) (x : SiphonSt) : (s.setSiphon i x).twin = s.twin := rfl
@[simp] theorem State.setSiphon_num (i : Nat) (x : SiphonSt) : (s.setSiphon i x).num = s.num := rfl
@[simp] theorem State.setSiphon_refiner (i : Nat) (x : SiphonSt) : (s.setSiphon i x).refiner = s.refiner := rfl
@[simp] theorem State.setSiphon_integ (i : Nat) (x : SiphonSt) : (s.setSiphon i x).integ = s.integ := rfl
@[simp] theorem State.setSiphon_warden (i : Nat) (x : SiphonSt) : (s.setSiphon i x).warden = s.warden := rfl
@[simp] theorem State.setSiphon_links (i : Nat) (x : SiphonSt) : (s.setSiphon i x).links = s.links := rfl
@[simp] theorem State.setSiphon_net (i : Nat) (x : SiphonSt) : (s.setSiphon i x).net = s.net := rfl

/-! ### updSiphon -/

@[simp] theorem State.updSiphon_pending (i : Nat) (f : SiphonSt → SiphonSt) : (s.updSiphon i f).pending = s.pending := rfl
@[simp] theorem State.updSiphon_now (i : Nat) (f : SiphonSt → SiphonSt) : (s.updSiphon i f).now = s.now := rfl
@[simp] theorem State.updSiphon_fresh (i : Nat) (f : SiphonSt → SiphonSt) : (s.updSiphon i f).fresh = s.fresh := rfl
@[simp] theorem State.updSiphon_mgmt (i : Nat) (f : SiphonSt → SiphonSt) : (s.updSiphon i f).mgmt = s.mgmt := rfl
@[simp] theorem State.updSiphon_keeper (i : Nat) (f : SiphonSt → SiphonSt) : (s.updSiphon i f).keeper = s.keeper := rfl
@[simp] theorem State.updSiphon_img (i : Nat) (f : SiphonSt → SiphonSt) : (s.updSiphon i f).img = s.img := rfl
@[simp] theorem State.updSiphon_groups (i : Nat) (f : SiphonSt → SiphonSt) : (s.updSiphon i f).groups = s.groups := rfl
@[simp] theorem State.updSiphon_members (i : Nat) (f : SiphonSt → SiphonSt) : (s.updSiphon i f).members = s.members := rfl
@[simp] theorem State.updSiphon_queues (i : Nat) (f : SiphonSt → SiphonSt) : (s.updSiphon i f).queues = s.queues := rfl
@[simp] theorem State.updSiphon_sluice (i : Nat) (f : SiphonSt → SiphonSt) : (s.updSiphon i f).sluice = s.sluice := rfl
@[simp] theorem State.updSiphon_ops (i : Nat) (f : SiphonSt → SiphonSt) : (s.updSiphon i f).ops = s.ops := rfl
@[simp] theorem State.updSiphon_siphons (i : Nat) (f : SiphonSt → SiphonSt) : (s.updSiphon i f).siphons = tabSet (fun _ => {}) s.siphons i (f (s.siphon i)) := rfl
@[simp] theorem State.updSiphon_fabricTimeoutUs (i : Nat) (f : SiphonSt → SiphonSt) : (s.updSiphon i f).fabricTimeoutUs = s.fabricTimeoutUs := rfl
@[simp] theorem State.updSiphon_cache (i : Nat) (f : SiphonSt → SiphonSt) : (s.updSiphon i f).cache = s.cache := rfl
@[simp] theorem State.updSiphon_sync (i : Nat) (f : SiphonSt → SiphonSt) : (s.updSiphon i f).sync = s.sync := rfl
@[simp] theorem State.updSiphon_tally (i : Nat) (f : SiphonSt → SiphonSt) : (s.updSiphon i f).tally = s.tally := rfl
@[simp] theorem State.updSiphon_twin (i : Nat) (f : SiphonSt → SiphonSt) : (s.updSiphon i f).twin = s.twin := rfl
@[simp] theorem State.updSiphon_num (i : Nat) (f : SiphonSt → SiphonSt) : (s.updSiphon i f).num = s.num := rfl
@[simp] theorem State.updSiphon_refiner (i : Nat) (f : SiphonSt → SiphonSt) : (s.updSiphon i f).refiner = s.refiner := rfl
@[simp] theorem State.updSiphon_integ (i : Nat) (f : SiphonSt → SiphonSt) : (s.updSiphon i f).integ = s.integ := rfl
@[simp] theorem State.updSiphon_warden (i : Nat) (f : SiphonSt → SiphonSt) : (s.updSiphon i f).warden = s.warden := rfl
@[simp] theorem State.updSiphon_links (i : Nat) (f : SiphonSt → SiphonSt) : (s.updSiphon i f).links = s.links := rfl
@[simp] theorem State.updSiphon_net (i : Nat) (f : SiphonSt → SiphonSt) : (s.updSiphon i f).net = s.net := rfl

/-! ### setLink -/

@[simp] theorem State.setLink_pending (n : Nat) (x : LinkSt) : (s.setLink n x).pending = s.pending := rfl
@[simp] theorem State.setLink_now (n : Nat) (x : LinkSt) : (s.setLink n x).now = s.now := rfl
@[simp] theorem State.setLink_fresh (n : Nat) (x : LinkSt) : (s.setLink n x).fresh = s.fresh := rfl
@[simp] theorem State.setLink_mgmt (n : Nat) (x : LinkSt) : (s.setLink n x).mgmt = s.mgmt := rfl
@[simp] theorem State.setLink_keeper (n : Nat) (x : LinkSt) : (s.setLink n x).keeper = s.keeper := rfl
@[simp] theorem State.setLink_img (n : Nat) (x : LinkSt) : (s.setLink n x).img = s.img := rfl
@[simp] theorem State.setLink_groups (n : Nat) (x : LinkSt) : (s.setLink n x).groups = s.groups := rfl
@[simp] theorem State.setLink_members (n : Nat) (x : LinkSt) : (s.setLink n x).members = s.members := rfl
@[simp] theorem State.setLink_queues (n : Nat) (x : LinkSt) : (s.setLink n x).queues = s.queues := rfl
@[simp] theorem State.setLink_sluice (n : Nat) (x : LinkSt) : (s.setLink n x).sluice = s.sluice := rfl
@[simp] theorem State.setLink_ops (n : Nat) (x : LinkSt) : (s.setLink n x).ops = s.ops := rfl
@[simp] theorem State.setLink_siphons (n : Nat) (x : LinkSt) : (s.setLink n x).siphons = s.siphons := rfl
@[simp] theorem State.setLink_fabricTimeoutUs (n : Nat) (x : LinkSt) : (s.setLink n x).fabricTimeoutUs = s.fabricTimeoutUs := rfl
@[simp] theorem State.setLink_cache (n : Nat) (x : LinkSt) : (s.setLink n x).cache = s.cache := rfl
@[simp] theorem State.setLink_sync (n : Nat) (x : LinkSt) : (s.setLink n x).sync = s.sync := rfl
@[simp] theorem State.setLink_tally (n : Nat) (x : LinkSt) : (s.setLink n x).tally = s.tally := rfl
@[simp] theorem State.setLink_twin (n : Nat) (x : LinkSt) : (s.setLink n x).twin = s.twin := rfl
@[simp] theorem State.setLink_num (n : Nat) (x : LinkSt) : (s.setLink n x).num = s.num := rfl
@[simp] theorem State.setLink_refiner (n : Nat) (x : LinkSt) : (s.setLink n x).refiner = s.refiner := rfl
@[simp] theorem State.setLink_integ (n : Nat) (x : LinkSt) : (s.setLink n x).integ = s.integ := rfl
@[simp] theorem State.setLink_warden (n : Nat) (x : LinkSt) : (s.setLink n x).warden = s.warden := rfl
@[simp] theorem State.setLink_links (n : Nat) (x : LinkSt) : (s.setLink n x).links = tabSet (fun _ => {}) s.links n x := rfl
@[simp] theorem State.setLink_net (n : Nat) (x : LinkSt) : (s.setLink n x).net = s.net := rfl

/-! ### updLink -/

@[simp] theorem State.updLink_pending (n : Nat) (f : LinkSt → LinkSt) : (s.updLink n f).pending = s.pending := rfl
@[simp] theorem State.updLink_now (n : Nat) (f : LinkSt → LinkSt) : (s.updLink n f).now = s.now := rfl
@[simp] theorem State.updLink_fresh (n : Nat) (f : LinkSt → LinkSt) : (s.updLink n f).fresh = s.fresh := rfl
@[simp] theorem State.updLink_mgmt (n : Nat) (f : LinkSt → LinkSt) : (s.updLink n f).mgmt = s.mgmt := rfl
@[simp] theorem State.updLink_keeper (n : Nat) (f : LinkSt → LinkSt) : (s.updLink n f).keeper = s.keeper := rfl
@[simp] theorem State.updLink_img (n : Nat) (f : LinkSt → LinkSt) : (s.updLink n f).img = s.img := rfl
@[simp] theorem State.updLink_groups (n : Nat) (f : LinkSt → LinkSt) : (s.updLink n f).groups = s.groups := rfl
@[simp] theorem State.updLink_members (n : Nat) (f : LinkSt → LinkSt) : (s.updLink n f).members = s.members := rfl
@[simp] theorem State.updLink_queues (n : Nat) (f : LinkSt → LinkSt) : (s.updLink n f).queues = s.queues := rfl
@[simp] theorem State.updLink_sluice (n : Nat) (f : LinkSt → LinkSt) : (s.updLink n f).sluice = s.sluice := rfl
@[simp] theorem State.updLink_ops (n : Nat) (f : LinkSt → LinkSt) : (s.updLink n f).ops = s.ops := rfl
@[simp] theorem State.updLink_siphons (n : Nat) (f : LinkSt → LinkSt) : (s.updLink n f).siphons = s.siphons := rfl
@[simp] theorem State.updLink_fabricTimeoutUs (n : Nat) (f : LinkSt → LinkSt) : (s.updLink n f).fabricTimeoutUs = s.fabricTimeoutUs := rfl
@[simp] theorem State.updLink_cache (n : Nat) (f : LinkSt → LinkSt) : (s.updLink n f).cache = s.cache := rfl
@[simp] theorem State.updLink_sync (n : Nat) (f : LinkSt → LinkSt) : (s.updLink n f).sync = s.sync := rfl
@[simp] theorem State.updLink_tally (n : Nat) (f : LinkSt → LinkSt) : (s.updLink n f).tally = s.tally := rfl
@[simp] theorem State.updLink_twin (n : Nat) (f : LinkSt → LinkSt) : (s.updLink n f).twin = s.twin := rfl
@[simp] theorem State.updLink_num (n : Nat) (f : LinkSt → LinkSt) : (s.updLink n f).num = s.num := rfl
@[simp] theorem State.updLink_refiner (n : Nat) (f : LinkSt → LinkSt) : (s.updLink n f).refiner = s.refiner := rfl
@[simp] theorem State.updLink_integ (n : Nat) (f : LinkSt → LinkSt) : (s.updLink n f).integ = s.integ := rfl
@[simp] theorem State.updLink_warden (n : Nat) (f : LinkSt → LinkSt) : (s.updLink n f).warden = s.warden := rfl
@[simp] theorem State.updLink_links (n : Nat) (f : LinkSt → LinkSt) : (s.updLink n f).links = tabSet (fun _ => {}) s.links n (f (s.link n)) := rfl
@[simp] theorem State.updLink_net (n : Nat) (f : LinkSt → LinkSt) : (s.updLink n f).net = s.net := rfl

/-! ### setCounter -/

@[simp] theorem State.setCounter_pending (n : Nat) (x : Counter) : (s.setCounter n x).pending = s.pending := rfl
@[simp] theorem State.setCounter_now (n : Nat) (x : Counter) : (s.setCounter n x).now = s.now := rfl
@[simp] theorem State.setCounter_fresh (n : Nat) (x : Counter) : (s.setCounter n x).fresh = s.fresh := rfl
@[simp] theorem State.setCounter_mgmt (n : Nat) (x : Counter) : (s.setCounter n x).mgmt = s.mgmt := rfl
@[simp] theorem State.setCounter_keeper (n : Nat) (x : Counter) : (s.setCounter n x).keeper = s.keeper := rfl
@[simp] theorem State.setCounter_img (n : Nat) (x : Counter) : (s.setCounter n x).img = s.img := rfl
@[simp] theorem State.setCounter_groups (n : Nat) (x : Counter) : (s.setCounter n x).groups = s.groups := rfl
@[simp] theorem State.setCounter_members (n : Nat) (x : Counter) : (s.setCounter n x).members = s.members := rfl
@[simp] theorem State.setCounter_queues (n : Nat) (x : Counter) : (s.setCounter n x).queues = s.queues := rfl
@[simp] theorem State.setCounter_sluice (n : Nat) (x : Counter) : (s.setCounter n x).sluice = s.sluice := rfl
@[simp] theorem State.setCounter_ops (n : Nat) (x : Counter) : (s.setCounter n x).ops = s.ops := rfl
@[simp] theorem State.setCounter_siphons (n : Nat) (x : Counter) : (s.setCounter n x).siphons = s.siphons := rfl
@[simp] theorem State.setCounter_fabricTimeoutUs (n : Nat) (x : Counter) : (s.setCounter n x).fabricTimeoutUs = s.fabricTimeoutUs := rfl
@[simp] theorem State.setCounter_cache (n : Nat) (x : Counter) : (s.setCounter n x).cache = s.cache := rfl
@[simp] theorem State.setCounter_sync (n : Nat) (x : Counter) : (s.setCounter n x).sync = { s.sync with counters := tabSet (fun _ => {}) s.sync.counters n x } := rfl
@[simp] theorem State.setCounter_tally (n : Nat) (x : Counter) : (s.setCounter n x).tally = s.tally := rfl
@[simp] theorem State.setCounter_twin (n : Nat) (x : Counter) : (s.setCounter n x).twin = s.twin := rfl
@[simp] theorem State.setCounter_num (n : Nat) (x : Counter) : (s.setCounter n x).num = s.num := rfl
@[simp] theorem State.setCounter_refiner (n : Nat) (x : Counter) : (s.setCounter n x).refiner = s.refiner := rfl
@[simp] theorem State.setCounter_integ (n : Nat) (x : Counter) : (s.setCounter n x).integ = s.integ := rfl
@[simp] theorem State.setCounter_warden (n : Nat) (x : Counter) : (s.setCounter n x).warden = s.warden := rfl
@[simp] theorem State.setCounter_links (n : Nat) (x : Counter) : (s.setCounter n x).links = s.links := rfl
@[simp] theorem State.setCounter_net (n : Nat) (x : Counter) : (s.setCounter n x).net = s.net := rfl

/-! ### setWeir -/

@[simp] theorem State.setWeir_pending (w : Nat) (x : Weir) : (s.setWeir w x).pending = s.pending := rfl
@[simp] theorem State.setWeir_now (w : Nat) (x : Weir) : (s.setWeir w x).now = s.now := rfl
@[simp] theorem State.setWeir_fresh (w : Nat) (x : Weir) : (s.setWeir w x).fresh = s.fresh := rfl
@[simp] theorem State.setWeir_mgmt (w : Nat) (x : Weir) : (s.setWeir w x).mgmt = s.mgmt := rfl
@[simp] theorem State.setWeir_keeper (w : Nat) (x : Weir) : (s.setWeir w x).keeper = s.keeper := rfl
@[simp] theorem State.setWeir_img (w : Nat) (x : Weir) : (s.setWeir w x).img = s.img := rfl
@[simp] theorem State.setWeir_groups (w : Nat) (x : Weir) : (s.setWeir w x).groups = s.groups := rfl
@[simp] theorem State.setWeir_members (w : Nat) (x : Weir) : (s.setWeir w x).members = s.members := rfl
@[simp] theorem State.setWeir_queues (w : Nat) (x : Weir) : (s.setWeir w x).queues = s.queues := rfl
@[simp] theorem State.setWeir_sluice (w : Nat) (x : Weir) : (s.setWeir w x).sluice = s.sluice := rfl
@[simp] theorem State.setWeir_ops (w : Nat) (x : Weir) : (s.setWeir w x).ops = s.ops := rfl
@[simp] theorem State.setWeir_siphons (w : Nat) (x : Weir) : (s.setWeir w x).siphons = s.siphons := rfl
@[simp] theorem State.setWeir_fabricTimeoutUs (w : Nat) (x : Weir) : (s.setWeir w x).fabricTimeoutUs = s.fabricTimeoutUs := rfl
@[simp] theorem State.setWeir_cache (w : Nat) (x : Weir) : (s.setWeir w x).cache = s.cache := rfl
@[simp] theorem State.setWeir_sync (w : Nat) (x : Weir) : (s.setWeir w x).sync = { s.sync with weirs := tabSet (fun _ => {}) s.sync.weirs w x } := rfl
@[simp] theorem State.setWeir_tally (w : Nat) (x : Weir) : (s.setWeir w x).tally = s.tally := rfl
@[simp] theorem State.setWeir_twin (w : Nat) (x : Weir) : (s.setWeir w x).twin = s.twin := rfl
@[simp] theorem State.setWeir_num (w : Nat) (x : Weir) : (s.setWeir w x).num = s.num := rfl
@[simp] theorem State.setWeir_refiner (w : Nat) (x : Weir) : (s.setWeir w x).refiner = s.refiner := rfl
@[simp] theorem State.setWeir_integ (w : Nat) (x : Weir) : (s.setWeir w x).integ = s.integ := rfl
@[simp] theorem State.setWeir_warden (w : Nat) (x : Weir) : (s.setWeir w x).warden = s.warden := rfl
@[simp] theorem State.setWeir_links (w : Nat) (x : Weir) : (s.setWeir w x).links = s.links := rfl
@[simp] theorem State.setWeir_net (w : Nat) (x : Weir) : (s.setWeir w x).net = s.net := rfl

/-! ### setWindow -/

@[simp] theorem State.setWindow_pending (n : Nat) (x : Window) : (s.setWindow n x).pending = s.pending := rfl
@[simp] theorem State.setWindow_now (n : Nat) (x : Window) : (s.setWindow n x).now = s.now := rfl
@[simp] theorem State.setWindow_fresh (n : Nat) (x : Window) : (s.setWindow n x).fresh = s.fresh := rfl
@[simp] theorem State.setWindow_mgmt (n : Nat) (x : Window) : (s.setWindow n x).mgmt = s.mgmt := rfl
@[simp] theorem State.setWindow_keeper (n : Nat) (x : Window) : (s.setWindow n x).keeper = s.keeper := rfl
@[simp] theorem State.setWindow_img (n : Nat) (x : Window) : (s.setWindow n x).img = s.img := rfl
@[simp] theorem State.setWindow_groups (n : Nat) (x : Window) : (s.setWindow n x).groups = s.groups := rfl
@[simp] theorem State.setWindow_members (n : Nat) (x : Window) : (s.setWindow n x).members = s.members := rfl
@[simp] theorem State.setWindow_queues (n : Nat) (x : Window) : (s.setWindow n x).queues = s.queues := rfl
@[simp] theorem State.setWindow_sluice (n : Nat) (x : Window) : (s.setWindow n x).sluice = s.sluice := rfl
@[simp] theorem State.setWindow_ops (n : Nat) (x : Window) : (s.setWindow n x).ops = s.ops := rfl
@[simp] theorem State.setWindow_siphons (n : Nat) (x : Window) : (s.setWindow n x).siphons = s.siphons := rfl
@[simp] theorem State.setWindow_fabricTimeoutUs (n : Nat) (x : Window) : (s.setWindow n x).fabricTimeoutUs = s.fabricTimeoutUs := rfl
@[simp] theorem State.setWindow_cache (n : Nat) (x : Window) : (s.setWindow n x).cache = { s.cache with windows := tabSet (fun _ => {}) s.cache.windows n x } := rfl
@[simp] theorem State.setWindow_sync (n : Nat) (x : Window) : (s.setWindow n x).sync = s.sync := rfl
@[simp] theorem State.setWindow_tally (n : Nat) (x : Window) : (s.setWindow n x).tally = s.tally := rfl
@[simp] theorem State.setWindow_twin (n : Nat) (x : Window) : (s.setWindow n x).twin = s.twin := rfl
@[simp] theorem State.setWindow_num (n : Nat) (x : Window) : (s.setWindow n x).num = s.num := rfl
@[simp] theorem State.setWindow_refiner (n : Nat) (x : Window) : (s.setWindow n x).refiner = s.refiner := rfl
@[simp] theorem State.setWindow_integ (n : Nat) (x : Window) : (s.setWindow n x).integ = s.integ := rfl
@[simp] theorem State.setWindow_warden (n : Nat) (x : Window) : (s.setWindow n x).warden = s.warden := rfl
@[simp] theorem State.setWindow_links (n : Nat) (x : Window) : (s.setWindow n x).links = s.links := rfl
@[simp] theorem State.setWindow_net (n : Nat) (x : Window) : (s.setWindow n x).net = s.net := rfl

/-! ### setPace -/

@[simp] theorem State.setPace_pending (d : Nat) (x : PaceReg) : (s.setPace d x).pending = s.pending := rfl
@[simp] theorem State.setPace_now (d : Nat) (x : PaceReg) : (s.setPace d x).now = s.now := rfl
@[simp] theorem State.setPace_fresh (d : Nat) (x : PaceReg) : (s.setPace d x).fresh = s.fresh := rfl
@[simp] theorem State.setPace_mgmt (d : Nat) (x : PaceReg) : (s.setPace d x).mgmt = s.mgmt := rfl
@[simp] theorem State.setPace_keeper (d : Nat) (x : PaceReg) : (s.setPace d x).keeper = s.keeper := rfl
@[simp] theorem State.setPace_img (d : Nat) (x : PaceReg) : (s.setPace d x).img = s.img := rfl
@[simp] theorem State.setPace_groups (d : Nat) (x : PaceReg) : (s.setPace d x).groups = s.groups := rfl
@[simp] theorem State.setPace_members (d : Nat) (x : PaceReg) : (s.setPace d x).members = s.members := rfl
@[simp] theorem State.setPace_queues (d : Nat) (x : PaceReg) : (s.setPace d x).queues = s.queues := rfl
@[simp] theorem State.setPace_sluice (d : Nat) (x : PaceReg) : (s.setPace d x).sluice = s.sluice := rfl
@[simp] theorem State.setPace_ops (d : Nat) (x : PaceReg) : (s.setPace d x).ops = s.ops := rfl
@[simp] theorem State.setPace_siphons (d : Nat) (x : PaceReg) : (s.setPace d x).siphons = s.siphons := rfl
@[simp] theorem State.setPace_fabricTimeoutUs (d : Nat) (x : PaceReg) : (s.setPace d x).fabricTimeoutUs = s.fabricTimeoutUs := rfl
@[simp] theorem State.setPace_cache (d : Nat) (x : PaceReg) : (s.setPace d x).cache = s.cache := rfl
@[simp] theorem State.setPace_sync (d : Nat) (x : PaceReg) : (s.setPace d x).sync = s.sync := rfl
@[simp] theorem State.setPace_tally (d : Nat) (x : PaceReg) : (s.setPace d x).tally = s.tally := rfl
@[simp] theorem State.setPace_twin (d : Nat) (x : PaceReg) : (s.setPace d x).twin = s.twin := rfl
@[simp] theorem State.setPace_num (d : Nat) (x : PaceReg) : (s.setPace d x).num = s.num := rfl
@[simp] theorem State.setPace_refiner (d : Nat) (x : PaceReg) : (s.setPace d x).refiner = s.refiner := rfl
@[simp] theorem State.setPace_integ (d : Nat) (x : PaceReg) : (s.setPace d x).integ = s.integ := rfl
@[simp] theorem State.setPace_warden (d : Nat) (x : PaceReg) : (s.setPace d x).warden = { s.warden with pace := tabSet (fun _ => {}) s.warden.pace d x } := rfl
@[simp] theorem State.setPace_links (d : Nat) (x : PaceReg) : (s.setPace d x).links = s.links := rfl
@[simp] theorem State.setPace_net (d : Nat) (x : PaceReg) : (s.setPace d x).net = s.net := rfl

/-! ### updWarden -/

@[simp] theorem State.updWarden_pending (f : WardenSt → WardenSt) : (s.updWarden f).pending = s.pending := rfl
@[simp] theorem State.updWarden_now (f : WardenSt → WardenSt) : (s.updWarden f).now = s.now := rfl
@[simp] theorem State.updWarden_fresh (f : WardenSt → WardenSt) : (s.updWarden f).fresh = s.fresh := rfl
@[simp] theorem State.updWarden_mgmt (f : WardenSt → WardenSt) : (s.updWarden f).mgmt = s.mgmt := rfl
@[simp] theorem State.updWarden_keeper (f : WardenSt → WardenSt) : (s.updWarden f).keeper = s.keeper := rfl
@[simp] theorem State.updWarden_img (f : WardenSt → WardenSt) : (s.updWarden f).img = s.img := rfl
@[simp] theorem State.updWarden_groups (f : WardenSt → WardenSt) : (s.updWarden f).groups = s.groups := rfl
@[simp] theorem State.updWarden_members (f : WardenSt → WardenSt) : (s.updWarden f).members = s.members := rfl
@[simp] theorem State.updWarden_queues (f : WardenSt → WardenSt) : (s.updWarden f).queues = s.queues := rfl
@[simp] theorem State.updWarden_sluice (f : WardenSt → WardenSt) : (s.updWarden f).sluice = s.sluice := rfl
@[simp] theorem State.updWarden_ops (f : WardenSt → WardenSt) : (s.updWarden f).ops = s.ops := rfl
@[simp] theorem State.updWarden_siphons (f : WardenSt → WardenSt) : (s.updWarden f).siphons = s.siphons := rfl
@[simp] theorem State.updWarden_fabricTimeoutUs (f : WardenSt → WardenSt) : (s.updWarden f).fabricTimeoutUs = s.fabricTimeoutUs := rfl
@[simp] theorem State.updWarden_cache (f : WardenSt → WardenSt) : (s.updWarden f).cache = s.cache := rfl
@[simp] theorem State.updWarden_sync (f : WardenSt → WardenSt) : (s.updWarden f).sync = s.sync := rfl
@[simp] theorem State.updWarden_tally (f : WardenSt → WardenSt) : (s.updWarden f).tally = s.tally := rfl
@[simp] theorem State.updWarden_twin (f : WardenSt → WardenSt) : (s.updWarden f).twin = s.twin := rfl
@[simp] theorem State.updWarden_num (f : WardenSt → WardenSt) : (s.updWarden f).num = s.num := rfl
@[simp] theorem State.updWarden_refiner (f : WardenSt → WardenSt) : (s.updWarden f).refiner = s.refiner := rfl
@[simp] theorem State.updWarden_integ (f : WardenSt → WardenSt) : (s.updWarden f).integ = s.integ := rfl
@[simp] theorem State.updWarden_warden (f : WardenSt → WardenSt) : (s.updWarden f).warden = f s.warden := rfl
@[simp] theorem State.updWarden_links (f : WardenSt → WardenSt) : (s.updWarden f).links = s.links := rfl
@[simp] theorem State.updWarden_net (f : WardenSt → WardenSt) : (s.updWarden f).net = s.net := rfl

/-! ### updSync -/

@[simp] theorem State.updSync_pending (f : SyncSt → SyncSt) : (s.updSync f).pending = s.pending := rfl
@[simp] theorem State.updSync_now (f : SyncSt → SyncSt) : (s.updSync f).now = s.now := rfl
@[simp] theorem State.updSync_fresh (f : SyncSt → SyncSt) : (s.updSync f).fresh = s.fresh := rfl
@[simp] theorem State.updSync_mgmt (f : SyncSt → SyncSt) : (s.updSync f).mgmt = s.mgmt := rfl
@[simp] theorem State.updSync_keeper (f : SyncSt → SyncSt) : (s.updSync f).keeper = s.keeper := rfl
@[simp] theorem State.updSync_img (f : SyncSt → SyncSt) : (s.updSync f).img = s.img := rfl
@[simp] theorem State.updSync_groups (f : SyncSt → SyncSt) : (s.updSync f).groups = s.groups := rfl
@[simp] theorem State.updSync_members (f : SyncSt → SyncSt) : (s.updSync f).members = s.members := rfl
@[simp] theorem State.updSync_queues (f : SyncSt → SyncSt) : (s.updSync f).queues = s.queues := rfl
@[simp] theorem State.updSync_sluice (f : SyncSt → SyncSt) : (s.updSync f).sluice = s.sluice := rfl
@[simp] theorem State.updSync_ops (f : SyncSt → SyncSt) : (s.updSync f).ops = s.ops := rfl
@[simp] theorem State.updSync_siphons (f : SyncSt → SyncSt) : (s.updSync f).siphons = s.siphons := rfl
@[simp] theorem State.updSync_fabricTimeoutUs (f : SyncSt → SyncSt) : (s.updSync f).fabricTimeoutUs = s.fabricTimeoutUs := rfl
@[simp] theorem State.updSync_cache (f : SyncSt → SyncSt) : (s.updSync f).cache = s.cache := rfl
@[simp] theorem State.updSync_sync (f : SyncSt → SyncSt) : (s.updSync f).sync = f s.sync := rfl
@[simp] theorem State.updSync_tally (f : SyncSt → SyncSt) : (s.updSync f).tally = s.tally := rfl
@[simp] theorem State.updSync_twin (f : SyncSt → SyncSt) : (s.updSync f).twin = s.twin := rfl
@[simp] theorem State.updSync_num (f : SyncSt → SyncSt) : (s.updSync f).num = s.num := rfl
@[simp] theorem State.updSync_refiner (f : SyncSt → SyncSt) : (s.updSync f).refiner = s.refiner := rfl
@[simp] theorem State.updSync_integ (f : SyncSt → SyncSt) : (s.updSync f).integ = s.integ := rfl
@[simp] theorem State.updSync_warden (f : SyncSt → SyncSt) : (s.updSync f).warden = s.warden := rfl
@[simp] theorem State.updSync_links (f : SyncSt → SyncSt) : (s.updSync f).links = s.links := rfl
@[simp] theorem State.updSync_net (f : SyncSt → SyncSt) : (s.updSync f).net = s.net := rfl

/-! ### updKeeper -/

@[simp] theorem State.updKeeper_pending (f : KeeperSt → KeeperSt) : (s.updKeeper f).pending = s.pending := rfl
@[simp] theorem State.updKeeper_now (f : KeeperSt → KeeperSt) : (s.updKeeper f).now = s.now := rfl
@[simp] theorem State.updKeeper_fresh (f : KeeperSt → KeeperSt) : (s.updKeeper f).fresh = s.fresh := rfl
@[simp] theorem State.updKeeper_mgmt (f : KeeperSt → KeeperSt) : (s.updKeeper f).mgmt = s.mgmt := rfl
@[simp] theorem State.updKeeper_keeper (f : KeeperSt → KeeperSt) : (s.updKeeper f).keeper = f s.keeper := rfl
@[simp] theorem State.updKeeper_img (f : KeeperSt → KeeperSt) : (s.updKeeper f).img = s.img := rfl
@[simp] theorem State.updKeeper_groups (f : KeeperSt → KeeperSt) : (s.updKeeper f).groups = s.groups := rfl
@[simp] theorem State.updKeeper_members (f : KeeperSt → KeeperSt) : (s.updKeeper f).members = s.members := rfl
@[simp] theorem State.updKeeper_queues (f : KeeperSt → KeeperSt) : (s.updKeeper f).queues = s.queues := rfl
@[simp] theorem State.updKeeper_sluice (f : KeeperSt → KeeperSt) : (s.updKeeper f).sluice = s.sluice := rfl
@[simp] theorem State.updKeeper_ops (f : KeeperSt → KeeperSt) : (s.updKeeper f).ops = s.ops := rfl
@[simp] theorem State.updKeeper_siphons (f : KeeperSt → KeeperSt) : (s.updKeeper f).siphons = s.siphons := rfl
@[simp] theorem State.updKeeper_fabricTimeoutUs (f : KeeperSt → KeeperSt) : (s.updKeeper f).fabricTimeoutUs = s.fabricTimeoutUs := rfl
@[simp] theorem State.updKeeper_cache (f : KeeperSt → KeeperSt) : (s.updKeeper f).cache = s.cache := rfl
@[simp] theorem State.updKeeper_sync (f : KeeperSt → KeeperSt) : (s.updKeeper f).sync = s.sync := rfl
@[simp] theorem State.updKeeper_tally (f : KeeperSt → KeeperSt) : (s.updKeeper f).tally = s.tally := rfl
@[simp] theorem State.updKeeper_twin (f : KeeperSt → KeeperSt) : (s.updKeeper f).twin = s.twin := rfl
@[simp] theorem State.updKeeper_num (f : KeeperSt → KeeperSt) : (s.updKeeper f).num = s.num := rfl
@[simp] theorem State.updKeeper_refiner (f : KeeperSt → KeeperSt) : (s.updKeeper f).refiner = s.refiner := rfl
@[simp] theorem State.updKeeper_integ (f : KeeperSt → KeeperSt) : (s.updKeeper f).integ = s.integ := rfl
@[simp] theorem State.updKeeper_warden (f : KeeperSt → KeeperSt) : (s.updKeeper f).warden = s.warden := rfl
@[simp] theorem State.updKeeper_links (f : KeeperSt → KeeperSt) : (s.updKeeper f).links = s.links := rfl
@[simp] theorem State.updKeeper_net (f : KeeperSt → KeeperSt) : (s.updKeeper f).net = s.net := rfl

/-! ### updImg -/

@[simp] theorem State.updImg_pending (f : ImageSt → ImageSt) : (s.updImg f).pending = s.pending := rfl
@[simp] theorem State.updImg_now (f : ImageSt → ImageSt) : (s.updImg f).now = s.now := rfl
@[simp] theorem State.updImg_fresh (f : ImageSt → ImageSt) : (s.updImg f).fresh = s.fresh := rfl
@[simp] theorem State.updImg_mgmt (f : ImageSt → ImageSt) : (s.updImg f).mgmt = s.mgmt := rfl
@[simp] theorem State.updImg_keeper (f : ImageSt → ImageSt) : (s.updImg f).keeper = s.keeper := rfl
@[simp] theorem State.updImg_img (f : ImageSt → ImageSt) : (s.updImg f).img = f s.img := rfl
@[simp] theorem State.updImg_groups (f : ImageSt → ImageSt) : (s.updImg f).groups = s.groups := rfl
@[simp] theorem State.updImg_members (f : ImageSt → ImageSt) : (s.updImg f).members = s.members := rfl
@[simp] theorem State.updImg_queues (f : ImageSt → ImageSt) : (s.updImg f).queues = s.queues := rfl
@[simp] theorem State.updImg_sluice (f : ImageSt → ImageSt) : (s.updImg f).sluice = s.sluice := rfl
@[simp] theorem State.updImg_ops (f : ImageSt → ImageSt) : (s.updImg f).ops = s.ops := rfl
@[simp] theorem State.updImg_siphons (f : ImageSt → ImageSt) : (s.updImg f).siphons = s.siphons := rfl
@[simp] theorem State.updImg_fabricTimeoutUs (f : ImageSt → ImageSt) : (s.updImg f).fabricTimeoutUs = s.fabricTimeoutUs := rfl
@[simp] theorem State.updImg_cache (f : ImageSt → ImageSt) : (s.updImg f).cache = s.cache := rfl
@[simp] theorem State.updImg_sync (f : ImageSt → ImageSt) : (s.updImg f).sync = s.sync := rfl
@[simp] theorem State.updImg_tally (f : ImageSt → ImageSt) : (s.updImg f).tally = s.tally := rfl
@[simp] theorem State.updImg_twin (f : ImageSt → ImageSt) : (s.updImg f).twin = s.twin := rfl
@[simp] theorem State.updImg_num (f : ImageSt → ImageSt) : (s.updImg f).num = s.num := rfl
@[simp] theorem State.updImg_refiner (f : ImageSt → ImageSt) : (s.updImg f).refiner = s.refiner := rfl
@[simp] theorem State.updImg_integ (f : ImageSt → ImageSt) : (s.updImg f).integ = s.integ := rfl
@[simp] theorem State.updImg_warden (f : ImageSt → ImageSt) : (s.updImg f).warden = s.warden := rfl
@[simp] theorem State.updImg_links (f : ImageSt → ImageSt) : (s.updImg f).links = s.links := rfl
@[simp] theorem State.updImg_net (f : ImageSt → ImageSt) : (s.updImg f).net = s.net := rfl

/-! ### updInteg -/

@[simp] theorem State.updInteg_pending (f : IntegSt → IntegSt) : (s.updInteg f).pending = s.pending := rfl
@[simp] theorem State.updInteg_now (f : IntegSt → IntegSt) : (s.updInteg f).now = s.now := rfl
@[simp] theorem State.updInteg_fresh (f : IntegSt → IntegSt) : (s.updInteg f).fresh = s.fresh := rfl
@[simp] theorem State.updInteg_mgmt (f : IntegSt → IntegSt) : (s.updInteg f).mgmt = s.mgmt := rfl
@[simp] theorem State.updInteg_keeper (f : IntegSt → IntegSt) : (s.updInteg f).keeper = s.keeper := rfl
@[simp] theorem State.updInteg_img (f : IntegSt → IntegSt) : (s.updInteg f).img = s.img := rfl
@[simp] theorem State.updInteg_groups (f : IntegSt → IntegSt) : (s.updInteg f).groups = s.groups := rfl
@[simp] theorem State.updInteg_members (f : IntegSt → IntegSt) : (s.updInteg f).members = s.members := rfl
@[simp] theorem State.updInteg_queues (f : IntegSt → IntegSt) : (s.updInteg f).queues = s.queues := rfl
@[simp] theorem State.updInteg_sluice (f : IntegSt → IntegSt) : (s.updInteg f).sluice = s.sluice := rfl
@[simp] theorem State.updInteg_ops (f : IntegSt → IntegSt) : (s.updInteg f).ops = s.ops := rfl
@[simp] theorem State.updInteg_siphons (f : IntegSt → IntegSt) : (s.updInteg f).siphons = s.siphons := rfl
@[simp] theorem State.updInteg_fabricTimeoutUs (f : IntegSt → IntegSt) : (s.updInteg f).fabricTimeoutUs = s.fabricTimeoutUs := rfl
@[simp] theorem State.updInteg_cache (f : IntegSt → IntegSt) : (s.updInteg f).cache = s.cache := rfl
@[simp] theorem State.updInteg_sync (f : IntegSt → IntegSt) : (s.updInteg f).sync = s.sync := rfl
@[simp] theorem State.updInteg_tally (f : IntegSt → IntegSt) : (s.updInteg f).tally = s.tally := rfl
@[simp] theorem State.updInteg_twin (f : IntegSt → IntegSt) : (s.updInteg f).twin = s.twin := rfl
@[simp] theorem State.updInteg_num (f : IntegSt → IntegSt) : (s.updInteg f).num = s.num := rfl
@[simp] theorem State.updInteg_refiner (f : IntegSt → IntegSt) : (s.updInteg f).refiner = s.refiner := rfl
@[simp] theorem State.updInteg_integ (f : IntegSt → IntegSt) : (s.updInteg f).integ = f s.integ := rfl
@[simp] theorem State.updInteg_warden (f : IntegSt → IntegSt) : (s.updInteg f).warden = s.warden := rfl
@[simp] theorem State.updInteg_links (f : IntegSt → IntegSt) : (s.updInteg f).links = s.links := rfl
@[simp] theorem State.updInteg_net (f : IntegSt → IntegSt) : (s.updInteg f).net = s.net := rfl

/-! ### updCache -/

@[simp] theorem State.updCache_pending (f : CacheSt → CacheSt) : (s.updCache f).pending = s.pending := rfl
@[simp] theorem State.updCache_now (f : CacheSt → CacheSt) : (s.updCache f).now = s.now := rfl
@[simp] theorem State.updCache_fresh (f : CacheSt → CacheSt) : (s.updCache f).fresh = s.fresh := rfl
@[simp] theorem State.updCache_mgmt (f : CacheSt → CacheSt) : (s.updCache f).mgmt = s.mgmt := rfl
@[simp] theorem State.updCache_keeper (f : CacheSt → CacheSt) : (s.updCache f).keeper = s.keeper := rfl
@[simp] theorem State.updCache_img (f : CacheSt → CacheSt) : (s.updCache f).img = s.img := rfl
@[simp] theorem State.updCache_groups (f : CacheSt → CacheSt) : (s.updCache f).groups = s.groups := rfl
@[simp] theorem State.updCache_members (f : CacheSt → CacheSt) : (s.updCache f).members = s.members := rfl
@[simp] theorem State.updCache_queues (f : CacheSt → CacheSt) : (s.updCache f).queues = s.queues := rfl
@[simp] theorem State.updCache_sluice (f : CacheSt → CacheSt) : (s.updCache f).sluice = s.sluice := rfl
@[simp] theorem State.updCache_ops (f : CacheSt → CacheSt) : (s.updCache f).ops = s.ops := rfl
@[simp] theorem State.updCache_siphons (f : CacheSt → CacheSt) : (s.updCache f).siphons = s.siphons := rfl
@[simp] theorem State.updCache_fabricTimeoutUs (f : CacheSt → CacheSt) : (s.updCache f).fabricTimeoutUs = s.fabricTimeoutUs := rfl
@[simp] theorem State.updCache_cache (f : CacheSt → CacheSt) : (s.updCache f).cache = f s.cache := rfl
@[simp] theorem State.updCache_sync (f : CacheSt → CacheSt) : (s.updCache f).sync = s.sync := rfl
@[simp] theorem State.updCache_tally (f : CacheSt → CacheSt) : (s.updCache f).tally = s.tally := rfl
@[simp] theorem State.updCache_twin (f : CacheSt → CacheSt) : (s.updCache f).twin = s.twin := rfl
@[simp] theorem State.updCache_num (f : CacheSt → CacheSt) : (s.updCache f).num = s.num := rfl
@[simp] theorem State.updCache_refiner (f : CacheSt → CacheSt) : (s.updCache f).refiner = s.refiner := rfl
@[simp] theorem State.updCache_integ (f : CacheSt → CacheSt) : (s.updCache f).integ = s.integ := rfl
@[simp] theorem State.updCache_warden (f : CacheSt → CacheSt) : (s.updCache f).warden = s.warden := rfl
@[simp] theorem State.updCache_links (f : CacheSt → CacheSt) : (s.updCache f).links = s.links := rfl
@[simp] theorem State.updCache_net (f : CacheSt → CacheSt) : (s.updCache f).net = s.net := rfl

/-! ### updTally -/

@[simp] theorem State.updTally_pending (f : TallySt → TallySt) : (s.updTally f).pending = s.pending := rfl
@[simp] theorem State.updTally_now (f : TallySt → TallySt) : (s.updTally f).now = s.now := rfl
@[simp] theorem State.updTally_fresh (f : TallySt → TallySt) : (s.updTally f).fresh = s.fresh := rfl
@[simp] theorem State.updTally_mgmt (f : TallySt → TallySt) : (s.updTally f).mgmt = s.mgmt := rfl
@[simp] theorem State.updTally_keeper (f : TallySt → TallySt) : (s.updTally f).keeper = s.keeper := rfl
@[simp] theorem State.updTally_img (f : TallySt → TallySt) : (s.updTally f).img = s.img := rfl
@[simp] theorem State.updTally_groups (f : TallySt → TallySt) : (s.updTally f).groups = s.groups := rfl
@[simp] theorem State.updTally_members (f : TallySt → TallySt) : (s.updTally f).members = s.members := rfl
@[simp] theorem State.updTally_queues (f : TallySt → TallySt) : (s.updTally f).queues = s.queues := rfl
@[simp] theorem State.updTally_sluice (f : TallySt → TallySt) : (s.updTally f).sluice = s.sluice := rfl
@[simp] theorem State.updTally_ops (f : TallySt → TallySt) : (s.updTally f).ops = s.ops := rfl
@[simp] theorem State.updTally_siphons (f : TallySt → TallySt) : (s.updTally f).siphons = s.siphons := rfl
@[simp] theorem State.updTally_fabricTimeoutUs (f : TallySt → TallySt) : (s.updTally f).fabricTimeoutUs = s.fabricTimeoutUs := rfl
@[simp] theorem State.updTally_cache (f : TallySt → TallySt) : (s.updTally f).cache = s.cache := rfl
@[simp] theorem State.updTally_sync (f : TallySt → TallySt) : (s.updTally f).sync = s.sync := rfl
@[simp] theorem State.updTally_tally (f : TallySt → TallySt) : (s.updTally f).tally = f s.tally := rfl
@[simp] theorem State.updTally_twin (f : TallySt → TallySt) : (s.updTally f).twin = s.twin := rfl
@[simp] theorem State.updTally_num (f : TallySt → TallySt) : (s.updTally f).num = s.num := rfl
@[simp] theorem State.updTally_refiner (f : TallySt → TallySt) : (s.updTally f).refiner = s.refiner := rfl
@[simp] theorem State.updTally_integ (f : TallySt → TallySt) : (s.updTally f).integ = s.integ := rfl
@[simp] theorem State.updTally_warden (f : TallySt → TallySt) : (s.updTally f).warden = s.warden := rfl
@[simp] theorem State.updTally_links (f : TallySt → TallySt) : (s.updTally f).links = s.links := rfl
@[simp] theorem State.updTally_net (f : TallySt → TallySt) : (s.updTally f).net = s.net := rfl

/-! ### updTwin -/

@[simp] theorem State.updTwin_pending (f : TwinSt → TwinSt) : (s.updTwin f).pending = s.pending := rfl
@[simp] theorem State.updTwin_now (f : TwinSt → TwinSt) : (s.updTwin f).now = s.now := rfl
@[simp] theorem State.updTwin_fresh (f : TwinSt → TwinSt) : (s.updTwin f).fresh = s.fresh := rfl
@[simp] theorem State.updTwin_mgmt (f : TwinSt → TwinSt) : (s.updTwin f).mgmt = s.mgmt := rfl
@[simp] theorem State.updTwin_keeper (f : TwinSt → TwinSt) : (s.updTwin f).keeper = s.keeper := rfl
@[simp] theorem State.updTwin_img (f : TwinSt → TwinSt) : (s.updTwin f).img = s.img := rfl
@[simp] theorem State.updTwin_groups (f : TwinSt → TwinSt) : (s.updTwin f).groups = s.groups := rfl
@[simp] theorem State.updTwin_members (f : TwinSt → TwinSt) : (s.updTwin f).members = s.members := rfl
@[simp] theorem State.updTwin_queues (f : TwinSt → TwinSt) : (s.updTwin f).queues = s.queues := rfl
@[simp] theorem State.updTwin_sluice (f : TwinSt → TwinSt) : (s.updTwin f).sluice = s.sluice := rfl
@[simp] theorem State.updTwin_ops (f : TwinSt → TwinSt) : (s.updTwin f).ops = s.ops := rfl
@[simp] theorem State.updTwin_siphons (f : TwinSt → TwinSt) : (s.updTwin f).siphons = s.siphons := rfl
@[simp] theorem State.updTwin_fabricTimeoutUs (f : TwinSt → TwinSt) : (s.updTwin f).fabricTimeoutUs = s.fabricTimeoutUs := rfl
@[simp] theorem State.updTwin_cache (f : TwinSt → TwinSt) : (s.updTwin f).cache = s.cache := rfl
@[simp] theorem State.updTwin_sync (f : TwinSt → TwinSt) : (s.updTwin f).sync = s.sync := rfl
@[simp] theorem State.updTwin_tally (f : TwinSt → TwinSt) : (s.updTwin f).tally = s.tally := rfl
@[simp] theorem State.updTwin_twin (f : TwinSt → TwinSt) : (s.updTwin f).twin = f s.twin := rfl
@[simp] theorem State.updTwin_num (f : TwinSt → TwinSt) : (s.updTwin f).num = s.num := rfl
@[simp] theorem State.updTwin_refiner (f : TwinSt → TwinSt) : (s.updTwin f).refiner = s.refiner := rfl
@[simp] theorem State.updTwin_integ (f : TwinSt → TwinSt) : (s.updTwin f).integ = s.integ := rfl
@[simp] theorem State.updTwin_warden (f : TwinSt → TwinSt) : (s.updTwin f).warden = s.warden := rfl
@[simp] theorem State.updTwin_links (f : TwinSt → TwinSt) : (s.updTwin f).links = s.links := rfl
@[simp] theorem State.updTwin_net (f : TwinSt → TwinSt) : (s.updTwin f).net = s.net := rfl

/-! ### updOp -/

@[simp] theorem State.updOp_pending (q c : Nat) (f : Op → Op) : (s.updOp q c f).pending = s.pending := rfl
@[simp] theorem State.updOp_now (q c : Nat) (f : Op → Op) : (s.updOp q c f).now = s.now := rfl
@[simp] theorem State.updOp_fresh (q c : Nat) (f : Op → Op) : (s.updOp q c f).fresh = s.fresh := rfl
@[simp] theorem State.updOp_mgmt (q c : Nat) (f : Op → Op) : (s.updOp q c f).mgmt = s.mgmt := rfl
@[simp] theorem State.updOp_keeper (q c : Nat) (f : Op → Op) : (s.updOp q c f).keeper = s.keeper := rfl
@[simp] theorem State.updOp_img (q c : Nat) (f : Op → Op) : (s.updOp q c f).img = s.img := rfl
@[simp] theorem State.updOp_groups (q c : Nat) (f : Op → Op) : (s.updOp q c f).groups = s.groups := rfl
@[simp] theorem State.updOp_members (q c : Nat) (f : Op → Op) : (s.updOp q c f).members = s.members := rfl
@[simp] theorem State.updOp_queues (q c : Nat) (f : Op → Op) : (s.updOp q c f).queues = s.queues := rfl
@[simp] theorem State.updOp_sluice (q c : Nat) (f : Op → Op) : (s.updOp q c f).sluice = s.sluice := rfl
@[simp] theorem State.updOp_ops (q c : Nat) (f : Op → Op) : (s.updOp q c f).ops = mapIf (fun o => o.is q c) f s.ops := rfl
@[simp] theorem State.updOp_siphons (q c : Nat) (f : Op → Op) : (s.updOp q c f).siphons = s.siphons := rfl
@[simp] theorem State.updOp_fabricTimeoutUs (q c : Nat) (f : Op → Op) : (s.updOp q c f).fabricTimeoutUs = s.fabricTimeoutUs := rfl
@[simp] theorem State.updOp_cache (q c : Nat) (f : Op → Op) : (s.updOp q c f).cache = s.cache := rfl
@[simp] theorem State.updOp_sync (q c : Nat) (f : Op → Op) : (s.updOp q c f).sync = s.sync := rfl
@[simp] theorem State.updOp_tally (q c : Nat) (f : Op → Op) : (s.updOp q c f).tally = s.tally := rfl
@[simp] theorem State.updOp_twin (q c : Nat) (f : Op → Op) : (s.updOp q c f).twin = s.twin := rfl
@[simp] theorem State.updOp_num (q c : Nat) (f : Op → Op) : (s.updOp q c f).num = s.num := rfl
@[simp] theorem State.updOp_refiner (q c : Nat) (f : Op → Op) : (s.updOp q c f).refiner = s.refiner := rfl
@[simp] theorem State.updOp_integ (q c : Nat) (f : Op → Op) : (s.updOp q c f).integ = s.integ := rfl
@[simp] theorem State.updOp_warden (q c : Nat) (f : Op → Op) : (s.updOp q c f).warden = s.warden := rfl
@[simp] theorem State.updOp_links (q c : Nat) (f : Op → Op) : (s.updOp q c f).links = s.links := rfl
@[simp] theorem State.updOp_net (q c : Nat) (f : Op → Op) : (s.updOp q c f).net = s.net := rfl

/-! ### removeOp -/

@[simp] theorem State.removeOp_pending (q c : Nat) : (s.removeOp q c).pending = s.pending := rfl
@[simp] theorem State.removeOp_now (q c : Nat) : (s.removeOp q c).now = s.now := rfl
@[simp] theorem State.removeOp_fresh (q c : Nat) : (s.removeOp q c).fresh = s.fresh := rfl
@[simp] theorem State.removeOp_mgmt (q c : Nat) : (s.removeOp q c).mgmt = s.mgmt := rfl
@[simp] theorem State.removeOp_keeper (q c : Nat) : (s.removeOp q c).keeper = s.keeper := rfl
@[simp] theorem State.removeOp_img (q c : Nat) : (s.removeOp q c).img = s.img := rfl
@[simp] theorem State.removeOp_groups (q c : Nat) : (s.removeOp q c).groups = s.groups := rfl
@[simp] theorem State.removeOp_members (q c : Nat) : (s.removeOp q c).members = s.members := rfl
@[simp] theorem State.removeOp_queues (q c : Nat) : (s.removeOp q c).queues = s.queues := rfl
@[simp] theorem State.removeOp_sluice (q c : Nat) : (s.removeOp q c).sluice = s.sluice := rfl
@[simp] theorem State.removeOp_ops (q c : Nat) : (s.removeOp q c).ops = s.ops.filter fun o => !(o.is q c) := rfl
@[simp] theorem State.removeOp_siphons (q c : Nat) : (s.removeOp q c).siphons = s.siphons := rfl
@[simp] theorem State.removeOp_fabricTimeoutUs (q c : Nat) : (s.removeOp q c).fabricTimeoutUs = s.fabricTimeoutUs := rfl
@[simp] theorem State.removeOp_cache (q c : Nat) : (s.removeOp q c).cache = s.cache := rfl
@[simp] theorem State.removeOp_sync (q c : Nat) : (s.removeOp q c).sync = s.sync := rfl
@[simp] theorem State.removeOp_tally (q c : Nat) : (s.removeOp q c).tally = s.tally := rfl
@[simp] theorem State.removeOp_twin (q c : Nat) : (s.removeOp q c).twin = s.twin := rfl
@[simp] theorem State.removeOp_num (q c : Nat) : (s.removeOp q c).num = s.num := rfl
@[simp] theorem State.removeOp_refiner (q c : Nat) : (s.removeOp q c).refiner = s.refiner := rfl
@[simp] theorem State.removeOp_integ (q c : Nat) : (s.removeOp q c).integ = s.integ := rfl
@[simp] theorem State.removeOp_warden (q c : Nat) : (s.removeOp q c).warden = s.warden := rfl
@[simp] theorem State.removeOp_links (q c : Nat) : (s.removeOp q c).links = s.links := rfl
@[simp] theorem State.removeOp_net (q c : Nat) : (s.removeOp q c).net = s.net := rfl

end Sys2Proof.Machine
end

