-- ==== Sys2Proof/Laws/Tab.lean ====
section
/-! SUPPORT. The sparse tables: a read after a write, and the canonical form that every write keeps. -/

namespace Sys2Proof.Machine

variable {α : Type}

theorem tabGet_tabErase_same (d : Nat → α) (t : Tab α) (k : Nat) : tabGet d (tabErase t k) k = d k := by
  induction t with
  | nil => rfl
  | cons p t ih => obtain ⟨j, v⟩ := p; by_cases h : j = k <;> simp [tabErase, tabGet, h, ih]

theorem tabGet_tabErase_other (d : Nat → α) (t : Tab α) {k n : Nat} (h : n ≠ k) : tabGet d (tabErase t k) n = tabGet d t n := by
  induction t with
  | nil => rfl
  | cons p t ih =>
    obtain ⟨j, v⟩ := p
    by_cases hk : j = k
    · have : j ≠ n := fun e => h (e.symm.trans hk)
      simp [tabErase, tabGet, hk, ih, Ne.symm h]
    · simp [tabErase, tabGet, hk, ih]

theorem tabGet_tabInsert_same (d : Nat → α) (t : Tab α) (k : Nat) (v : α) : tabGet d (tabInsert t k v) k = v := by
  induction t with
  | nil => simp [tabInsert, tabGet]
  | cons p t ih =>
    obtain ⟨j, w⟩ := p
    rcases Nat.lt_trichotomy j k with h | h | h
    · simp [tabInsert, tabGet, h, Nat.ne_of_lt h, ih]
    · simp [tabInsert, tabGet, h]
    · simp [tabInsert, tabGet, Nat.not_lt_of_lt h, (Nat.ne_of_lt h).symm]

theorem tabGet_tabInsert_other (d : Nat → α) (t : Tab α) {k n : Nat} (v : α) (h : n ≠ k) :
    tabGet d (tabInsert t k v) n = tabGet d t n := by
  induction t with
  | nil => simp [tabInsert, tabGet, Ne.symm h]
  | cons p t ih =>
    obtain ⟨j, w⟩ := p
    rcases Nat.lt_trichotomy j k with hj | hj | hj
    · simp [tabInsert, tabGet, hj, ih]
    · simp [tabInsert, tabGet, hj, Ne.symm h]
    · simp [tabInsert, tabGet, Nat.not_lt_of_lt hj, (Nat.ne_of_lt hj).symm, Ne.symm h]

/-- A unit reads what was written to it. -/
@[simp] theorem tabGet_tabSet_same [DecidableEq α] (d : Nat → α) (t : Tab α) (k : Nat) (v : α) :
    tabGet d (tabSet d t k v) k = v := by
  unfold tabSet
  split
  · rename_i h; rw [tabGet_tabErase_same, h]
  · exact tabGet_tabInsert_same d t k v

/-- A write leaves every other unit alone. -/
theorem tabGet_tabSet_other [DecidableEq α] (d : Nat → α) (t : Tab α) {k n : Nat} (v : α) (h : n ≠ k) :
    tabGet d (tabSet d t k v) n = tabGet d t n := by
  unfold tabSet
  split
  · exact tabGet_tabErase_other d t h
  · exact tabGet_tabInsert_other d t v h

theorem tabWfFrom_mono [DecidableEq α] (d : Nat → α) (t : Tab α) {a b : Nat} (h : a ≤ b) (w : tabWfFrom d b t = true) :
    tabWfFrom d a t = true := by
  cases t with
  | nil => rfl
  | cons p t =>
    obtain ⟨j, v⟩ := p
    simp only [tabWfFrom, Bool.and_eq_true, decide_eq_true_eq] at w ⊢
    exact ⟨⟨h.trans w.1.1, w.1.2⟩, w.2⟩

theorem tabWfFrom_tabErase [DecidableEq α] (d : Nat → α) (t : Tab α) (k : Nat) {a : Nat} (w : tabWfFrom d a t = true) :
    tabWfFrom d a (tabErase t k) = true := by
  induction t generalizing a with
  | nil => rfl
  | cons p t ih =>
    obtain ⟨j, v⟩ := p
    simp only [tabWfFrom, Bool.and_eq_true, decide_eq_true_eq] at w
    have later := ih w.2
    by_cases h : j = k
    · simp only [tabErase, h, if_true]
      exact tabWfFrom_mono d _ (Nat.le_succ_of_le w.1.1) (h ▸ later)
    · simp only [tabErase, h, if_false, tabWfFrom, Bool.and_eq_true, decide_eq_true_eq]
      exact ⟨w.1, later⟩

theorem tabWfFrom_tabInsert [DecidableEq α] (d : Nat → α) (t : Tab α) {a k : Nat} {v : α} (w : tabWfFrom d a t = true)
    (hk : a ≤ k) (hv : v ≠ d k) : tabWfFrom d a (tabInsert t k v) = true := by
  induction t generalizing a with
  | nil => simp [tabInsert, tabWfFrom, hk, hv]
  | cons p t ih =>
    obtain ⟨j, u⟩ := p
    have w' := w
    simp only [tabWfFrom, Bool.and_eq_true, decide_eq_true_eq] at w
    rcases Nat.lt_trichotomy j k with h | h | h
    · simp only [tabInsert, h, if_true, tabWfFrom, Bool.and_eq_true, decide_eq_true_eq]
      exact ⟨w.1, ih w.2 h⟩
    · subst h
      simp [tabInsert, tabWfFrom, hk, hv, w.2]
    · have later : tabWfFrom d (k + 1) ((j, u) :: t) = true := by
        simp only [tabWfFrom, Bool.and_eq_true, decide_eq_true_eq]
        exact ⟨⟨h, w.1.2⟩, w.2⟩
      have e : tabInsert ((j, u) :: t) k v = (k, v) :: (j, u) :: t := by
        simp [tabInsert, Nat.not_lt_of_lt h, (Nat.ne_of_lt h).symm]
      rw [e]
      simp only [tabWfFrom, Bool.and_eq_true, decide_eq_true_eq] at later ⊢
      exact ⟨⟨hk, hv⟩, later⟩

/-- A write keeps the canonical form: indices rise, and no unit in its reset state is listed. -/
theorem tabWf_tabSet [DecidableEq α] (d : Nat → α) (t : Tab α) (k : Nat) (v : α) (w : tabWf d t = true) :
    tabWf d (tabSet d t k v) = true := by
  unfold tabSet tabWf at *
  split
  · exact tabWfFrom_tabErase d t k w
  · rename_i h; exact tabWfFrom_tabInsert d t w (Nat.zero_le k) h

/-- A buffer that is written byte by byte keeps the canonical form. -/
theorem tabWf_bufWrite (t : Tab Byte) (off : Nat) (bs : List Byte) (w : tabWf (fun _ => 0) t = true) :
    tabWf (fun _ => 0) (bufWrite t off bs) = true := by
  induction bs generalizing t off with
  | nil => exact w
  | cons b bs ih => exact ih _ _ (tabWf_tabSet _ t off b w)

/-! ### The units of the engine -/

@[simp] theorem State.queue_setQueue (s : State) (q : Nat) (x : QueueSt) : (s.setQueue q x).queue q = x :=
  tabGet_tabSet_same _ _ _ _
theorem State.queue_setQueue_other (s : State) {q r : Nat} (x : QueueSt) (h : r ≠ q) : (s.setQueue q x).queue r = s.queue r :=
  tabGet_tabSet_other _ _ _ h
@[simp] theorem State.group_setGroup (s : State) (g : Nat) (x : GroupSt) : (s.setGroup g x).group g = x :=
  tabGet_tabSet_same _ _ _ _
theorem State.group_setGroup_other (s : State) {g h : Nat} (x : GroupSt) (e : h ≠ g) : (s.setGroup g x).group h = s.group h :=
  tabGet_tabSet_other _ _ _ e
@[simp] theorem State.member_setMember (s : State) (i : Nat) (x : Member) : (s.setMember i x).member i = x :=
  tabGet_tabSet_same _ _ _ _
@[simp] theorem State.siphon_setSiphon (s : State) (i : Nat) (x : SiphonSt) : (s.setSiphon i x).siphon i = x :=
  tabGet_tabSet_same _ _ _ _
@[simp] theorem State.link_setLink (s : State) (n : Nat) (x : LinkSt) : (s.setLink n x).link n = x :=
  tabGet_tabSet_same _ _ _ _
theorem State.link_setLink_other (s : State) {n m : Nat} (x : LinkSt) (h : m ≠ n) : (s.setLink n x).link m = s.link m :=
  tabGet_tabSet_other _ _ _ h
@[simp] theorem State.counter_setCounter (s : State) (n : Nat) (x : Counter) : (s.setCounter n x).counter n = x :=
  tabGet_tabSet_same _ _ _ _
theorem State.counter_setCounter_other (s : State) {n m : Nat} (x : Counter) (h : m ≠ n) :
    (s.setCounter n x).counter m = s.counter m := tabGet_tabSet_other _ _ _ h
@[simp] theorem State.weir_setWeir (s : State) (w : Nat) (x : Weir) : (s.setWeir w x).weir w = x :=
  tabGet_tabSet_same _ _ _ _
@[simp] theorem State.window_setWindow (s : State) (n : Nat) (x : Window) : (s.setWindow n x).window n = x :=
  tabGet_tabSet_same _ _ _ _
@[simp] theorem State.pace_setPace (s : State) (d : Nat) (x : PaceReg) : (s.setPace d x).pace d = x :=
  tabGet_tabSet_same _ _ _ _

end Sys2Proof.Machine
end

