-- ==== Sys2Proof/Safety.lean ====
section
/-! DEFINITION. What counts as a safe run, in the terms that the statements use: who asks for an access, what an answered access
leaves, and what the management plane always holds. -/

namespace Sys2Proof.Machine

/-- The request of a command of the management port (12 R482). -/
def Instr.requester (i : Instr) : Option Mgmt :=
  match i with
  | .load m | .discard m | .start m | .warmReset m | .keeperClaim m | .keeperLease m _ | .keeperHandover m _
  | .keeperFreeze m _ | .keeperThaw m _ | .writeWithoutOwnership m _ _ | .registerWrite m _ _ | .rcRead m _
  | .memberEntryWrite m _ _ _ | .enable m _ | .queueDisable m _ | .cancel m _ | .kick m _ | .queueHead m _ _ | .resume m _
  | .flush m | .cacheWindowWrite m _ _ _ | .groupResume m _ | .groupHalt m _ | .dump m | .syncValueWrite m _ _ | .force m _
  | .twinCtrlWrite m _ | .go m _ | .paceWrite m _ _ | .baseMvWrite m _ | .clearRelief m | .request m _ | .restore m
  | .retrain m _ | .linkEnWrite m _ _ => some m
  | _ => none

/-- The commands of the management port that write (00 R11); the others read. -/
def Instr.writes (i : Instr) : Bool :=
  match i with
  | .keeperClaim _ | .rcRead _ _ => false
  | i => (Instr.requester i).isSome

/-- The state in which the port has answered an access, and nothing else has changed (12 R482). -/
def State.answered (s : State) (m : Mgmt) (status : Nat) (data : W64) : State :=
  { s with mgmt := { s.mgmt with resp := some ⟨m.id, m.agent, status, data⟩ } }

/-- An agent that may write: the port is ready, the agent is not frozen, and it owns the engine (00 R17; 02 R85, R88). -/
def State.MayWrite (s : State) (m : Mgmt) : Prop :=
  s.mgmt.portReady = true ∧ s.isFrozen m.agent = false ∧ s.owns m.agent = true

/-- The state after an owner's accepted write whose effect gives `t`: the lease starts again where the writer still owns the
engine, the access is answered OK, and the port keeps the rest (02 R85; 12 R482). -/
def State.accepted (s : State) (m : Mgmt) (t : State) : State :=
  State.answered { (if t.owns m.agent then { t with keeper := { t.keeper with leaseAt := t.now } } else t) with
    pending := s.pending, now := s.now, mgmt := s.mgmt } m 0 0

/-- The state after a claim read by a non-frozen agent whose effect on the keeper is `k`. -/
def State.claimed (s : State) (m : Mgmt) (k : KeeperSt) : State :=
  State.answered { s with keeper := k } m 0 (BitVec.ofNat 64 (State.keeperState { s with keeper := k }))

/-- The started entry `o` of queue `q` and count `c` waits in the dispatch queue with an opcode (03 R108). -/
def State.dispatchable (s : State) (q c opcode : Nat) (o : Op) : Prop :=
  s.op? q c = some o ∧ o.desc.opcode = opcode ∧ o.running = false ∧ o.ended = none

/-- What a command that leaves the management plane alone makes of an effect `t` on `s`. -/
def State.plain (s t : State) : State := { t with pending := s.pending, now := s.now, mgmt := s.mgmt }

/-- The registers whose fields are all RO (13, register lists). -/
def Reg.readOnly (r : Reg) : Bool :=
  match r with
  | .engineInfo | .idLo | .idHi | .idCheck | .engineAddr | .siphonStatus _ | .splitActive | .cacheHits | .cacheMisses
  | .pausedMap _ | .tallyNow | .tallyLate | .detStatus | .twinDivEntry | .twinDivKey | .twinDivCheck | .twinDivTally
  | .queueFetch _ | .queueStatus _ | .queueMap _ | .queueGrants _ | .resumeEntry _ | .resumeAddr _ | .resumeRpos _
  | .resumeWpos _ | .resumeTally _ | .groupRec _ _ | .groupSlow _ _ | .groupStep _ | .syncLast _ | .waiter _ | .syncRefusal
  | .refineEta _ | .refineBc _ | .refineSkew _ | .numFormats | .numBlock | .testOutLo | .testOutHi | .amax _ | .recallProd
  | .guardActive _ | .digestLatch _ | .vengStatus | .testStatus | .faultProd | .fenceStatus | .laneLo | .laneHi | .faultLog _ _
  | .keeperState | .freezeCause | .activeHash | .stagedHash | .linkPeer _ | .linkPeerId _ | .linkMap _ => true
  | _ => false

/-- What the management plane always holds: the port accepts accesses only after release, an identity is derived only after
release and reads 0 until then, the die address has 18 bits, and a response is one that the port can give (02 R90, R95;
12 R482; 13 R499, R500). -/
structure MgmtSt.Sound (x : MgmtSt) : Prop where
  ready : x.portReady = true → x.released = true
  derived : x.idDerived = true → x.released = true
  blank : x.idDerived = false → x.idLo = 0 ∧ x.idHi = 0
  address : x.dieAddr < 2 ^ 18
  answer : ∀ r, x.resp = some r → r.status ≤ 2 ∧ r.agent < 8 ∧ r.id < 16 ∧ (r.status ≠ 0 → r.data = 0)

/-- A run of `k` steps that neither faults nor is refused. -/
def State.Safe (s : State) : Nat → Prop
  | 0 => True
  | k + 1 => ∃ t, step s = .next t ∧ State.Safe t k

end Sys2Proof.Machine
end

