-- ==== Sys2Proof/Laws/Access.lean ====
section
/-! SUPPORT. What an outcome keeps, and everything that an access of the management port can do. -/

namespace Sys2Proof.Machine

theorem finish_next {s t u : State} (h : finish s t = .next u) : u = { t with pending := s.pending, now := s.now } := by
  cases h; rfl

theorem finishPlain_eq (s t : State) : finishPlain s t = .next (State.plain s t) := rfl

theorem checked_true (what : String) (o : Host.Outcome State Fault Refusal) : checked true what o = o := rfl

theorem checked_false (what : String) (o : Host.Outcome State Fault Refusal) :
    checked false what o = .fault (.illFormed what) := rfl

/-- A command that must be well formed goes on only if it is. -/
theorem checked_next {ok : Bool} {what : String} {o : Host.Outcome State Fault Refusal} {t : State}
    (h : checked ok what o = .next t) : ok = true ∧ o = .next t := by
  cases ok
  · cases h
  · exact ⟨rfl, h⟩

theorem respond_eq (s : State) (m : Mgmt) (status : Nat) (data : W64) : respond s m status data = State.answered s m status data :=
  rfl

theorem ownerWrite_unready {s : State} (m : Mgmt) (f : State → State) (h : s.mgmt.portReady = false) :
    ownerWrite s m f = State.answered s m 1 0 := by simp [ownerWrite, h, respond_eq, respError]

theorem ownerWrite_frozen {s : State} {m : Mgmt} (f : State → State) (r : s.mgmt.portReady = true)
    (h : s.isFrozen m.agent = true) : ownerWrite s m f = State.answered s m 2 0 := by
  simp [ownerWrite, r, h, respond_eq, respFrozen]

theorem ownerWrite_foreign {s : State} {m : Mgmt} (f : State → State) (r : s.mgmt.portReady = true)
    (h : s.isFrozen m.agent = false) (n : s.owns m.agent = false) : ownerWrite s m f = foreignWrite s m := by
  simp [ownerWrite, r, h, n]

theorem ownerWrite_owner {s : State} {m : Mgmt} (f : State → State) (h : State.MayWrite s m) : ownerWrite s m f = f s := by
  simp [ownerWrite, h.1, h.2.1, h.2.2]

/-- An owner's write whose effect is accepted. -/
theorem mgmtWrite_accepted {s t : State} {m : Mgmt} {f : State → Option State} (h : State.MayWrite s m) (e : f s = some t) :
    finish s (mgmtWrite s m f) = .next (State.accepted s m t) := by
  rw [mgmtWrite, ownerWrite_owner _ h, e]; rfl

/-- An owner's write that is rejected changes nothing. -/
theorem mgmtWrite_rejected {s : State} {m : Mgmt} {f : State → Option State} (h : State.MayWrite s m) (e : f s = none) :
    mgmtWrite s m f = State.answered s m 1 0 := by
  rw [mgmtWrite, ownerWrite_owner _ h, e]; rfl

/-- A write without ownership leaves its answer, and the rest of the port as it was. -/
theorem foreignWrite_mgmt (s : State) (m : Mgmt) : (foreignWrite s m).mgmt =
    { s.mgmt with resp := some ⟨m.id, m.agent, if Config.frozenAnswer s.fresh then 2 else 1, 0⟩ } := by
  have h : ∀ t : State, (freezeAgent t m.agent causeWrite).mgmt = t.mgmt := by
    intro t; unfold freezeAgent; split
    · rfl
    · split <;> rfl
  simp [foreignWrite, respond, h, respFrozen, respError]

/-- A write keeps what the port and the identity hold, but for the response. -/
theorem mgmtWrite_mgmt (s : State) (m : Mgmt) (f : State → Option State) :
    ∃ r : Resp, (mgmtWrite s m f).mgmt = { s.mgmt with resp := some r } ∧ r.id = m.id ∧ r.agent = m.agent ∧ r.status ≤ 2 ∧
      (r.status ≠ 0 → r.data = 0) := by
  unfold mgmtWrite ownerWrite
  split
  · exact ⟨⟨m.id, m.agent, 1, 0⟩, rfl, rfl, rfl, Nat.le_of_ble_eq_true rfl, fun _ => rfl⟩
  split
  · exact ⟨⟨m.id, m.agent, 2, 0⟩, rfl, rfl, rfl, Nat.le_refl 2, fun _ => rfl⟩
  split
  · exact ⟨_, foreignWrite_mgmt s m, rfl, rfl, by dsimp only; split <;> omega, fun _ => rfl⟩
  dsimp only
  split
  · exact ⟨⟨m.id, m.agent, 1, 0⟩, rfl, rfl, rfl, Nat.le_of_ble_eq_true rfl, fun _ => rfl⟩
  · exact ⟨⟨m.id, m.agent, 0, 0⟩, rfl, rfl, rfl, Nat.zero_le 2, fun h => absurd rfl h⟩

end Sys2Proof.Machine
end

