-- ==== Sys2Proof/Certificates/Slice0/Obligations.lean ====
section
/-! DEFINITION. The statements about this model, for the provers. Each says in its docstring which rule of spec/ it formalises;
a statement about a free value holds for every value of it. -/

open Sys2Proof Sys2Proof.Machine

/-! ### The step -/

/-- A step with a command at the front of the queue is `exec` of that command on the state with the queue's rest. -/
def Obligations.StepRunsFrontCommand : Prop :=
  ∀ (c : Instr) (rest : List Instr) (s : State), s.pending = c :: rest → step s = exec c { s with pending := rest }

/-- With no command waiting, a step is one nanosecond (log entry 1): the tally and the surge ledger count, the sluice's round
and the time of quiescence may begin or end, and all else stays; where no surge is under way, a wake pulse ends once it has lasted
2 ns (12 R484), and the warden's log, the siphons and the queues stay as well (2,000 ns of quiescence end a surge, with its record: 11
R441). -/
def Obligations.EmptyQueuePassesOneNanosecond : Prop :=
  ∀ s : State, s.pending = [] → ∃ t, step s = .next t ∧ t.now = s.now + 1 ∧ t.pending = [] ∧
    t.tally = s.tally.advance ∧ t.sync.counters = s.sync.counters ∧ t.sync.weirs = s.sync.weirs ∧
    t.sync.waiters = s.sync.waiters ∧ t.sync.held = s.sync.held ∧
    t.warden.ledgerMs * 1000000 + t.warden.ledgerNs =
      s.warden.ledgerMs * 1000000 + s.warden.ledgerNs + b1 s.warden.surging ∧
    (s.warden.surging = false → (∀ p, p ∈ t.sync.wakeOut ↔ p ∈ s.sync.wakeOut ∧ s.now < p.2 + 2) ∧ t.warden.log = s.warden.log ∧ t.siphons = s.siphons ∧
      t.queues = s.queues) ∧
    t.warden.pace = s.warden.pace ∧ t.sluice.credits = s.sluice.credits ∧
    t.fresh = s.fresh ∧ t.mgmt = s.mgmt ∧ t.keeper = { s.keeper with phase := t.keeper.phase } ∧
    (t.keeper.phase ≠ s.keeper.phase → s.keeper.phase = .lowWater ∧ t.keeper.phase = .full ∧ s.tally.lock = false ∧ t.tally.lock = true) ∧
    t.img = s.img ∧ t.groups = s.groups ∧ t.members = s.members ∧ t.ops = s.ops ∧ t.cache = s.cache ∧
    t.twin = s.twin ∧ t.num = s.num ∧ t.refiner = s.refiner ∧ t.integ = s.integ ∧ t.links = s.links ∧ t.net = s.net

/-- No command changes the queue of commands or the time. -/
def Obligations.ExecKeepsQueueAndTime : Prop :=
  ∀ (i : Instr) (s t : State), exec i s = .next t → t.pending = s.pending ∧ t.now = s.now

/-- Every well-formed command has a next state, in every state; every other command ends in the fault of ill-formed
operands. -/
def Obligations.WellFormedCommandsComplete : Prop :=
  ∀ (i : Instr) (s : State), (i.wf = true → ∃ t, exec i s = .next t) ∧
    (i.wf = false → ∃ what, exec i s = .fault (.illFormed what))

/-! ### The management plane -/

/-- The management plane is sound at reset. -/
def Obligations.ResetManagementSound : Prop := State.reset.mgmt.Sound ∧ State.reset.pending = []

/-- Every step keeps the management plane sound. -/
def Obligations.StepKeepsManagementSound : Prop :=
  ∀ s t : State, s.mgmt.Sound → step s = .next t → t.mgmt.Sound

/-- 02 R88: every access by a frozen agent returns the FROZEN response and changes nothing. -/
def Obligations.FrozenAgentChangesNothing : Prop :=
  ∀ (i : Instr) (m : Mgmt) (s : State), Instr.requester i = some m → s.mgmt.portReady = true →
    s.isFrozen m.agent = true → exec i s = .next (State.answered s m 2 0)

/-- 02 R95, 13 R498: until the port is ready every access is answered with ERROR and changes nothing. 00 R17: a write without
ownership does not take effect and freezes the agent, for the cause 1. Whether it is answered with FROZEN or ERROR is left
open (log entry 4); a count of free values taken rises. 02 R85: reads never freeze an agent. WRITE_WITHOUT_OWNERSHIP is such a
write, of any register; from the owner it is the register write itself. -/
def Obligations.AccessesAreGated : Prop :=
  (∀ (i : Instr) (m : Mgmt) (s : State), Instr.requester i = some m → s.mgmt.portReady = false →
      exec i s = .next (State.answered s m 1 0)) ∧
  (∀ (i : Instr) (m : Mgmt) (s : State), Instr.requester i = some m → Instr.writes i = true → s.mgmt.portReady = true →
      s.isFrozen m.agent = false → s.owns m.agent = false →
      ∃ t status, (status = 1 ∨ status = 2) ∧ exec i s = .next (State.answered
          { s with fresh := s.fresh + 1, keeper := { s.keeper with causes := t } } m status 0) ∧
        tabGet (fun _ => 0) t m.agent = 1 ∧ ∀ b, b ≠ m.agent.val → tabGet (fun _ => 0) t b = s.cause b) ∧
  (∀ (i : Instr) (m : Mgmt) (s : State), Instr.requester i = some m → Instr.writes i = false →
      ∃ t, exec i s = .next t ∧ t.keeper.causes = s.keeper.causes ∧ t.fresh = s.fresh) ∧
  (∀ (m : Mgmt) (off : BitVec 21) (d : W64) (s : State),
      (s.mgmt.portReady = true → s.isFrozen m.agent = false → s.owns m.agent = false →
        ∃ t, exec (.writeWithoutOwnership m off d) s = .next t ∧ t.cause m.agent = 1 ∧ t.isFrozen m.agent = true) ∧
      (State.MayWrite s m → exec (.writeWithoutOwnership m off d) s = exec (.registerWrite m off d) s))

/-! ### Resets and bring-up -/

/-- 02 R94: a cold reset returns every register to its reset value, empties both banks, clears all freezes and forgets the
identity; the inputs keep their levels and the free values taken stay counted (log entries 4 and 7). 02 R94; 13 R498: the
owner's warm reset is answered with OK and does the same, but keeps the identity and the fault log; the port is not ready
afterwards. That it keeps the SEQ of the log, and that the inputs and the time are not reset, is the model's choice (log entry 7). -/
def Obligations.ResetsReturnEveryRegister : Prop :=
  (∀ s : State, ∃ t, exec .coldReset s = .next t ∧
      t = { State.reset with
        pending := s.pending, now := s.now, fresh := s.fresh, mgmt := { dieAddr := s.mgmt.dieAddr }
        warden := { drawGrant := s.warden.drawGrant, tjAt := s.now, vengAt := s.now, autoAt := s.now } } ∧
      t.img.staged = none ∧ t.img.active = none ∧ (∀ a, t.isFrozen a = false) ∧ t.mgmt.idDerived = false) ∧
  (∀ (m : Mgmt) (s : State), State.MayWrite s m → ∃ t, exec (.warmReset m) s = .next t ∧
      t = { State.reset with
        pending := s.pending, now := s.now, fresh := s.fresh
        mgmt := { s.mgmt with portReady := false, releasedAt := s.now, selfTestDone := false, resp := some ⟨m.id, m.agent, 0, 0⟩ }
        keeper := { idFail := s.keeper.idFail, quarantine := s.keeper.idFail }
        warden := { log := s.warden.log, seq := s.warden.seq, drawGrant := s.warden.drawGrant, tjAt := s.now, vengAt := s.now
                    autoAt := s.now } } ∧
      t.img = {} ∧ t.keeper.ownership = .unowned ∧ (∀ a, t.isFrozen a = false) ∧ t.mgmt.idDerived = s.mgmt.idDerived)

/-- 02 R95: release of reset starts the keeper and the warden with the die address of the inputs; the port becomes ready once
the identity is settled and 200 µs have passed; the self-test follows it, once, before an image is there, and is complete whatever it
finds. 02 R90; 13 R499: the derivation
repeats until two successive results agree, at most three times; if none agree the engine is quarantined with ID_FAIL. The
identity registers show the result. 02 R90, R94; 13 R499, R500: the identity registers change only by the derivation and by a
cold reset, and the die address only at release of reset. R95 gives only the order of bring-up: that the port is not ready before the identity is
settled (log entry 35), and that the self-test does nothing once an image phase has begun (log entry 31), are the model's choices. -/
def Obligations.BringUpDerivesTheIdentity : Prop :=
  (∀ s : State,
      (∀ a, s.mgmt.released = false → ∃ t, exec (.resetRelease a) s = .next t ∧ t.mgmt.released = true ∧
        t.mgmt.releasedAt = s.now ∧ t.mgmt.dieAddr = a.toNat ∧ t.mgmt.portReady = s.mgmt.portReady) ∧
      (s.mgmt.released = true → s.mgmt.idDerived = true ∨ s.keeper.idFail = true → s.mgmt.releasedAt + 200000 ≤ s.now →
        exec .managementPortReady s = .next { s with mgmt := { s.mgmt with portReady := true } }) ∧
      (∀ fails : List TestFail, fails.all TestFail.wf = true →
        (s.mgmt.portReady = true → s.keeper.phase = .noImage → s.mgmt.selfTestDone = false →
          ∃ t, exec (.builtInSelfTest fails) s = .next t ∧ t.mgmt = { s.mgmt with selfTestDone := true } ∧
            (fails = [] → t.warden = s.warden)) ∧
        ((s.mgmt.portReady = false ∨ s.keeper.phase ≠ .noImage ∨ s.mgmt.selfTestDone = true) →
          exec (.builtInSelfTest fails) s = .next s))) ∧
  (∀ (s : State) (r1 r2 r3 : BitVec 128), s.mgmt.released = true → s.mgmt.idDerived = false → s.keeper.idFail = false →
      ((r1 = r2 ∨ r2 = r3) → ∃ t, exec (.identityDerivation r1 r2 r3) s = .next t ∧ t.mgmt.idDerived = true ∧
        t.mgmt.idLo = r2.setWidth 64 ∧ t.mgmt.idHi = (r2 >>> 64).setWidth 64 ∧ t.keeper = s.keeper ∧
        t.idCheck = crc64 (leBytes 8 t.mgmt.idLo.toNat ++ leBytes 8 t.mgmt.idHi.toNat)) ∧
      ((r1 ≠ r2 ∧ r2 ≠ r3) → ∃ t, exec (.identityDerivation r1 r2 r3) s = .next t ∧ t.keeper.idFail = true ∧
        t.keeper.quarantine = true ∧ t.mgmt = s.mgmt ∧ t.idLo = 0 ∧ t.idHi = 0 ∧ t.idCheck = 0)) ∧
  (∀ (i : Instr) (s t : State), exec i s = .next t →
      ((i ≠ .coldReset ∧ ∀ a b c, i ≠ .identityDerivation a b c) →
        t.mgmt.idLo = s.mgmt.idLo ∧ t.mgmt.idHi = s.mgmt.idHi ∧ t.mgmt.idDerived = s.mgmt.idDerived) ∧
      ((∀ a, i ≠ .resetRelease a) → t.mgmt.dieAddr = s.mgmt.dieAddr))

/-! ### The keeper's election -/

/-- 02 R85: what a claim read does in each state of the election. 02 R85: when the claim window closes, the lowest-numbered
claimant that is not frozen owns the engine with a new lease; with every claimant frozen it is UNOWNED. That a claim is still taken in the
very moment at which its window may close, 1,000 ns after it began, or 1 ms after a handover did, is the model's choice (log entry 12). -/
def Obligations.ElectionGivesOneOwner : Prop :=
  (∀ (m : Mgmt) (s : State), s.mgmt.portReady = true → s.isFrozen m.agent = false →
      (s.keeper.ownership = .unowned → exec (.keeperClaim m) s = .next (State.claimed s m
        { s.keeper with ownership := .contest, claimants := [m.agent.val], claimAt := s.now })) ∧
      (s.keeper.ownership = .contest → s.now ≤ s.keeper.claimAt + 1000 → ∃ l, exec (.keeperClaim m) s = .next (State.claimed s m
        { s.keeper with claimants := l }) ∧ ∀ a, a ∈ l ↔ a = m.agent.val ∨ a ∈ s.keeper.claimants) ∧
      (s.keeper.ownership = .owned → exec (.keeperClaim m) s = .next (State.claimed s m s.keeper)) ∧
      (s.keeper.ownership = .handover → s.keeper.successor = m.agent.val → s.now ≤ s.keeper.handoverAt + 1000000 →
        exec (.keeperClaim m) s = .next (State.claimed s m
          { s.keeper with ownership := .owned, owner := m.agent.val, claimants := [], leaseAt := s.now })) ∧
      (s.keeper.ownership = .handover → s.keeper.successor ≠ m.agent.val →
        exec (.keeperClaim m) s = .next (State.claimed s m s.keeper))) ∧
  (∀ s : State, s.keeper.ownership = .contest → s.keeper.claimAt + 1000 ≤ s.now →
      (∀ a, a < 8 → a ∈ s.keeper.claimants → s.isFrozen a = false →
        (∀ b, b < a → b ∈ s.keeper.claimants → s.isFrozen b = true) →
        exec .claimWindowClose s = .next { s with keeper :=
          { s.keeper with ownership := .owned, owner := a, claimants := [], leaseAt := s.now } }) ∧
      ((∀ a, a < 8 → a ∈ s.keeper.claimants → s.isFrozen a = true) →
        exec .claimWindowClose s = .next { s with keeper := { s.keeper with ownership := .unowned, claimants := [] } }))

/-- 02 R85, R86: an accepted write restarts the lease; a lease of 10 ms lapses after a lock of the tally, and between 8 and 12 ms
before it; the acceptance window of a handover is 1 ms. That a lease is of 10 ms from the first lock of the tally on, also in a later loss of it
(log entry 5), and that it restarts in HANDOVER (log entry 12), are the model's choices. -/
def Obligations.LeaseAndHandoverWindows : Prop :=
  ∀ (m : Mgmt) (s : State),
    (∀ d, State.MayWrite s m → exec (.keeperLease m d) s = .next (State.answered
      { s with keeper := { s.keeper with leaseValue := d, leaseAt := s.now } } m 0 0)) ∧
    (s.keeper.hasOwner = true → s.tally.everLocked = true → s.keeper.leaseAt + 10000000 ≤ s.now →
      exec .leaseLapse s = .next { s with keeper := { s.keeper with ownership := .unowned, claimants := [] } }) ∧
    (s.keeper.hasOwner = true → s.keeper.leaseAt + 12000000 ≤ s.now →
      exec .leaseLapse s = .next { s with keeper := { s.keeper with ownership := .unowned, claimants := [] } }) ∧
    (s.keeper.hasOwner = true → s.now < s.keeper.leaseAt + 8000000 → exec .leaseLapse s = .next s) ∧
    (∀ d : W64, State.MayWrite s m → s.keeper.ownership = .owned → bit d.toNat 3 = true → bits d.toNat 0 3 ≠ m.agent.val →
      s.isFrozen (bits d.toNat 0 3) = false → exec (.keeperHandover m d) s = .next (State.answered { s with keeper :=
        { s.keeper with ownership := .handover, successor := bits d.toNat 0 3, handoverAt := s.now, leaseAt := s.now } } m 0 0)) ∧
    (∀ d : W64, State.MayWrite s m → bit d.toNat 3 = true → s.isFrozen (bits d.toNat 0 3) = true →
      exec (.keeperHandover m d) s = .next (State.answered s m 1 0)) ∧
    (s.keeper.ownership = .handover → s.keeper.handoverAt + 1000000 ≤ s.now →
      exec .handoverWindowClose s = .next { s with keeper := { s.keeper with ownership := .owned } })

/-- 02 R85, R88; 13 R505: KEEPER_FREEZE freezes each agent whose bit is 1, the owner's own freeze leaves the engine UNOWNED, and
KEEPER_THAW thaws each agent whose bit is 1; no other agent changes, and a frozen one keeps its first cause. -/
def Obligations.FreezeAndThawNameAgents : Prop :=
  ∀ (m : Mgmt) (d : W64) (s : State), State.MayWrite s m →
    (∃ t, exec (.keeperFreeze m d) s = .next t ∧ t.mgmt.resp = some ⟨m.id, m.agent, 0, 0⟩ ∧
      (∀ a, a < 8 → t.cause a = if s.isFrozen a then s.cause a else if bit d.toNat a then 3 else 0) ∧
      t.keeper.ownership = (if bit d.toNat m.agent then .unowned else s.keeper.ownership)) ∧
    (∃ t, exec (.keeperThaw m d) s = .next t ∧ t.mgmt.resp = some ⟨m.id, m.agent, 0, 0⟩ ∧
      (∀ a, a < 8 → t.cause a = if bit d.toNat a then 0 else s.cause a) ∧ t.keeper.ownership = s.keeper.ownership)

/-! ### Images and the member table -/

/-- 02 R67-R69; 13 R507: LOAD discards the staged image, keeps the active one, and refuses a bad length before anything is
fetched; while an image loads it is rejected. DISCARD empties the staged bank. 02 R68, R69: an image whose fetch is complete
is staged, or refused with the first failure; the active image stays. -/
def Obligations.ImagesLoadAndStage : Prop :=
  (∀ (m : Mgmt) (s : State), State.MayWrite s m →
      (s.img.loader ≠ .loading → s.img.swapping = none → ∃ t, exec (.load m) s = .next t ∧ t.img.staged = none ∧
        t.img.active = s.img.active ∧ t.img.deferrals = 0 ∧ t.img.hashMismatch = false ∧ t.img.unparked = false ∧
        ((64 ≤ s.img.len ∧ s.img.len ≤ 67108864 ∧ s.img.len % 64 = 0) → t.img.loader = .loading) ∧
        ((s.img.len < 64 ∨ 67108864 < s.img.len ∨ s.img.len % 64 ≠ 0) →
          t.img.loader = .refused ∧ t.img.refusal = 3 ∧ t.siphons = s.siphons)) ∧
      ((s.img.loader = .loading ∨ s.img.swapping ≠ none) → exec (.load m) s = .next (State.answered s m 1 0)) ∧
      (s.img.swapping = none → ∃ t, exec (.discard m) s = .next t ∧ t.img.loader = .idle ∧ t.img.staged = none ∧
        t.img.active = s.img.active ∧ t.groups = s.groups)) ∧
  (∀ s : State, s.img.loader = .loading → s.img.headerDone = true → s.imageXfers = [] →
      ∃ t, exec .imageCheck s = .next t ∧ t.img.active = s.img.active ∧
        (∀ e im, checkImage (bytesOf s.img.len s.img.bytes) s.img.len s.me s.ownStates = (some e, im) →
          t.img.loader = .refused ∧ t.img.staged = none ∧ t.img.refusal = e.code ∧ t.img.section_ = e.sec ∧
            t.img.index = e.idx) ∧
        (∀ im, checkImage (bytesOf s.img.len s.img.bytes) s.img.len s.me s.ownStates = (none, im) →
          t.img.loader = .staged ∧ t.img.staged = some im) ∧
        t.groups = s.groups ∧ t.queues = s.queues ∧ t.members = s.members)

/-- 02 R73: START with a staged image and none active makes it active in low-water service; at any other time it is rejected.
02 R75; 01 R28: IMAGE_SWAP waits until every operation started before the commit point, the MARK itself apart, has completed;
then the staged image is active, both the staged bank and the read cache are empty, and the loader is idle. The mark is that of the
group which the image's ANCHOR names (02 R55), and what was staged after its commit point stays staged: RNG_SEED, the rows and schedules
of the refiner, and GROUP_FILL and REPLAY_ADDR of each group that the image makes valid (00 R13; 13 R495, R496). -/
def Obligations.ImagesBecomeActive : Prop :=
  (∀ (m : Mgmt) (s : State), State.MayWrite s m →
      (∀ im, s.img.active = none → s.img.staged = some im → s.img.loader = .staged → s.warden.unfit = false →
        ∃ t, exec (.start m) s = .next t ∧ t.img.active = some im ∧ t.img.staged = none ∧ t.img.loader = .idle ∧
          t.keeper.phase = (if t.servedGroups = [] ∧ t.fullReady = true then .full else .lowWater) ∧
          t.mgmt.resp = some ⟨m.id, m.agent, 0, 0⟩) ∧
      ((s.img.active ≠ none ∨ s.img.loader ≠ .staged) → exec (.start m) s = .next (State.answered s m 1 0))) ∧
  (∀ (s : State) (im : Image) (m : MarkSt), s.img.swapping = some im → (s.group im.anchor).marking = some m →
      m.committed.isSome = true →
      ((∀ o ∈ s.started, some (o.q, o.c) = (s.group im.anchor).markOp) → ∃ t, exec .imageSwap s = .next t ∧
        t.img.active = some im ∧ t.img.staged = none ∧ t.img.swapping = none ∧ t.img.loader = .idle ∧ t.cache.lines = [] ∧
        t.num.keyStaged = s.num.keyStaged ∧ t.refiner.rowsStaged = s.refiner.rowsStaged ∧
        t.refiner.schedsStaged = s.refiner.schedsStaged ∧ ∀ g, (t.gr g).valid = true →
          (t.group g).fillStaged = (s.group g).fillStaged ∧ (t.group g).replayStaged = (s.group g).replayStaged) ∧
      ((∃ o ∈ s.started, some (o.q, o.c) ≠ (s.group im.anchor).markOp) → exec .imageSwap s = .next s))

/-- 02 R62, R78; 13 R502: word 1 of a member entry accepts writes only while STATE is VACANT, QUARANTINE or EVICTED; a write of
word 0 that keeps DIE_ADDR makes the transitions of R78 that an owner may make and no other. -/
def Obligations.MemberEntryWritesFollowState : Prop :=
  ∀ (m : Mgmt) (i : Fin 131072) (d : W64) (g : Nat) (s : State), State.MayWrite s m → s.groupOf i = some g →
    ((s.member i).state ≠ 0 ∧ (s.member i).state ≠ 4 ∧ (s.member i).state ≠ 5 →
      exec (.memberEntryWrite m i 1 d) s = .next (State.answered s m 1 0)) ∧
    (((s.member i).state = 0 ∨ (s.member i).state = 4 ∨ (s.member i).state = 5) → (s.member i).dieAddr ≠ s.me →
      ∃ t, exec (.memberEntryWrite m i 1 d) s = .next t ∧ t.member i = { s.member i with idCheck := d } ∧
        (∀ j, j ≠ i.val → t.member j = s.member j) ∧ t.groups = s.groups) ∧
    (bits d.toNat 0 18 = (s.member i).dieAddr → ∀ old new, old = (s.member i).state → new = bits d.toNat 21 3 →
      (¬ (old = new ∨ ((old = 0 ∨ old = 4 ∨ old = 5) ∧ new = 2) ∨ (old = 2 ∧ new = 0) ∨ (old = 1 ∧ new = 3) ∨
          (old = 3 ∧ new = 1)) → exec (.memberEntryWrite m i 0 d) s = .next (State.answered s m 1 0)) ∧
      ((old = new ∨ ((old = 0 ∨ old = 4 ∨ old = 5) ∧ new = 2) ∨ (old = 2 ∧ new = 0) ∨ (old = 1 ∧ new = 3) ∨
          (old = 3 ∧ new = 1)) → (s.member i).dieAddr ≠ s.me →
        ∃ t, exec (.memberEntryWrite m i 0 d) s = .next t ∧ (t.member i).state = new ∧
          (t.member i).dieAddr = (s.member i).dieAddr ∧ (t.member i).rank = (s.member i).rank ∧
          (t.member i).stage = (s.member i).stage ∧ (t.member i).idCheck = (s.member i).idCheck ∧
          ∀ j, j ≠ i.val → t.member j = s.member j))

/-! ### The register window -/

/-- 13 R497: ENGINE_INFO reads 0x0001_0004_4753_5357, for every agent that may read. -/
def Obligations.EngineInfoIdentifiesTheBlock : Prop :=
  ∀ (m : Mgmt) (s : State), s.mgmt.portReady = true → s.isFrozen m.agent = false →
    exec (.rcRead m 0) s = .next (State.answered s m 0 0x0001000447535357)

/-- 13 R491: a reserved offset reads 0, and a write to it is answered with ERROR; a register whose fields are all RO accepts an
owner write with OK, and nothing changes. (That no offset outside the register list names a register is the map `regAt`.) -/
def Obligations.ReservedOffsetsReadZero : Prop :=
  ∀ (m : Mgmt) (off : BitVec 21) (d : W64) (s : State),
    (regAt (byteOffset off) = none →
      (s.mgmt.portReady = true → s.isFrozen m.agent = false → exec (.rcRead m off) s = .next (State.answered s m 0 0)) ∧
      (State.MayWrite s m → exec (.registerWrite m off d) s = .next (State.answered s m 1 0))) ∧
    (∀ r, regAt (byteOffset off) = some r → Reg.readOnly r = true → State.MayWrite s m →
      exec (.registerWrite m off d) s = .next (State.answered { s with keeper := { s.keeper with leaseAt := s.now } } m 0 0))

/-- 13 R492; 00 R11: a read returns the register's value from before any clear; it clears the RC fields only when the owner makes
it. CRC_ERRORS is such a field. -/
def Obligations.ReadsClearForTheOwnerOnly : Prop :=
  ∀ (m : Mgmt) (off : BitVec 21) (s : State), s.mgmt.portReady = true → s.isFrozen m.agent = false →
    (∀ r, regAt (byteOffset off) = some r → r ≠ .keeperClaim → exec (.rcRead m off) s = .next (State.answered
      (if s.owns m.agent then regClear s r else s) m 0 (BitVec.ofNat 64 (regRead s r)))) ∧
    (byteOffset off = 0xC00008 → exec (.rcRead m off) s = .next (State.answered
      { s with integ := { s.integ with crcErrors := if s.owns m.agent then 0 else s.integ.crcErrors } } m 0
      (BitVec.ofNat 64 s.integ.crcErrors)))

/-- 00 R11, R16: an owner's write of a register makes the register's effect or is rejected with ERROR and changes nothing. RNG_TEST
key registers keep what is written; INTEG_STATUS clears exactly the bits that are written 1. -/
def Obligations.OwnerWritesTakeEffect : Prop :=
  ∀ (m : Mgmt) (off : BitVec 21) (d : W64) (s : State), State.MayWrite s m →
    (∀ r, regAt (byteOffset off) = some r → r ≠ .globalCtrl →
      (∀ t, regWrite s m.agent r d = some t → exec (.registerWrite m off d) s = .next (State.accepted s m t)) ∧
      (regWrite s m.agent r d = none → exec (.registerWrite m off d) s = .next (State.answered s m 1 0))) ∧
    (byteOffset off = 0xB00040 → ∃ t, exec (.registerWrite m off d) s = .next t ∧ t.num = { s.num with testKey := d } ∧
      regRead t .testKey = d.toNat ∧ t.integ = s.integ ∧ t.groups = s.groups) ∧
    (byteOffset off = 0xC00000 → ∃ t, exec (.registerWrite m off d) s = .next t ∧
      t.integ.crcSeen = (s.integ.crcSeen && !bit d.toNat 0) ∧ t.integ.residueSeen = (s.integ.residueSeen && !bit d.toNat 1) ∧
      t.integ.railSeen = (s.integ.railSeen && !bit d.toNat 2) ∧
      t.integ.repairFailed = (s.integ.repairFailed && !bit d.toNat 3) ∧
      t.integ.recallRaised = (s.integ.recallRaised && !bit d.toNat 4) ∧
      t.integ.recallSeen = (s.integ.recallSeen && !bit d.toNat 5) ∧
      t.integ.digestMismatch = (s.integ.digestMismatch && !bit d.toNat 6) ∧ t.integ.crcErrors = s.integ.crcErrors ∧
      t.integ.log = s.integ.log)

/-! ### Queues -/

/-- 03 R128-R131: ENABLE takes an idle queue that is DISABLED, in ERROR, or HALTED with its group's resume mark past to RUNNING with
FETCH at HEAD and without a cause, leaves a RUNNING one alone, and is rejected where entries are in flight, where the queue has no
record, and for a HALTED queue whose group is halted. -/
def Obligations.EnableStartsAnIdleQueue : Prop :=
  ∀ (m : Mgmt) (q : Fin 256) (s : State), State.MayWrite s m →
    (((s.queue q).state = .disabled ∨ (s.queue q).state = .error ∨
        ((s.queue q).state = .halted ∧ (s.group (s.queue q).map.group).halted = false)) →
      (s.queue q).enable = false → s.inFlight q = 0 →
      ∃ t, exec (.enable m q) s = .next t ∧ (t.queue q).state = .running ∧ (t.queue q).enable = true ∧
        (t.queue q).head = (s.queue q).head ∧ (t.queue q).fetch = (s.queue q).head ∧ (t.queue q).cause = 0 ∧
        (t.queue q).errIndex = 0 ∧ (∀ p, p ≠ q.val → t.queue p = s.queue p) ∧ t.ops = s.ops ∧ t.groups = s.groups ∧
        t.members = s.members ∧ t.sync = s.sync ∧ t.warden = s.warden ∧ t.mgmt.resp = some ⟨m.id, m.agent, 0, 0⟩) ∧
    ((s.queue q).state = .running → exec (.enable m q) s = .next (State.accepted s m s)) ∧
    ((s.queue q).state ≠ .running → (s.inFlight q ≠ 0 ∨ (s.queue q).state = .absent ∨ (s.queue q).state = .draining ∨
        ((s.queue q).state = .halted ∧ (s.group (s.queue q).map.group).halted = true)) →
      exec (.enable m q) s = .next (State.answered s m 1 0))

/-- 03 R128, R129: QUEUE_DISABLE of a RUNNING queue discards what has not started, FETCH goes back to the first entry discarded, and the
queue is DRAINING while entries are in flight, DISABLED at once with none; of any other queue it clears ENABLE and nothing else. CANCEL
ends with CANCELLED the started entries that have written no result and sent no parcel, but for those past their end (a SIGNAL applied, a
WAIT released, a MARK committed: log entry 15), and leaves the others. Neither touches the entries of another queue. -/
def Obligations.DisableDrainsAndCancelEnds : Prop :=
  ∀ (m : Mgmt) (q : Fin 256) (s : State), State.MayWrite s m →
    ((s.queue q).state = .running → ∃ t, exec (.queueDisable m q) s = .next t ∧ (t.queue q).enable = false ∧
      (t.queue q).buffered = [] ∧ (t.queue q).batch = none ∧ (t.queue q).head = (s.queue q).head ∧
      (t.queue q).fetch = ((s.queue q).buffered.head?.map (·.count)).getD (s.queue q).fetch ∧
      (s.inFlight q ≠ 0 → (t.queue q).state = .draining) ∧ (s.inFlight q = 0 → (t.queue q).state = .disabled) ∧
      (∀ o ∈ s.ops, o.q ≠ q.val → o ∈ t.ops) ∧ (∀ p, p ≠ q.val → t.queue p = s.queue p) ∧
      ((∀ g c, (s.group g).markOp ≠ some (q.val, c)) → t.groups = s.groups)) ∧
    ((s.queue q).state ≠ .running → exec (.queueDisable m q) s = .next (State.accepted s m
      (s.updQueue q fun x => { x with enable := false }))) ∧
    (∃ t, exec (.cancel m q) s = .next t ∧
      (∀ c o, s.op? q c = some o → o.wroteResult = false → o.sentParcel = false → o.sig = none → o.ended = none →
        s.past o = false → ∃ o', t.op? q c = some o' ∧ o'.ended = some 1) ∧
      (∀ c, (∀ o ∈ s.ops, o.is q c = true → o.wroteResult = true ∨ o.sentParcel = true ∨ o.sig.isSome = true) →
        t.op? q c = s.op? q c) ∧
      (∀ o ∈ s.ops, o.q ≠ q.val → o ∈ t.ops) ∧ (t.queue q).state = (s.queue q).state ∧
      ((∀ g c, (s.group g).markOp ≠ some (q.val, c)) → t.groups = s.groups))

/-- 03 R116, R117: KICK fetches at once: a RUNNING queue without an outstanding batch asks for the entries from FETCH, at most
16, within the buffer, the ring's end and HEAD + 2^k; POLL does the same once the interval since an entry without OWN has
passed, and nothing before. 03 R116: a batch that has returned is taken up to its first entry without OWN, where FETCH then
stands; with none taken the poll interval begins. A batch on its way is left alone. That a KICK or a poll while a batch is outstanding
asks for nothing more is the model's choice (log entry 15). -/
def Obligations.FetchesFollowTheRing : Prop :=
  (∀ (m : Mgmt) (q : Fin 256) (s : State) (x : QueueSt) (n : Nat), x = s.queue q →
      n = min (min 16 (16 - x.buffered.length)) (min (2 ^ x.log2 - x.fetch % 2 ^ x.log2) (2 ^ x.log2 - diff32 x.fetch x.head)) →
      (State.MayWrite s m → exec (.kick m q) s = .next (State.accepted s m (startFetch s q))) ∧
      (x.lastFilled = false → x.pollAt + 64 * x.poll ≤ s.now → exec (.poll q) s = .next (startFetch s q)) ∧
      ((x.lastFilled = true ∨ s.now < x.pollAt + 64 * x.poll) → exec (.poll q) s = .next s) ∧
      (x.state = .running → x.batch = none → 0 < n →
        ∃ b, ((startFetch s q).queue q).batch = some b ∧ b.start = x.fetch ∧ b.entries = n ∧ b.data = [] ∧
          (∀ y ∈ blocks (x.base + 64 * (x.fetch % 2 ^ x.log2)) (64 * n), ∃ z ∈ ((startFetch s q).siphon (q % 8)).waiting,
            z.cls = 0 ∧ z.addr = y.1 ∧ z.len = y.2.2 ∧ z.queue = q.val)) ∧
      ((x.state ≠ .running ∨ x.batch ≠ none ∨ n = 0) → startFetch s q = s)) ∧
  (∀ (q : Fin 256) (s : State) (b : Batch), (s.queue q).batch = some b →
      (b.left ≠ 0 → exec (.fetchBatch q) s = .next s) ∧
      (b.left = 0 → (∀ e ∈ (s.queue q).buffered.head?, e.checked = true) →
        ((s.queue q).buffered ≠ [] ∨ takeOwned b.data b.start b.entries 0 = []) →
        ∃ t, exec (.fetchBatch q) s = .next t ∧
          (t.queue q).buffered = (s.queue q).buffered ++ takeOwned b.data b.start b.entries 0 ∧
          (t.queue q).fetch = (b.start + (takeOwned b.data b.start b.entries 0).length) % 2 ^ 32 ∧
          (t.queue q).lastFilled = decide ((takeOwned b.data b.start b.entries 0).length = b.entries) ∧
          ((takeOwned b.data b.start b.entries 0).length ≠ b.entries → (t.queue q).pollAt = s.now) ∧
          (t.queue q).head = (s.queue q).head ∧ (∀ p, p ≠ q.val → t.queue p = s.queue p) ∧ t.ops = s.ops))

/-- 03 R131: QUEUE_HEAD is written while the queue is idle, and sets HEAD and FETCH; else the write is rejected. 03 R106: a
due head word is written to the address of QUEUE_HEAD_WB, at most one in 256 ns; one that is not due is not. -/
def Obligations.HeadIsWrittenAndWrittenBack : Prop :=
  (∀ (m : Mgmt) (q : Fin 256) (d : W64) (s : State), State.MayWrite s m →
      (s.queueIdle q = true → exec (.queueHead m q d) s = .next (State.accepted s m (s.setQueue q { s.queue q with
        head := d.toNat % 2 ^ 32, fetch := d.toNat % 2 ^ 32, finished := [], failedWb := [], wbDirty := true }))) ∧
      (s.queueIdle q = false → exec (.queueHead m q d) s = .next (State.answered s m 1 0))) ∧
  (∀ (q : Fin 256) (s : State),
      ((s.queue q).wbEn = true → (s.queue q).wbDirty = true → (s.queue q).wbAt + 256 ≤ s.now → (s.queue q).wbAddr % 8 = 0 →
        exec (.headWriteback q) s = .next (enqueue
          (s.setQueue q { s.queue q with wbDirty := false, wbAt := s.now }) (q % 8)
          { cls := 1, pur := .headWb q, addr := (s.queue q).wbAddr, len := 8, data := headWord (s.queue q), queue := q })) ∧
      (((s.queue q).wbEn = false ∨ (s.queue q).wbDirty = false ∨ s.now < (s.queue q).wbAt + 256) →
        exec (.headWriteback q) s = .next s))

/-- 03 R112, R118, R119: a grant starts the oldest unstarted entry of the first queue that is eligible with credit and burst
left: it takes a slot, its queue gives up one credit and counts the grant. 04 R150: an entry that reads SRC asks for its staging pair
when it starts, and no other entry does. Nothing is granted while budget is lent (08 R322); with nothing eligible the round is over. 09
R353: an entry with LAUNCH_AT starts once its count has come, and not before; 03 R114 keeps it while the tally is not locked. 09 R355: one
that starts late, or whose count had passed when it became eligible, is recorded and counted, and one that starts at its count is not. -/
def Obligations.GrantsStartEntries : Prop :=
  (∀ (s : State) (round : SluiceSt),
      round = (if s.sluice.active && (s.pick s.sluice).isSome then s.sluice else s.newRound) →
      (s.sync.lent = true → exec .grant s = .next s) ∧
      (s.sync.lent = false → s.pick round = none → exec .grant s = .next { s with sluice := { s.sluice with active := false } }) ∧
      (∀ q n b rest, s.sync.lent = false → s.pick round = some (q, n) → (s.queue q).buffered = b :: rest →
        s.op? q b.count = none → ∃ t r, exec .grant s = .next t ∧ t.op? q b.count = some r ∧
          r = { s.opOf q b with pair := r.pair, slot := r.slot, stPair := r.stPair, stSlot := r.stSlot } ∧
          (r.pair ≠ .none ↔ s.readsSrc b.desc = true ∧ s.notExecuted b.desc = none) ∧
          t.sluice.last = q ∧ t.sluice.active = true ∧ t.sluice.credit q = round.credit q - 1 ∧
          (t.queue q).grants = ((s.queue q).grants + 1) % 2 ^ 64 ∧ (∀ p, p ≠ q → t.sluice.credit p = round.credit p) ∧
          ((∀ y ∈ s.ops, y.asksPair = false ∧ y.upd.headerDue = false) → ∀ y ∈ s.ops, y ∈ t.ops) ∧
          t.members = s.members ∧ t.links = s.links ∧ t.img = s.img)) ∧
  (∀ (q : Fin 256) (s : State) (b : Buffered) (rest : List Buffered), (s.queue q).buffered = b :: rest →
      b.desc.launchAt = true →
      (s.eligible q = true → s.sync.lent = false → s.op? q b.count = none → ∃ t r, exec (.launchAtCount q) s = .next t ∧
        t.op? q b.count = some r ∧ r = { s.opOf q b with pair := r.pair, slot := r.slot, stPair := r.stPair, stSlot := r.stSlot } ∧
        t.sluice.last = q.val ∧
        ((b.desc.launch + 2 < s.tally.tally ∨ b.desc.launch < s.tally.lockedAt ∨
            (b.desc.launch < s.tally.tally ∧ (q.val, b.count) ∉ s.sluice.counting)) →
          t.tally = { s.tally with lateSeen := true, lateQueue := q.val, lateBy := min 0xFFFFFFFF (s.tally.tally - b.desc.launch)
                                   lates := satAdd 0xFFFF s.tally.lates 1, vEntries := t.tally.vEntries }) ∧
        (s.tally.tally ≤ b.desc.launch → s.tally.lockedAt ≤ b.desc.launch → t.tally.lates = s.tally.lates)) ∧
      ((s.tally.lock = false ∨ s.tally.tally < b.desc.launch) → exec (.launchAtCount q) s = .next s))

/-- 03 R105, R124-R126: an entry that may complete leaves its slot, and its completion record, 32 bytes with its STATUS, goes to
its place in the ring; one that may not is left as it is, and so is every one while the completion queue of 64 is full (01 R20, R21).
(A twin divergence may cancel waits: 09 R370; the UPDATE entries that waited for its state block ask for their header: 07 R296.) That an
operation leaves its slot when its record is made, and that the completion queue holds the finished operations whose record has not been
issued, are the model's choices (log entry 16). -/
def Obligations.CompletionWritesItsRecord : Prop :=
  ∀ (q : Fin 256) (c : Nat) (s : State) (o : Op), s.op? q c = some o →
    (o.ended = none ∨ (o.upd.phase ≠ .writing ∧ o.upd.phase ≠ .header)) → (o.desc.opcode = 0x07 → o.ready = true) →
    ((s.canComplete o = false ∨ 64 ≤ s.completions.length) → exec (.entryComplete q c) s = .next s) ∧
    (s.canComplete o = true → s.completions.length < 64 → (s.queue q).base % 64 = 0 →
      ∃ t, exec (.entryComplete q c) s = .next t ∧ t.op? q c = none ∧
      { cls := 1, pur := .record q c, addr := (s.queue q).base + 64 * (c % 2 ^ (s.queue q).log2) + 32, len := 32
        data := s.completionBytes o (s.statusOf o), queue := q, at_ := s.now } ∈ (t.siphon (q % 8)).waiting ∧
      (∀ st, o.ended = some st → o.coll.skew = none → o.coll.skewMarked = false → s.statusOf o = st) ∧
      (s.twin.paired = false → ∀ o' ∈ s.ops, o'.is q c = false → o'.upd.headerDue = false → o' ∈ t.ops) ∧
      t.members = s.members ∧ t.keeper = s.keeper ∧ t.img = s.img)

/-! ### Operations -/

/-- 03 R108: NOP does nothing but complete. An entry that the dispatch queue does not hold under a command's opcode is left as
it is. -/
def Obligations.NopCompletesAndOthersAreLeft : Prop :=
  (∀ (q : Fin 256) (c : Nat) (s : State) (o : Op), State.dispatchable s q c 0x00 o →
      exec (.nop q c) s = .next (s.updOp q c fun _ => { o with running := true, ready := true, settled := true })) ∧
  (∀ (q : Fin 256) (c : Nat) (s : State) (i : Instr) (code : Nat),
      (i, code) ∈ [(Instr.nop q c, 0x00), (.allreduce q c, 0x01), (.reduceScatter q c, 0x02), (.allgather q c, 0x03),
        (.broadcast q c, 0x04), (.alltoall q c, 0x05), (.exchange q c, 0x06), (.rotate q c, 0x07), (.update q c, 0x08),
        (.digest q c, 0x09), (.barrier q c, 0x0A), (.signal q c, 0x0B), (.wait q c, 0x0C), (.copy q c, 0x0D), (.mark q c, 0x0E)] →
      (∀ o, ¬ State.dispatchable s q c code o) → exec i s = .next s)

/-- 04 R150-R152; 05 R191-R201, R209: the data plane takes a payload entry of any opcode that moves or reduces: it runs, it keeps what it
is and the staging pair it holds, and its input is asked for: unless the entry has ended by then (a halt), each block of SRC has its
read waiting at the siphon of that block. What each opcode does then is its `start`; a reduction over no element first
writes the identity, and a ROTATE takes its number of steps. 05 R191: a COPY over no element, outside any group, reads and writes nothing
and is complete at once. -/
def Obligations.PayloadEntriesStart : Prop :=
  (∀ (q : Fin 256) (c : Nat) (s : State) (o : Op) (i : Instr) (code : Nat),
      (i, code) ∈ [(Instr.allreduce q c, 0x01), (.reduceScatter q c, 0x02), (.allgather q c, 0x03), (.broadcast q c, 0x04),
        (.alltoall q c, 0x05), (.exchange q c, 0x06), (.rotate q c, 0x07), (.update q c, 0x08), (.digest q c, 0x09),
        (.copy q c, 0x0D)] → State.dispatchable s q c code o →
      ∃ u r, exec i s = .next u ∧ u.op? q c = some r ∧ r.running = true ∧ r.desc = o.desc ∧ r.num = o.num ∧ r.run = o.run ∧
        r.step = o.step ∧ (o.pair = .held → r.pair = .held ∧ r.slot = o.slot) ∧
        (code = 0x07 → r.rot.total = s.rotateSteps o) ∧
        (o.pair = .held → s.readsSrc o.desc = true → s.inputBytes o.desc + o.desc.maskBytes ≤ pairSize → s.looks o = false →
          r.ended.isSome = true ∨ ∀ y ∈ blocks o.desc.src (s.inputBytes o.desc), ∃ z ∈ (u.siphon (siphonOf y.1)).waiting,
            z.pur = .payload q c .src y.2.1 ∧ z.cls = 0 ∧ z.addr = y.1 ∧ z.len = y.2.2 ∧ z.queue = q.val)) ∧
  (∀ (q : Fin 256) (c : Nat) (s t : State) (o r : Op), r = { o with running := true } → t = s.updOp q c (fun _ => r) →
      (State.dispatchable s q c 0x01 o → exec (.allreduce q c) s = .next (State.plain s (startReduction t r))) ∧
      (State.dispatchable s q c 0x02 o → exec (.reduceScatter q c) s = .next (State.plain s (startReduction t r))) ∧
      (State.dispatchable s q c 0x03 o → exec (.allgather q c) s = .next (State.plain s (startMover t r))) ∧
      (State.dispatchable s q c 0x04 o → exec (.broadcast q c) s = .next (State.plain s (startMover t r))) ∧
      (State.dispatchable s q c 0x05 o → exec (.alltoall q c) s = .next (State.plain s (startMover t r))) ∧
      (State.dispatchable s q c 0x06 o → exec (.exchange q c) s = .next (State.plain s (startMover t r))) ∧
      (State.dispatchable s q c 0x07 o → exec (.rotate q c) s = .next (State.plain s (startRotate t r))) ∧
      (State.dispatchable s q c 0x08 o → exec (.update q c) s = .next (State.plain s (startMover t r))) ∧
      (State.dispatchable s q c 0x09 o → exec (.digest q c) s = .next (State.plain s (startMover t r))) ∧
      (State.dispatchable s q c 0x0D o → exec (.copy q c) s = .next (State.plain s (startMover t r)))) ∧
  (∀ (q : Fin 256) (c k : Nat) (t : State) (r : Op), t.op? q c = some r → r.running = true → r.ended = none → r.pair = .none →
      t.readsSrc r.desc = true → t.freePair r.partition = some k →
      (∀ y ∈ t.ops, y.partition = r.partition → y.asksPair = true → y.is q c = true) → t.looks r = false →
      t.inputBytes r.desc + r.desc.maskBytes ≤ pairSize →
      ((takePair t q c).op? q c).any (fun y => y.pair == .held && y.slot == k) = true ∧
      ∀ y ∈ blocks r.desc.src (t.inputBytes r.desc), ∃ z ∈ ((takePair t q c).siphon (siphonOf y.1)).waiting,
        z.pur = .payload q c .src y.2.1 ∧ z.cls = 0 ∧ z.addr = y.1 ∧ z.len = y.2.2 ∧ z.queue = r.q) ∧
  (∀ (q : Fin 256) (c : Nat) (s : State) (o : Op), State.dispatchable s q c 0x0D o → o.desc.length = 0 → o.desc.noGroup = true →
      o.ready = false → o.pause = none → s.sync.lent = false → s.entryXfers q c = [] →
      ∃ t, exec (.copy q c) s = .next t ∧ t = { s with ops := t.ops } ∧
        (∃ r, t.op? q c = some r ∧ r.running = true ∧ r.ready = true ∧ r.settled = true) ∧
        ∀ y ∈ s.ops, y.is q c = false → y ∈ t.ops)

/-- 08 R309, R312-R314; 03 R121: a local SIGNAL applies its change at once and is complete: the counter takes the sum or the
difference, or stops at its end with SAT or UNDER, which puts the queue into ERROR with cause 0x08, where no earlier error stands (R131). With no waiter at the
counter nothing else uses the new value. 08 R310: WAIT is released at once while its counter is at or above the threshold with
SAT and UNDER clear, and parks otherwise; a consuming one takes the threshold off. -/
def Obligations.LocalSignalsAndWaits : Prop :=
  (∀ (q : Fin 256) (c : Nat) (s : State) (o : Op) (n a v : Nat), State.dispatchable s q c 0x0B o → bit o.desc.aux64 63 = false →
      n = o.desc.sync → a = o.desc.aux32 → v = (s.counter n).value → (s.counter n).sat = false → (s.counter n).under = false →
      boundElsewhere s n o.desc.noGroup o.desc.group = false → (∀ w ∈ s.sync.waiters, w.counter ≠ n) →
      (∀ y ∈ s.ops, y.desc.opcode ≠ 0x07) → v < 2 ^ 32 →
      ∃ t, exec (.signal q c) s = .next t ∧ (∀ m, m ≠ n → t.counter m = s.counter m) ∧
        (∃ r, t.op? q c = some r ∧ r.running = true ∧ r.ready = true ∧ r.settled = true) ∧
        (t.counter n).lastKind = 1 ∧ (t.counter n).lastDie = s.me ∧ (t.counter n).lastIgnored = false ∧
        (bit o.desc.aux16 0 = false → v + a < 2 ^ 32 → (t.counter n).value = v + a ∧ (t.counter n).sat = false) ∧
        (bit o.desc.aux16 0 = false → 2 ^ 32 ≤ v + a → (t.counter n).value = 2 ^ 32 - 1 ∧ (t.counter n).sat = true ∧
          ((s.queue q).state ≠ .absent → (t.queue q).state = .error) ∧
          ((s.queue q).state ≠ .error → (s.queue q).state ≠ .absent → (t.queue q).enable = false ∧
            ((s.queue q).cause = 0 → (t.queue q).cause = 8 ∧ (t.queue q).errIndex = c))) ∧
        (bit o.desc.aux16 0 = true → a ≤ v → (t.counter n).value = v - a ∧ (t.counter n).under = false) ∧
        (bit o.desc.aux16 0 = true → v < a → (t.counter n).value = 0 ∧ (t.counter n).under = true ∧
          ((s.queue q).state ≠ .absent → (t.queue q).state = .error) ∧
          ((s.queue q).state ≠ .error → (s.queue q).state ≠ .absent → (t.queue q).enable = false ∧
            ((s.queue q).cause = 0 → (t.queue q).cause = 8 ∧ (t.queue q).errIndex = c))) ∧
        t.groups = s.groups ∧ t.members = s.members ∧ t.warden = s.warden) ∧
  (∀ (q : Fin 256) (c : Nat) (s : State) (o : Op) (x : Counter), State.dispatchable s q c 0x0C o →
      (∀ y ∈ s.ops, y.desc.opcode ≠ 0x07) → x = s.counter o.desc.sync →
      ((x.sat = false ∧ x.under = false ∧ o.desc.aux32 ≤ x.value) → ∃ t, exec (.wait q c) s = .next t ∧
        (∃ r, t.op? q c = some r ∧ r.running = true ∧ r.ready = true) ∧
        (t.counter o.desc.sync).value = (if bit o.desc.aux16 0 then x.value - o.desc.aux32 else x.value) ∧
        (∀ m, m ≠ o.desc.sync → t.counter m = s.counter m) ∧ t.groups = s.groups) ∧
      (¬ (x.sat = false ∧ x.under = false ∧ o.desc.aux32 ≤ x.value) → exec (.wait q c) s = .next
        { s.updOp q c (fun _ => { o with running := true }) with sync := { s.sync with waiters := s.sync.waiters ++
          [{ counter := o.desc.sync, q := o.q, c := o.c, threshold := o.desc.aux32, consume := bit o.desc.aux16 0
             rotate := false, tally := s.stamp }] } }))

/-- 08 R329, R331; 02 R77: BARRIER takes the tokens that came before it and enters its die wire or its group phase; an engine that has
already entered the wire does not invert its input, MISUSE and WEIR_MISUSE are set, and the group halts with MISMATCH; MARK takes the tokens that came before it and begins its weir, which carries the staged
hash and the pending changes of that moment (which moment it is, is the model's choice: log entry 24). -/
def Obligations.BarrierAndMarkBeginTheirWeirs : Prop :=
  ∀ (q : Fin 256) (c : Nat) (s t : State) (o r : Op), r = { o with running := true } → t = s.updOp q c (fun _ => r) →
    (State.dispatchable s q c 0x0A o → exec (.barrier q c) s = .next (State.plain s (startBarrier t r))) ∧
    (State.dispatchable s q c 0x0E o → exec (.mark q c) s = .next (State.plain s (startMark t r))) ∧
    (State.dispatchable s q c 0x0A o → t.toksOf r = [] → bit r.desc.aux16 6 = true → r.desc.noGroup = false →
      r.q = q.val → r.c = c → (s.weir (bits r.desc.aux16 0 6)).entered = false →
      ∃ u, exec (.barrier q c) s = .next u ∧
        (u.weir (bits r.desc.aux16 0 6)).input = !(s.weir (bits r.desc.aux16 0 6)).input ∧
        (u.group r.desc.group).genActive = true ∧ u.op? q c = some r ∧
        (∀ w, w ≠ bits r.desc.aux16 0 6 → u.weir w = s.weir w) ∧ u.queues = s.queues) ∧
    (State.dispatchable s q c 0x0A o → t.toksOf r = [] → bit r.desc.aux16 6 = true → r.desc.noGroup = false →
      r.q = q.val → r.c = c → (s.weir (bits r.desc.aux16 0 6)).entered = true →
      ∃ u, exec (.barrier q c) s = .next u ∧
        u.weir (bits r.desc.aux16 0 6) = { s.weir (bits r.desc.aux16 0 6) with misuse := true } ∧ u.sync.weirMisuse = true ∧
        ((s.gr r.desc.group).valid = true → (s.group r.desc.group).halted = false →
          (u.group r.desc.group).halted = true ∧ (u.group r.desc.group).haltCause = 3) ∧
        (∀ w, w ≠ bits r.desc.aux16 0 6 → u.weir w = s.weir w)) ∧
    (State.dispatchable s q c 0x0A o → t.toksOf r = [] → bit r.desc.aux16 6 = false → r.desc.noGroup = false →
      ∃ u y, exec (.barrier q c) s = .next u ∧ u.op? q c = some y ∧ y.running = true ∧ y.ended = none ∧
        (y.bar = 1 ∨ (y.bar = 3 ∧ y.ready = true)) ∧ (u.group r.desc.group).genActive = true ∧
        (enabled (s.gr r.desc.group).stageMask ≠ [] → 0 ∈ y.coll.reached) ∧ u.sync.weirs = s.sync.weirs) ∧
    (State.dispatchable s q c 0x0E o → (∀ x ∈ t.toksOf r, s.admitTok x.2 = true ∨ tokenDiffers t r x.2 = false) →
      (s.group r.desc.group).halted = false → r.desc.noGroup = false →
      ∃ u w, exec (.mark q c) s = .next u ∧ (u.group r.desc.group).markOp = some (q.val, c) ∧
        (u.group r.desc.group).marking = some w ∧ w.resume = false ∧ w.hash = s.stagedHash ∧
        w.pend = s.pending_ r.desc.group ∧ w.committed = none ∧ ((s.gr r.desc.group).stageMask = 0 → w.complete = true))

/-! ### Streaming -/

/-- 04 R150, R151: a freed staging pair goes to the entry that started first among those of its partition that ask for one; with no pair
free, or none asking, nothing is given. 04 R144, R149; 12 R456: a transfer of the fault path goes first, on the lowest free
tag (the model's choice of the tag: log entry 17), ahead of every other; a lone transfer of a class that its pools have a tag for is
issued; with every tag busy nothing is issued. 12 R452, R453: what is issued is offered to the port, and stands on it as a request once
ready is high in a handshake (a free value: log entry 14); until then it holds its tag and nothing else is issued. -/
def Obligations.PairsAndTagsAreGivenInOrder : Prop :=
  (∀ (p : Fin 64) (s : State) (o : Op) (k : Nat),
      (s.ops.find? (fun y => y.partition == p.val && y.asksPair) = some o → s.freePair p = some k →
        grantPairs p 1 s = givePair s o k ∧
        (o.pair = .waiting → s.op? o.q o.c = some o → ∃ t r, exec (.stagingPairGrant p) s = .next t ∧ t.op? o.q o.c = some r ∧
          r.pair = .held ∧ r.slot = k ∧ r.desc = o.desc)) ∧
      (o.pair = .waiting → o.running = true → givePair s o k = issueReads (s.updOp o.q o.c fun _ =>
        { o with pair := .held, slot := k }) { o with pair := .held, slot := k }) ∧
      (s.freePair p = none → ∀ n, grantPairs p n s = s) ∧ (s.pairs p ≤ s.pairsHeld p → s.freePair p = none) ∧
      (exec (.stagingPairGrant p) s = .next (State.plain s
        (((grantPairs p 64 s).ops.filter fun y => y.partition == p.val).foldl (fun t y => stepOp t y.q y.c) (grantPairs p 64 s)))) ∧
      ((∀ y ∈ s.ops, y.partition ≠ p.val) → exec (.stagingPairGrant p) s = .next s)) ∧
  (∀ (i : Fin 8) (s : State) (x : Xfer) (tag : Nat), (∀ y ∈ (s.siphon i).waiting, s.served y = false) →
      (∀ y : Xfer, y = { x with reserved := s.takesReserved i x, lender := s.lenderFor i x, fill := s.cacheable x, at_ := s.now } →
        (s.siphon i).offered = none → (s.siphon i).freeTag = some tag →
        (((s.siphon i).waiting.filter s.issuable).find? (fun y => y.cls == 3) = some x →
          ∃ t, exec (.transferIssue i) s = .next t ∧ (t.siphon i).waiting = (s.siphon i).waiting.erase x ∧
            (t.siphon i).out = (s.siphon i).out ++ [(tag, y)] ∧ t.fresh = s.fresh + 1 ∧
            (t.siphon i).offered = (if Config.portReady i s.fresh then none else some tag) ∧
            (t.siphon i).req = (if Config.portReady i s.fresh then some (y.request tag) else (s.siphon i).req) ∧
            (t.siphon i).refusedAt = (if Config.portReady i s.fresh then (s.siphon i).refusedAt else some (t.siphon i).shakes) ∧
            (∀ j, j ≠ i.val → t.siphon j = s.siphon j) ∧
            (x.pur.entry = none → s.windowed (blockBase x.addr) = false → t = { s with siphons := t.siphons, fresh := t.fresh })) ∧
        ((s.siphon i).waiting = [x] → x.cls < 3 → s.issuable x = true → s.tagFor i x = true →
          ∃ t, exec (.transferIssue i) s = .next t ∧ (t.siphon i).waiting = [] ∧
            (t.siphon i).out = (s.siphon i).out ++ [(tag, y)] ∧ t.fresh = s.fresh + 1 ∧
            (t.siphon i).offered = (if Config.portReady i s.fresh then none else some tag) ∧
            (t.siphon i).req = (if Config.portReady i s.fresh then some (y.request tag) else (s.siphon i).req) ∧
            ∀ j, j ≠ i.val → t.siphon j = s.siphon j)) ∧
      ((s.siphon i).offered = some tag → (s.siphon i).out.find? (fun y => y.1 == tag) = some (tag, x) →
        ∃ t, exec (.transferIssue i) s = .next t ∧ (t.siphon i).waiting = (s.siphon i).waiting ∧
          (t.siphon i).out.map (·.1) = (s.siphon i).out.map (·.1) ∧ (t.siphon i).shakes = (s.siphon i).shakes + 1 ∧
          (t.siphon i).offered = (if Config.portReady i s.fresh then none else some tag) ∧
          (t.siphon i).req = (if Config.portReady i s.fresh then some (x.request tag) else (s.siphon i).req) ∧
          t = { s with siphons := t.siphons, fresh := s.fresh + 1 } ∧ ∀ j, j ≠ i.val → t.siphon j = s.siphon j) ∧
      ((s.siphon i).freeTag = some tag → tag < 512 ∧ tag ∉ (s.siphon i).busyTags ∧ ∀ j, j < tag → j ∈ (s.siphon i).busyTags) ∧
      ((s.siphon i).offered = none → ((s.siphon i).freeTag = none ∨ (s.siphon i).waiting = []) → exec (.transferIssue i) s =
        .next (s.updSiphon i fun p => p.clearCredits s.awaits)))

/-- 12 R454, R456, R457: a response to no outstanding tag is counted as stray, one to a tag that has timed out frees it; a
response with an error is counted and fails its transfer: a head word that is refused is only counted as dropped, a failed payload
transfer ends a COPY with FAULT and halts the group of a group-wide entry, a failed descriptor puts the queue into ERROR with cause 0x0A
and a failed record with 0x0B. 04 R165: a page fault of a payload transfer pauses its entry. 03 R106: the
record of the entry at HEAD is visible once its write has returned, and HEAD goes on. 12 R456: a
transfer without a response within TIMEOUT_US fails in the same way, and its tag is lost until the response comes; before that time, and
for a tag that is not outstanding, nothing happens. That a failed descriptor read names the first entry of its 256 B in ERR_INDEX, whatever its
OWN says, is the model's choice (log entry 17). -/
def Obligations.ResponsesAndTimeouts : Prop :=
  (∀ (i : Fin 8) (tag : Fin 512) (status : Fin 4) (data : List Byte) (s : State) (p : SiphonSt), data.length = 256 → p = s.siphon i →
      (∀ g, (s.group g).resumeDue = false) →
      ((∀ y ∈ p.lost, y.1 ≠ tag.val) → ((∀ y ∈ p.out, y.1 ≠ tag.val) ∨ p.offered = some tag.val) →
        exec (.fabricResponse i tag status data) s = .next (s.setSiphon i { p with stray := min 255 (p.stray + 1) })) ∧
      ((∃ y ∈ p.lost, y.1 = tag.val) → exec (.fabricResponse i tag status data) s =
        .next (s.setSiphon i { p with lost := p.lost.filter fun y => y.1 != tag.val })) ∧
      (∀ x q, (∀ y ∈ p.lost, y.1 ≠ tag.val) → p.out.find? (fun y => y.1 == tag.val) = some (tag.val, x) →
        p.offered ≠ some tag.val → x.pur = .headWb q → s.cache.fills = [] →
        (status.val = 0 → exec (.fabricResponse i tag status data) s =
          .next (s.setSiphon i { p with out := p.out.filter fun y => y.1 != tag.val })) ∧
        (status.val = 1 → exec (.fabricResponse i tag status data) s =
          .next (s.setSiphon i { p with out := p.out.filter fun y => y.1 != tag.val, faults := min 65535 (p.faults + 1)
                                        dropped := min 16383 (p.dropped + 1) })) ∧
        (2 ≤ status.val → ∃ t, exec (.fabricResponse i tag status data) s = .next t ∧
          (t.siphon i).out = (p.out.filter fun y => y.1 != tag.val) ∧ (t.siphon i).errors = min 65535 (p.errors + 1) ∧
          (t.siphon i).dropped = min 16383 (p.dropped + 1) ∧ (t.siphon i).faults = p.faults ∧ t.ops = s.ops ∧ t.groups = s.groups)) ∧
      (∀ x q c o r off, (∀ y ∈ p.lost, y.1 ≠ tag.val) → p.out.find? (fun y => y.1 == tag.val) = some (tag.val, x) →
        p.offered ≠ some tag.val → x.pur = .payload q c r off → s.cache.fills = [] → s.op? q c = some o → o.ended = none →
        (2 ≤ status.val → o.desc.opcode = 0x0D → s.past o = false → ∃ t u, exec (.fabricResponse i tag status data) s = .next t ∧
          t.op? q c = some u ∧ u.ended = some 0x0A ∧ (t.siphon i).errors = min 65535 (p.errors + 1)) ∧
        (2 ≤ status.val → isGroupWide o.desc.opcode = true → (s.gr o.desc.group).valid = true →
          (s.group o.desc.group).halted = false → ∃ t, exec (.fabricResponse i tag status data) s = .next t ∧
            (t.group o.desc.group).halted = true ∧ (t.group o.desc.group).haltCause = 7) ∧
        (status.val = 1 → o.pause = none → s.cache.notifyEn = false → ∃ t u z, exec (.fabricResponse i tag status data) s = .next t ∧
          t.op? q c = some u ∧ u.pause = some z ∧ z.faulted = [x] ∧ z.siphon = i ∧ u.ended = none ∧
          (t.siphon i).faults = min 65535 (p.faults + 1))) ∧
      (∀ x q id off b, (∀ y ∈ p.lost, y.1 ≠ tag.val) → p.out.find? (fun y => y.1 == tag.val) = some (tag.val, x) →
        p.offered ≠ some tag.val → x.pur = .fetch q id off → s.cache.fills = [] → 1 ≤ status.val → (s.queue q).batch = some b →
        b.id = id → (s.queue q).state = .running → (s.queue q).cause = 0 → ∃ t, exec (.fabricResponse i tag status data) s = .next t ∧
          (t.queue q).state = .error ∧ (t.queue q).cause = 0x0A ∧ (t.queue q).errIndex = (b.start + off / 64) % 2 ^ 32 ∧
          (t.queue q).batch = none ∧ (t.queue q).buffered = [] ∧ t.ops = s.ops) ∧
      (∀ x q c, (∀ y ∈ p.lost, y.1 ≠ tag.val) → p.out.find? (fun y => y.1 == tag.val) = some (tag.val, x) →
        p.offered ≠ some tag.val → x.pur = .record q c → s.cache.fills = [] →
        (status.val = 0 → (s.queue q).head = c → (s.queue q).finished = [] → ∃ t, exec (.fabricResponse i tag status data) s = .next t ∧
          (t.queue q).head = (c + 1) % 2 ^ 32 ∧ (t.siphon i).out = p.out.filter fun y => y.1 != tag.val) ∧
        (1 ≤ status.val → (s.queue q).state = .running → (s.queue q).cause = 0 → ∃ t,
          exec (.fabricResponse i tag status data) s = .next t ∧ (t.queue q).state = .error ∧ (t.queue q).cause = 0x0B ∧
            (t.queue q).errIndex = c ∧ (t.queue q).head = (s.queue q).head ∧ t.ops = s.ops))) ∧
  (∀ (i : Fin 8) (tag : Fin 512) (s : State),
      (∀ g, (s.group g).resumeDue = false) → s.cache.fills = [] →
      (((∀ y ∈ (s.siphon i).out, y.1 ≠ tag.val) ∨ (s.siphon i).offered = some tag.val) →
        exec (.fabricTimeout i tag) s = .next s) ∧
      (∀ x, (s.siphon i).out.find? (fun y => y.1 == tag.val) = some (tag.val, x) → s.now < x.at_ + s.fabricTimeoutUs * 1000 →
        exec (.fabricTimeout i tag) s = .next s) ∧
      (∀ x, (s.siphon i).out.find? (fun y => y.1 == tag.val) = some (tag.val, x) → x.at_ + s.fabricTimeoutUs * 1000 ≤ s.now →
        (s.siphon i).offered ≠ some tag.val →
        (∀ n, x.pur = .mirror n → ∃ t, exec (.fabricTimeout i tag) s = .next t ∧ (∀ y ∈ (t.siphon i).out, y.1 ≠ tag.val) ∧
          (tag.val, x) ∈ (t.siphon i).lost ∧ t.sync.mirrorFailed = true ∧ t.ops = s.ops ∧
          t.groups = s.groups) ∧
        (∀ q, x.pur = .headWb q → ∃ t, exec (.fabricTimeout i tag) s = .next t ∧ (∀ y ∈ (t.siphon i).out, y.1 ≠ tag.val) ∧
          (tag.val, x) ∈ (t.siphon i).lost ∧
          (t.siphon i).dropped = min 16383 ((s.siphon i).dropped + 1) ∧ t.ops = s.ops ∧ t.groups = s.groups) ∧
        (∀ q c r off o, x.pur = .payload q c r off → s.op? q c = some o → o.ended = none → o.desc.opcode = 0x0D → s.past o = false →
          ∃ t u, exec (.fabricTimeout i tag) s = .next t ∧ t.op? q c = some u ∧ u.ended = some 0x0A ∧
            (tag.val, x) ∈ (t.siphon i).lost)))

/-- 04 R163, R167, R178, R179: RESUME puts the faulted transfers of every paused entry of the queue back on their siphons and ends
the pauses, unless a halt has ended the entry meanwhile; FLUSH empties the cache and shows FLUSHING until FLUSH_DONE; an enabled window keeps its BASE and LIMIT, and
clearing its EN invalidates its lines. -/
def Obligations.CacheAndResumeByTheOwner : Prop :=
  ∀ (m : Mgmt) (s : State), State.MayWrite s m →
    (∀ q : Fin 256, exec (.resume m q) s = .next (State.accepted s m (resumeQueue s q)) ∧
      ((∀ o ∈ s.ops, o.q = q.val → o.pause = none) → ∃ t, exec (.resume m q) s = .next t ∧ t.ops = s.ops ∧
        t.siphons = s.siphons ∧ t.queues = s.queues) ∧
      (∀ o p, s.op? o.q o.c = some o → o.q = q.val → o.pause = some p → ∃ t r, exec (.resume m q) s = .next t ∧
        t.op? o.q o.c = some r ∧ r.pause = none ∧ r.desc = o.desc ∧ r.waitBytes = 0 ∧ (r.ended.isSome = true ∨
          ∀ x ∈ p.faulted, x.pur.entry = some (o.q, o.c) → x ∈ (t.siphon (siphonOf x.addr)).waiting))) ∧
    (exec (.flush m) s = .next (State.accepted s m { s with cache := { s.cache with
      lines := [], fills := s.cache.fills.map fun f => { f with install := false }, flushing := true } })) ∧
    (exec .flushDone s = .next { s with cache := { s.cache with flushing := false } }) ∧
    (∀ (n : Fin 8) (d : W64), (s.window n).en = true →
      (bits d.toNat 12 52 ≠ (s.window n).limit → exec (.cacheWindowWrite m n true d) s = .next (State.answered s m 1 0)) ∧
      (bits d.toNat 12 52 ≠ (s.window n).base → exec (.cacheWindowWrite m n false d) s = .next (State.answered s m 1 0))) ∧
    (∀ (n : Fin 8) (d : W64), (s.window n).en = false →
      exec (.cacheWindowWrite m n true d) s = .next (State.accepted s m (s.setWindow n { s.window n with
        group := bits d.toNat 0 12, limit := bits d.toNat 12 52 })) ∧
      exec (.cacheWindowWrite m n false d) s = .next (State.accepted s m (s.setWindow n { s.window n with
        en := bit d.toNat 0, stepFlush := bit d.toNat 1, base := bits d.toNat 12 52 }))) ∧
    (∀ (n : Fin 8) (d : W64), (s.window n).en = true → bits d.toNat 12 52 = (s.window n).base → bit d.toNat 0 = false →
      ∃ t, exec (.cacheWindowWrite m n false d) s = .next t ∧ (t.window n).en = false ∧
        ∀ l, l ∈ t.cache.lines ↔ l ∈ s.cache.lines ∧ (s.window n).holds l.block = false)

/-- 01 R34, R35; 11 R427: a pass that finds nothing upset changes only the count of the scrubber's draws and forgets the bits that
an earlier pass corrected; a single flipped bit is corrected and counted; a bit that flips again on the next pass makes its
word stuck. 01 R34: a parcel that waits for its entry and of which a word is lost is never delivered: it goes, and the loss is recorded (that it
lies there, and is asked for again without a halt, is the model's choice: log entries 17 and 18). -/
def Obligations.ScrubberCorrectsAndWatches : Prop :=
  ∀ (s : State) (u : Upset) (k : Nat), (∀ g, (s.group g).resumeDue = false) →
    (exec (.scrubPass []) s = .next { s with
      num := { s.num with draws := tabSet (fun _ => 0) s.num.draws 2 (tabGet (fun _ => 0) s.num.draws 2 + 1) }
      warden := { s.warden with stuck := s.warden.stuck.filter (·.stuck) } }) ∧
    (u.wf = true → u.bits = [k] → (∀ y ∈ s.warden.stuck, ¬ (y.bank = u.bank.val ∧ y.word = u.word)) →
      ∃ t, exec (.scrubPass [u]) s = .next t ∧ t.warden.eccCount = s.warden.eccCount + 1 ∧
        ⟨u.bank, u.word, k, false⟩ ∈ t.warden.stuck ∧ t.warden.log = s.warden.log ∧ t.groups = s.groups ∧ t.ops = s.ops) ∧
    (u.wf = true → u.bits = [k] → (∃ pre post, s.warden.stuck = pre ++ ⟨u.bank, u.word, k, false⟩ :: post ∧
        ∀ y ∈ pre, ¬ (y.bank = u.bank.val ∧ y.word = u.word)) →
      s.warden.autoFence = false → ∃ t, exec (.scrubPass [u]) s = .next t ∧
        ⟨u.bank, u.word, k, true⟩ ∈ t.warden.stuck ∧ t.warden.eccCount = s.warden.eccCount + 1 ∧ t.warden.newFault = true ∧
        (tabGet (fun _ => {}) t.warden.log (s.warden.seq % 256)).type = 2 ∧ t.ops = s.ops) ∧
    (∀ (r : CisternRec) (p : Parcel), u.wf = true → 2 ≤ u.bits.length →
      (s.image.cisterns.find? fun r => r.baseBank ≤ u.bank.val && decide (u.bank.val < r.baseBank + r.banks)) = some r → r.kind = 0 →
      s.wordOwner u.bank u.word = some (.parcel p) → ∃ t, exec (.scrubPass [u]) s = .next t ∧
        (t.group p.h.group).early = (s.group p.h.group).early.erase p ∧ (t.group p.h.group).halted = (s.group p.h.group).halted ∧
        (tabGet (fun _ => {}) t.warden.log (s.warden.seq % 256)).type = 1 ∧ t.ops = s.ops)

/-! ### Groups -/

/-- 02 R83; 05 R224; 13 R494: GROUP_CTRL is rejected for a group that is not valid, and RESUME for one that is not halted. HALT halts a
running group with cause MANUAL: its queue is HALTED with nothing unstarted, and its started entries have ended, but for those that were
past their end (a SIGNAL applied, a WAIT released). RESUME raises the resume mark of a halted group whose mark is not yet raised, with
the staged hash and the pending changes of that moment (which moment it is, is the model's choice: log entry 24). -/
def Obligations.GroupControlHaltsAndResumes : Prop :=
  ∀ (m : Mgmt) (g : Fin 4096) (s : State), State.MayWrite s m → (∀ h, (s.group h).resumeDue = false) →
    ((s.gr g).valid = false → exec (.groupHalt m g) s = .next (State.answered s m 1 0) ∧
      exec (.groupResume m g) s = .next (State.answered s m 1 0)) ∧
    ((s.group g).halted = false → exec (.groupResume m g) s = .next (State.answered s m 1 0)) ∧
    ((s.gr g).valid = true → (s.group g).halted = true →
      exec (.groupHalt m g) s = .next (State.accepted s m s) ∧
      exec (.groupResume m g) s = .next (State.accepted s m (raiseResume s g)) ∧
      ((s.group g).marking = none → ∃ t w, exec (.groupResume m g) s = .next t ∧ (t.group g).marking = some w ∧
        w.resume = true ∧ w.hash = s.stagedHash ∧ w.pend = s.pending_ g ∧ w.committed = none ∧
        ((s.gr g).stageMask = 0 → w.complete = true) ∧ (t.group g).halted = true ∧ (t.group g).openEntries = [] ∧
        (∀ h, h ≠ g.val → t.group h = s.group h) ∧ t.queues = s.queues)) ∧
    ((s.gr g).valid = true → (s.group g).halted = false → (∀ w, (s.group g).marking = some w → w.committed = none) →
      ∃ t, exec (.groupHalt m g) s = .next t ∧
      (t.group g).halted = true ∧ (t.group g).haltCause = 9 ∧ (t.group g).marking = none ∧ (t.group g).timerAt = none ∧
      (t.queue (s.gr g).queue).enable = false ∧ (t.queue (s.gr g).queue).buffered = [] ∧
      ((s.queue (s.gr g).queue).state ≠ .absent → (t.queue (s.gr g).queue).state = .halted) ∧
      (∀ o ∈ t.ops, o.q = (s.gr g).queue → o.ended.isSome = true ∨ s.past o = true) ∧
      (∀ o ∈ s.ops, o.q ≠ (s.gr g).queue → o ∈ t.ops) ∧
      (∀ y ∈ t.sync.held, y.m.c.group ≠ g.val) ∧ (∀ h, h ≠ g.val → (t.group h).halted = (s.group h).halted))

/-- 05 R213: a HALT of the present run and step halts a running group with PEER_HALT, and one of a step or run that has
ended here (the model's choice: log entry 24), or for a group that is halted already, changes nothing but the messages that have
arrived. 05 R212, R213; 11 R431: a step timer that
has run for TIMEOUT halts its group with cause TIMEOUT, and with AUTO_EVICT 0 leaves the member table as it is; before that
time nothing happens. 10 R396-R398: a recall of a run that has not ended here, the present one or any that
follows it (a peer may count its steps further: 07 R298), halts the group with cause FAULT, and is
remembered; the entries that its queue has started end, but for those that are past their end. -/
def Obligations.PeersHaltTheGroup : Prop :=
  (∀ (h : HaltMsg) (s : State), h.wf = true → (∀ g, (s.group g).resumeDue = false) →
      ((s.gr h.c.group).valid = true → (s.group h.c.group).halted = false → s.mayTradeIn h.c.group = true →
        h.c.run = (s.group h.c.group).run →
        h.c.step = (s.group h.c.group).step → (s.gr h.c.group).autoEvict = false → ∃ t, exec (.halt h) s = .next t ∧
          (t.group h.c.group).halted = true ∧ (t.group h.c.group).haltCause = 2 ∧
          (∀ o ∈ t.ops, o.q = (s.gr h.c.group).queue → o.ended.isSome = true ∨ s.past o = true) ∧ (∀ y ∈ t.sync.held, y.m.c.group ≠ h.c.group) ∧
          t.members = s.members ∧ t.warden = s.warden) ∧
      (((s.group h.c.group).halted = true ∨ (s.gr h.c.group).valid = false ∨ s.mayTradeIn h.c.group = false ∨
          (s.group h.c.group).hasEnded h.c.step h.c.run = true) →
        exec (.halt h) s = .next (takeIn s h.src (.halt h)))) ∧
  (∀ (g : Fin 4096) (s : State) (at_ : Nat), (∀ h, (s.group h).resumeDue = false) → (s.group g).timerAt = some at_ →
      (s.now < at_ + (s.gr g).timeoutUs * 1000 → exec (.stepTimeout g) s = .next s) ∧
      ((s.gr g).valid = true → at_ + (s.gr g).timeoutUs * 1000 ≤ s.now → (s.group g).halted = false → (s.gr g).autoEvict = false →
        ∃ t, exec (.stepTimeout g) s = .next t ∧ (t.group g).halted = true ∧ (t.group g).haltCause = 1 ∧
          (t.group g).timerAt = none ∧ t.members = s.members ∧ t.warden.newFault = true ∧
          (tabGet (fun _ => {}) t.warden.log (s.warden.seq % 256)).type = 8 ∧
          (∀ o ∈ t.ops, o.q = (s.gr g).queue → o.ended.isSome = true ∨ s.past o = true))) ∧
  (∀ (r : RecallMsg) (s : State), (∀ g, (s.group g).resumeDue = false) → r.wf = true → (s.gr r.c.group).valid = true →
      s.mayTradeIn r.c.group = true → (s.group r.c.group).hasEnded r.c.step r.c.run = false →
      (s.group r.c.group).halted = false →
      (r.c.step, r.c.run, r.c.entry, r.chunk + (if r.all then 2 ^ 18 else 0)) ∉ (s.group r.c.group).recalls →
      ∃ t, exec (.recallMsg r) s = .next t ∧ (t.group r.c.group).halted = true ∧ (t.group r.c.group).haltCause = 7 ∧
        (r.c.step, r.c.run, r.c.entry, r.chunk + (if r.all then 2 ^ 18 else 0)) ∈ (t.group r.c.group).recalls ∧
        (∀ o ∈ t.ops, o.q = (s.gr r.c.group).queue → o.ended.isSome = true ∨ s.past o = true) ∧ t.members = s.members)

/-- 01 R24; 10 R376: the commit point of a completed mark without a change and without a swap ends the step: the step counter
rises by one, or, at a resume mark, stays while the run goes on and the halt ends; entry numbers begin again at 0. 07 R300: a group with a recorded skew halts with cause
STEP_SKEW at its mark, complete or not, and does not commit it (log entry 26). Any other mark that is not complete waits, and so does one
whose commit point has passed. 02 R79-R82: at the commit point of a step mark the pending changes that its weir has carried take effect, an
ADMIT entry whose member took part becoming ACTIVE and an EVICT entry EVICTED with RANK 0, MEMBER_COUNT and REBALANCE follow, and every other
entry keeps its state; change hashes that disagree leave the members as they are and set MEMBER_DISAGREE; and a change past MIN_MEMBERS or
MAX_MEMBERS halts the group and leaves the members as they are. 02 R74: a staged image whose hash the marks have not all carried, or for
which a changed group is not parked, is deferred and counted, and the step ends without it. That the weir carries the changes of the moment
at which it begins is the model's choice (log entry 24). -/
def Obligations.StepMarkAdvancesTheStep : Prop :=
  ∀ (g : Fin 4096) (s : State) (m : MarkSt), (s.group g).marking = some m →
    (((m.complete = false ∧ s.skewStops g m = false) ∨ m.committed.isSome = true) → exec (.stepMark g) s = .next s) ∧
    (m.committed = none → (s.gr g).valid = true → (s.group g).halted = false → s.skewStops g m = true →
      ∃ t, exec (.stepMark g) s = .next t ∧ (t.group g).halted = true ∧ (t.group g).haltCause = 6 ∧
        (t.group g).step = (s.group g).step ∧ (t.group g).run = (s.group g).run ∧ (t.group g).marking = none ∧
        t.img = s.img ∧ t.members = s.members) ∧
    (m.complete = true → m.committed = none → (s.gr g).valid = true → s.img.staged = none → s.change g m = .keep →
      s.ownAdmit g = false →
      (m.resume = false → s.stepSettled g = true → (s.group g).skewValid = false → ∃ t, exec (.stepMark g) s = .next t ∧
        (t.group g).step = ((s.group g).step + 1) % 2 ^ 32 ∧ (t.group g).run = 0 ∧ (t.group g).entryNo = 0 ∧
        (t.group g).marking = none ∧ (t.group g).parked = true ∧ t.members = s.members) ∧
      (m.resume = true → (s.group g).toks = [] → ((s.gr g).pumpMask = 0 ∨ s.groupPumps g ≠ []) →
        ∃ t, exec (.stepMark g) s = .next t ∧ (t.group g).step = (s.group g).step ∧
        (t.group g).run = ((s.group g).run + 1) % 16 ∧ (t.group g).halted = false ∧ (t.group g).haltCause = 0 ∧
        (t.group g).entryNo = 0 ∧ (t.group g).marking = none ∧ t.members = s.members)) ∧
    (m.complete = true → m.committed = none → (s.gr g).valid = true → s.ownAdmit g = false → m.resume = false →
      s.stepSettled g = true → (s.group g).skewValid = false →
      (∀ total, s.change g m = .apply total → s.img.staged = none → ((s.settled g m).map (·.1)).Nodup →
        ∃ t, exec (.stepMark g) s = .next t ∧ (t.group g).step = ((s.group g).step + 1) % 2 ^ 32 ∧ (t.group g).run = 0 ∧
        (t.group g).marking = none ∧ (t.group g).rebalance = true ∧ (t.gr g).memberCount = total ∧
        (∀ st ∈ enabled (s.gr g).stageMask, ∀ y ∈ s.slots g st,
          (m.carried y.2 = true → y.2.state = 2 → s.tookPart g m st y.2 = true → (t.member y.1).state = 1) ∧
          (m.carried y.2 = true → y.2.state = 3 → (t.member y.1).state = 5 ∧ (t.member y.1).rank = 0) ∧
          ((m.carried y.2 = false ∨ (y.2.state ≠ 2 ∧ y.2.state ≠ 3)) → (t.member y.1).state = y.2.state)) ∧
        ∀ k, k ∉ (s.settled g m).map (·.1) → t.member k = s.member k) ∧
      (s.change g m = .disagree → s.img.staged = none → ∃ t, exec (.stepMark g) s = .next t ∧
        (t.group g).step = ((s.group g).step + 1) % 2 ^ 32 ∧ (t.group g).memberDisagree = true ∧ t.members = s.members) ∧
      ((s.change g m = .below ∨ s.change g m = .above) → (s.group g).halted = false → ∃ t, exec (.stepMark g) s = .next t ∧
        (t.group g).halted = true ∧ (t.group g).haltCause = (if s.change g m = .below then 4 else 5) ∧
        (t.group g).step = (s.group g).step ∧ t.members = s.members ∧ t.img = s.img) ∧
      (∀ old new, s.img.active = some old → s.img.staged = some new → new.anchor = g.val → s.img.loader = .staged →
        s.img.swapping = none → s.change g m = .keep →
        (m.agree1 = false ∨ m.hash ≠ new.hash ∨ s.allParked new g = false) → ∃ t, exec (.stepMark g) s = .next t ∧
        (t.group g).step = ((s.group g).step + 1) % 2 ^ 32 ∧ (t.group g).marking = none ∧ t.members = s.members ∧
        t.img = { s.img with
          deferrals := min 255 (s.img.deferrals + 1)
          hashMismatch := s.img.hashMismatch || !(m.agree1 && m.hash == new.hash)
          unparked := s.img.unparked || !(s.allParked new g) }))

/-- 05 R209; 10 R376-R379, R388, R394, R397: what arrives for a group that is not valid, or from a run that has ended here,
leaves its effect undone; an entry's parcel that arrives before the entry starts here is kept, and so is a level mark of the next
step that no started or unsettled entry of its number may take (log entry 23). 02 R92: while this engine is being admitted it takes no token but those of weirs. -/
def Obligations.EarlyArrivalsAreKept : Prop :=
  ∀ (s : State), (∀ g, (s.group g).resumeDue = false) →
    (∀ t : Token, t.wf = true → ((s.gr t.c.group).valid = false ∨ s.mayWeir t.c.group = false ∨
        s.isPeer t.c.group t.c.stage t.src = false ∨ (s.mayTradeIn t.c.group = false ∧ t.opcode ≠ 0x0E)) →
      exec (.token t) s = .next (takeIn s t.src (.token t))) ∧
    (∀ t : Token, t.wf = true → (s.gr t.c.group).valid = true → s.mayTradeIn t.c.group = true →
      s.isPeer t.c.group t.c.stage t.src = true → t.opcode ≠ 0x0E → (s.group t.c.group).halted = false → t.c.run = 0 →
      t.c.step = ((s.group t.c.group).step + 1) % 2 ^ 32 → (s.group t.c.group).marking = none → ∃ u, exec (.token t) s = .next u ∧
        (u.group t.c.group).toks = (s.group t.c.group).toks ++ [(s.now, t)] ∧ u.ops = s.ops ∧ u.queues = s.queues ∧
        ∀ h, h ≠ t.c.group → u.group h = s.group h) ∧
    (∀ p : Parcel, p.wf = true → p.h.kind ≤ 6 → (s.gr p.h.group).valid = true → s.mayTradeIn p.h.group = true →
      s.place p.h = .early →
      ∃ u, exec (.parcel p) s = .next u ∧ (u.group p.h.group).early = (s.group p.h.group).early ++ [p] ∧ u.ops = s.ops) ∧
    (∀ p : Parcel, p.wf = true → p.h.kind ≤ 6 → (s.gr p.h.group).valid = true →
      (s.mayTradeIn p.h.group = false ∨ s.place p.h = .ended) → exec (.parcel p) s = .next (takeIn s p.src (.parcel p))) ∧
    (∀ p : Parcel, p.wf = true → (s.gr p.h.group).valid = false → exec (.parcel p) s = .next
      { takeIn s p.src (.parcel p) with integ := { s.integ with crcSeen := true, crcErrors := (s.integ.crcErrors + 1) % 2 ^ 64 } }) ∧
    (∀ a : AnswerMsg, a.wf = true → s.opNum a.c.group a.c.entry = none → exec (.answer a) s = .next (takeIn s a.src (.answer a))) ∧
    (∀ l : LevelMsg, l.wf = true → (s.gr l.c.group).valid = true → s.mayTradeIn l.c.group = true →
      l.c.run = 0 → l.c.step = ((s.group l.c.group).step + 1) % 2 ^ 32 →
      ((s.group l.c.group).marking ≠ none ∨ (s.group l.c.group).halted = true ∨
        (s.opNum l.c.group l.c.entry = none ∧ ∀ e ∈ (s.group l.c.group).openEntries, e.num ≠ l.c.entry)) →
      ∃ u, exec (.levelMark l) s = .next u ∧
        (u.group l.c.group).earlyMarks = (s.group l.c.group).earlyMarks ++ [l] ∧ u.ops = s.ops ∧ u.queues = s.queues ∧
        u.sync.quietSince = none ∧ ∀ h, h ≠ l.c.group → u.group h = s.group h) ∧
    (∀ r : RecallMsg, r.wf = true → ((s.gr r.c.group).valid = false ∨ s.mayTradeIn r.c.group = false ∨
        (s.group r.c.group).hasEnded r.c.step r.c.run = true) →
      exec (.recallMsg r) s = .next (takeIn s r.src (.recall r)))

/-- 05 R209, R210; 10 R379, R388, R389, R394: what arrives for a started entry reaches it: the token of an equal entry is noted as an
arrival, a parcel that passes its checks joins those received, one whose CRC fails is counted and asked for again by a NACK, an
acknowledged parcel is no longer kept, a level mark is held, and a landing credit of the successor counts (05 R221). The entry is taken
as paused on a fault, so that its own progress does not follow at once; a parcel that comes for it takes room of its partition, and one
without room stays where it stands (04 R170; where it waits and what room there is, is the model's choice: log entry 17). That the NACK
is an ANSWER for this parcel alone, under the step and run that the parcel carries, is the model's choice too (log entry 23). -/
def Obligations.ArrivalsReachTheirEntry : Prop :=
  ∀ (s : State) (o : Op) (g : Nat), (∀ h, (s.group h).resumeDue = false) → s.op? o.q o.c = some o → o.running = true →
    o.ended = none → o.ready = false → o.pause.isSome = true → g = o.desc.group → (s.gr g).valid = true →
    (s.group g).halted = false → (s.group g).early = [] → (s.group g).marking = none → s.mayTradeIn g = true →
    s.ownAdmit g = false →
    (∀ t : Token, t.wf = true → t.c.group = g → s.isPeer g t.c.stage t.src = true → t.opcode ≠ 0x0A → t.opcode ≠ 0x0E →
      t.c.run = (s.group g).run → t.c.step = (s.group g).step → s.opNum g t.c.entry = some o → tokenDiffers s o t = false →
      ∃ u r, exec (.token t) s = .next u ∧ u.op? o.q o.c = some r ∧ r = { o with slow := noteSlow o.slow t.c.stage t.src s.now } ∧
        (u.group g).toks = (s.group g).toks ++ [(s.now, t)] ∧ (u.group g).halted = false ∧ u.queues = s.queues) ∧
    (∀ p : Parcel, p.wf = true → p.h.group = g → p.h.kind ≤ 6 → s.place p.h = .entry o → s.roomFor o p.payload.length = false →
      exec (.parcel p) s = .next (leaveParcel s p)) ∧
    (∀ p : Parcel, p.wf = true → p.h.group = g → p.h.kind ≤ 6 → s.place p.h = .entry o → s.roomFor o p.payload.length = true →
      o.desc.opcode ≠ 0x08 → p.h.retry = false → parcelCrc p.h p.payload = p.h.crc → (s.numCtx o.desc).orderFree = false →
      ∃ u r, exec (.parcel p) s = .next u ∧ u.op? o.q o.c = some r ∧ r = { o with
        waitBytes := o.waitBytes + p.payload.length
        coll := { o.coll with rx := o.coll.rx ++ [{ h := p.h, src := p.src, pv := s.parcelPV o p, lanes := p.lanes }] } } ∧
        u.integ = s.integ) ∧
    (∀ p : Parcel, p.wf = true → p.h.group = g → p.h.kind ≤ 6 → s.place p.h = .entry o → s.roomFor o p.payload.length = true →
      p.h.retry = false → parcelCrc p.h p.payload ≠ p.h.crc → (s.gr g).flow = false → ∃ u v, exec (.parcel p) s = .next u ∧
        u = State.plain s (stepOp (sendTo v p.src (.answer
          { src := s.me, c := { group := g, stage := p.h.stage, run := p.h.run, step := p.h.step, entry := p.h.entry }
            chunk := p.h.chunk, indexBase := p.h.index, kind := p.h.kind, valid := 1, nack := 1, reason := 0 })) o.q o.c) ∧
        v.links = (takeIn s p.src (.parcel p)).links ∧ v.net = (takeIn s p.src (.parcel p)).net ∧
        u.op? o.q o.c = some { o with waitBytes := o.waitBytes + p.payload.length } ∧
        u.integ = { s.integ with crcSeen := true, crcErrors := (s.integ.crcErrors + 1) % 2 ^ 64 } ∧
        (u.group g).halted = false ∧ u.members = s.members) ∧
    (∀ (a : AnswerMsg) (k : Kept) (rest : List Kept), a.wf = true → a.c.group = g → s.opNum g a.c.entry = some o →
      a.c.step = k.p.h.step → a.c.run = o.run → a.valid = 1 → a.nack = 0 → o.kept = k :: rest → k.dest = a.src →
      k.p.h.kind = a.kind → k.p.h.chunk = a.chunk → k.p.h.index = a.indexBase → ∃ u r, exec (.answer a) s = .next u ∧
        u.op? o.q o.c = some r ∧ r.kept = rest ∧ r.coll = o.coll ∧ u.queues = s.queues) ∧
    (∀ l : LevelMsg, l.wf = true → l.c.group = g → l.c.run = (s.group g).run → l.c.step = (s.group g).step →
      s.opNum g l.c.entry = some o → ∃ u, exec (.levelMark l) s = .next u ∧
        u.op? o.q o.c = some { o with marksHeld := addTo (l.c.stage, l.src) o.marksHeld } ∧ u.queues = s.queues) ∧
    (∀ x : CreditMsg, x.wf = true → x.c.group = g → o.desc.opcode = 0x07 → x.c.step = o.step → x.c.run = o.run →
      s.opNum g x.c.entry = some o → x.src = s.ringAt g 1 true → ∃ u, exec (.landingCredit x) s = .next u ∧
        u.op? o.q o.c = some { o with rot := { o.rot with credits := max o.rot.credits x.k } } ∧ u.queues = s.queues)

/-! ### Sync unit -/

/-- 08 R326, R328, R337: AND cannot rise while the engine takes part and has not entered, and its input counts as entered where it takes
no part; a generation that completes, by AND or by
the owner's FORCE, inverts SENSE and counts, and a BARRIER that waits for its release over the wire is complete. -/
def Obligations.BarrierWiresCompleteGenerations : Prop :=
  ∀ (w : Fin 64) (m : Mgmt) (s t : State) (x : Weir), x = s.weir w →
    t = s.setWeir w { x with sense := !x.sense, gen := (x.gen + 1) % 2 ^ 32, and_ := false, lastTally := s.stamp } →
    (x.engine = true → x.entered = false → exec (.barrierAndRise w) s = .next s) ∧
    ((∀ o ∈ s.ops, o.desc.opcode ≠ 0x0A) →
      ((x.engine = false ∨ x.entered = true) → exec (.barrierAndRise w) s = .next t) ∧
      (State.MayWrite s m → exec (.force m w) s = .next (State.accepted s m t))) ∧
    (x.engine = true → (t.weir w).entered = !x.entered) ∧ (x.engine = false → x.entered = true) ∧ (∀ v, v ≠ w.val → t.weir v = s.weir v) ∧
    (∀ o ∈ s.ops, o.desc.opcode = 0x0A → (∀ y ∈ s.ops, y.desc.opcode = 0x0A → y = o) → s.op? o.q o.c = some o → o.running = true →
      o.ended = none → bit o.desc.aux16 6 = true → bits o.desc.aux16 0 6 = w.val → o.bar = 2 →
      (x.engine = false ∨ x.entered = true) → ∃ u, exec (.barrierAndRise w) s = .next u ∧ u.weir w = t.weir w ∧
        u.op? o.q o.c = some { o with bar := 3, ready := true, settled := true })

/-- 08 R316-R318, R336, R338, R345; 03 R117: the owner's write of SYNC_VALUE sets the value, clears SAT and UNDER and releases a
waiter that it satisfies; a wake pulse makes the queues that listen to its wire fetch at once; a host counter that owes a
mirror word has it written, at most one in 256 ns; a dump is written where it may be, and counted as missed where not, which it is also while another is being written (the model's
choice: log entry 24). -/
def Obligations.SyncObjectsByTheOwnerAndWires : Prop :=
  ∀ (s : State),
    (∀ (m : Mgmt) (n : Fin 4096) (d : W64), State.MayWrite s m → (∀ y ∈ s.ops, y.desc.opcode ≠ 0x07) →
      ((∀ v ∈ s.sync.waiters, v.counter ≠ n.val) → ∃ t, exec (.syncValueWrite m n d) s = .next t ∧
        (t.counter n).value = d.toNat % 2 ^ 32 ∧ (t.counter n).sat = false ∧ (t.counter n).under = false ∧
        (t.counter n).lastKind = 9 ∧ (t.counter n).lastSource = m.agent ∧ (∀ k, k ≠ n.val → t.counter k = s.counter k) ∧
        t.ops = s.ops ∧ t.groups = s.groups) ∧
      (∀ v, s.sync.waiters = [v] → v.counter = n.val → v.threshold ≤ d.toNat % 2 ^ 32 → v.consume = false → v.rotate = false →
        ∃ t, exec (.syncValueWrite m n d) s = .next t ∧ t.sync.waiters = [] ∧
          t.op? v.q v.c = (s.op? v.q v.c).map fun o => { o with ready := true })) ∧
    (∀ w : Fin 256, (∀ v ∈ s.sync.waiters, wakeWire v.counter (s.counter v.counter) ≠ w.val) →
      exec (.wakePulse w) s = .next (State.plain s (wakeQueues s w)) ∧
      ((∀ q, (s.queue q).wakeEn = true → (s.queue q).wake ≠ w.val) → exec (.wakePulse w) s = .next s) ∧
      (∀ q, (s.queue q).wakeEn = true → (s.queue q).wake = w.val → (s.queue q).state = .running → (s.queue q).batch = none →
        (s.queue q).buffered.length < 16 → diff32 (s.queue q).fetch (s.queue q).head < 2 ^ (s.queue q).log2 →
        ∃ t, exec (.wakePulse w) s = .next t ∧ (t.queue q).batch.isSome = true)) ∧
    (∀ n : Fin 64,
      (s.sync.mirrorEn = true → (s.counter n).mirror = true → (s.counter n).mirrorDirty = true →
        (s.counter n).mirrorAt + 256 ≤ s.now → s.sync.mirrorBase % 8 = 0 → exec (.hostMirrorWrite n) s = .next (enqueue
          (s.setCounter n { s.counter n with mirrorDirty := false, mirrorAt := s.now }) (siphonOf (s.sync.mirrorBase + 8 * n))
          { cls := 1, pur := .mirror n, addr := s.sync.mirrorBase + 8 * n, len := 8, queue := 257
            data := leBytes 8 ((s.counter n).value + at_ (b1 (s.counter n).sat) 32 + at_ (b1 (s.counter n).under) 33) })) ∧
      ((s.sync.mirrorEn = false ∨ (s.counter n).mirror = false ∨ (s.counter n).mirrorDirty = false ∨
          s.now < (s.counter n).mirrorAt + 256) → exec (.hostMirrorWrite n) s = .next s)) ∧
    (∀ m : Mgmt, State.MayWrite s m →
      (s.sync.dumpEn = true → s.sync.dumpFull = false → s.sync.dumpBusy = false → ∃ t, exec (.dump m) s = .next t ∧
        t.sync.dumpBusy = true ∧ (∃ z ∈ (t.siphon (siphonOf s.sync.dumpAddr)).waiting, z.pur = .dump ∧ z.cls = 3 ∧
          z.addr = s.sync.dumpAddr) ∧ t.sync.counters = s.sync.counters ∧ t.ops = s.ops) ∧
      ((s.sync.dumpEn = false ∨ s.sync.dumpFull = true ∨ s.sync.dumpBusy = true) → exec (.dump m) s = .next (State.accepted s m
        { s with sync := { s.sync with dumpMissed := min 255 (s.sync.dumpMissed + 1) } })))

/-- 08 R307, R308, R312, R323-R325: a remote signal for a group in which this engine is not present, or whose counter is not bound to
it, is refused; one of an ended run is discarded; one that is due is applied, and one that is not is held until it is; the
1,025th is answered BUSY. Which runs have ended here, and the REASON of a refusal, are the model's reading (log entry 27). -/
def Obligations.RemoteSignalsAreHeldUntilDue : Prop :=
  ∀ (s : State) (x : SignalMsg) (u : State), x.wf = true → u = takeIn s x.src (.signal x) → s.mayTrade = true →
    (s.presentIn x.c.group = false → ∃ t, exec (.remoteSignal x) s = .next t ∧ t.sync.refused = true ∧ t.sync.refReason = 2 ∧
      t.sync.refCounter = x.counter ∧ t.sync.refKind = 7 ∧ t.sync.counters = s.sync.counters ∧ t.sync.held = s.sync.held) ∧
    (s.presentIn x.c.group = true →
      (((s.group x.c.group).halted = true ∨ (s.group x.c.group).ranOut x.c = true) → exec (.remoteSignal x) s = .next u) ∧
      ((s.group x.c.group).halted = false → (s.group x.c.group).ranOut x.c = false →
        (1024 ≤ s.sync.held.length → exec (.remoteSignal x) s = .next (State.plain s (sendTo (groupStirs u x.c.group) x.src
            (.ack { src := s.me, c := x.c, code := 4, ref := x.ref }))) ∧
          ∃ t, exec (.remoteSignal x) s = .next t ∧ t.sync.held = s.sync.held ∧ t.sync.counters = s.sync.counters) ∧
        (s.sync.held.length < 1024 → ((s.counter x.counter).bound = false ∨ (s.counter x.counter).bind ≠ x.c.group) →
          ∃ t, exec (.remoteSignal x) s = .next t ∧ t.sync.refused = true ∧ t.sync.refReason = 1 ∧ t.sync.refCounter = x.counter ∧
            t.sync.refKind = 7 ∧ t.sync.refDie = x.src ∧ t.sync.held = s.sync.held ∧ t.sync.counters = s.sync.counters) ∧
        (s.sync.held.length < 1024 → (s.counter x.counter).bound = true → (s.counter x.counter).bind = x.c.group →
          (s.signalDue x = false → ∃ t, exec (.remoteSignal x) s = .next t ∧ t.sync.held = s.sync.held ++ [⟨x, s.stamp⟩] ∧
            t.sync.counters = s.sync.counters ∧ t.ops = s.ops) ∧
          (s.signalDue x = true → (∀ v ∈ s.sync.waiters, v.counter ≠ x.counter) → (∀ y ∈ s.ops, y.desc.opcode ≠ 0x07) →
            x.sub = false → (s.counter x.counter).sat = false → (s.counter x.counter).under = false →
            ∃ t, exec (.remoteSignal x) s = .next t ∧ t.sync.held = s.sync.held ∧
              (t.counter x.counter).value = min (2 ^ 32 - 1) ((s.counter x.counter).value + x.amount) ∧
              (t.counter x.counter).lastKind = 7 ∧ (t.counter x.counter).lastDie = x.src)))) ∧
    (∀ i h, s.sync.held[i]? = some h →
      (s.signalDue h.m = false → exec (.heldSignalApply i) s = .next s) ∧
      (s.signalDue h.m = true → (∀ (j : Nat) k, s.sync.held[j]? = some k → j ≠ i → k.m.counter ≠ h.m.counter) →
        s.presentIn h.m.c.group = true → (s.counter h.m.counter).bound = true → (s.counter h.m.counter).bind = h.m.c.group →
        (∀ v ∈ s.sync.waiters, v.counter ≠ h.m.counter) → (∀ y ∈ s.ops, y.desc.opcode ≠ 0x07) → h.m.sub = true →
        (s.counter h.m.counter).sat = false → (s.counter h.m.counter).under = false →
        ∃ t, exec (.heldSignalApply i) s = .next t ∧ t.sync.held = s.sync.held.eraseIdx i ∧
          (t.counter h.m.counter).value = (s.counter h.m.counter).value - h.m.amount ∧
          (t.counter h.m.counter).under = decide ((s.counter h.m.counter).value < h.m.amount)))

/-- 08 R314, R323; 03 R121: an acknowledgement that names a started remote SIGNAL completes it, one that shows misuse puts its queue into
ERROR, a refusal takes the entry out and does the same with CAUSE SYNC and the SIGNAL as ERR_INDEX (the first error of the queue keeps
them: 03 R121, R131; an ABSENT queue has no state to change), and BUSY has it sent again after 1 µs and not before; any other changes nothing. -/
def Obligations.AcknowledgementsEndRemoteSignals : Prop :=
  ∀ (s : State),
    (∀ a : AckMsg, a.wf = true → (s.mayTradeIn a.c.group = false ∨ s.signalOf a = none) → exec (.signalAck a) s = .next (takeIn s a.src (.ack a))) ∧
    (∀ (a : AckMsg) (o : Op), a.wf = true → s.mayTradeIn a.c.group = true → s.signalOf a = some o → s.op? o.q o.c = some o →
      (a.code = 0 → ∃ t, exec (.signalAck a) s = .next t ∧
        t.op? o.q o.c = some { o with sig := none, ready := true, settled := true } ∧ t.queues = s.queues) ∧
      (a.code = 1 ∨ a.code = 2 → (s.queue o.q).state ≠ .absent → ∃ t, exec (.signalAck a) s = .next t ∧ (t.queue o.q).state = .error ∧
        t.op? o.q o.c = some { o with sig := none, ready := true, settled := true } ∧
        ((s.queue o.q).state ≠ .error → (s.queue o.q).cause = 0 → (t.queue o.q).cause = 8 ∧ (t.queue o.q).errIndex = o.c)) ∧
      (a.code = 3 → (s.queue o.q).state ≠ .absent → ∃ t, exec (.signalAck a) s = .next t ∧ (t.queue o.q).state = .error ∧
        t.op? o.q o.c = none ∧ (t.queue o.q).enable = (if (s.queue o.q).state = .error then (s.queue o.q).enable else false) ∧
        ((s.queue o.q).state ≠ .error → (s.queue o.q).cause = 0 → (t.queue o.q).cause = 8 ∧ (t.queue o.q).errIndex = o.c)) ∧
      (a.code = 4 → ∃ t, exec (.signalAck a) s = .next t ∧ t.queues = s.queues ∧
        t.op? o.q o.c = some { o with sig := o.sig.map fun x => { x with busyAt := some s.now } })) ∧
    (∀ (q : Fin 256) (c : Nat) (o : Op) (x : RemoteSig) (at_ : Nat), s.op? q c = some o → o.sig = some x → x.busyAt = some at_ →
      (s.now < at_ + 1000 → exec (.busyResend q c) s = .next s) ∧
      (at_ + 1000 ≤ s.now → o.ended = none → ∃ t, exec (.busyResend q c) s = .next t ∧
        t.op? q c = some { o with sig := some { x with busyAt := none } } ∧ t.queues = s.queues) ∧
      (at_ + 1000 ≤ s.now → o.ended = none → s.mayTradeIn o.desc.group = true → exec (.busyResend q c) s = .next (State.plain s
        (sendTo (s.updOp q c fun y => { y with sig := some { x with busyAt := none } }) (bits o.desc.aux64 0 18)
          (.signal { src := s.me, c := { commonOf s o.desc.group 0 0 with step := x.step, run := o.run }, counter := o.desc.sync
                     sub := bit o.desc.aux16 0, amount := o.desc.aux32, n := x.n, ref := x.ref })))))

/-- 12 R458; 08 R307, R312-R314: a request on a fabric port that may not change its counter is refused with code 3; one that may adds
or subtracts, stops at the counter's end with SAT or UNDER and code 1 or 2, and is ignored, with the same code, where SAT or
UNDER stands. Each is answered with its tag. -/
def Obligations.FabricRequestsAreAnswered : Prop :=
  ∀ (i : Fin 8) (x : FabricSignal) (s : State) (k : Counter), k = s.counter x.counter →
    ((x.origin.val ≥ 2 ∨ (x.origin.val = 1 ∧ 64 ≤ x.counter.val) ∨ x.amount = 0) → ∃ t, exec (.signalRequest i x) s = .next t ∧
      (i.val, x.tag.val, 3) ∈ t.sync.answers ∧ t.sync.refused = true ∧ t.sync.refReason = 0 ∧
      t.sync.counters = s.sync.counters) ∧
    ((x.origin.val = 0 ∨ (x.origin.val = 1 ∧ x.counter.val < 64)) → x.amount ≠ 0 →
      ((k.sat = true ∨ k.under = true) → ∃ t, exec (.signalRequest i x) s = .next t ∧ (t.counter x.counter).value = k.value ∧
        (t.counter x.counter).lastIgnored = true ∧ (i.val, x.tag.val, if k.sat then 1 else 2) ∈ t.sync.answers) ∧
      (k.sat = false → k.under = false → (∀ v ∈ s.sync.waiters, v.counter ≠ x.counter.val) →
        (∀ y ∈ s.ops, y.desc.opcode ≠ 0x07) →
        (x.sub = false → ∃ t, exec (.signalRequest i x) s = .next t ∧
          (t.counter x.counter).value = min (2 ^ 32 - 1) (k.value + x.amount.toNat) ∧
          (t.counter x.counter).sat = decide (2 ^ 32 ≤ k.value + x.amount.toNat) ∧
          (i.val, x.tag.val, if 2 ^ 32 ≤ k.value + x.amount.toNat then 1 else 0) ∈ t.sync.answers ∧
          (∀ n, n ≠ x.counter.val → t.counter n = s.counter n) ∧ t.groups = s.groups) ∧
        (x.sub = true → ∃ t, exec (.signalRequest i x) s = .next t ∧
          (t.counter x.counter).value = k.value - x.amount.toNat ∧
          (t.counter x.counter).under = decide (k.value < x.amount.toNat) ∧
          (i.val, x.tag.val, if k.value < x.amount.toNat then 2 else 0) ∈ t.sync.answers ∧
          (∀ n, n ≠ x.counter.val → t.counter n = s.counter n) ∧ t.groups = s.groups)))

/-- 08 R321, R322; 09 R357; 12 R485: a quiescent engine offers its budget after 2,000 ns, lends it when it is granted, withdraws or
reclaims it once quiescence has ended, and works again when the budget is back or 1 µs after it asked. -/
def Obligations.LendingFollowsQuiescence : Prop :=
  ∀ (s : State) (w : SyncSt), w = { s.sync with lent := false, lendValid := false, reclaimAt := none } →
    (∀ a, s.sync.quietSince = some a → a + 2000 ≤ s.now → s.sync.lendEn = true → s.sync.lent = false → s.sync.lendValid = false →
      s.quiescent = true → s.warden.surging = false → exec .lendOffer s = .next { s with sync := { s.sync with
        lendValid := true, offer := min 40 (fullLoad s.warden.vengMv - 6) } }) ∧
    ((s.sync.lendEn = false ∨ s.sync.quietSince = none ∨ s.quiescent = false) → exec .lendOffer s = .next s) ∧
    (s.sync.lendValid = true → s.sync.lent = false → exec .lendGrant s = .next { s with sync := { s.sync with
      lent := true, lends := (s.sync.lends + 1) % 2 ^ 32 } }) ∧
    ((s.sync.lendValid = false ∨ s.sync.lent = true) → exec .lendGrant s = .next s) ∧
    (s.sync.lendValid = true → s.sync.quietSince = none → exec .lendReclaim s = .next { s with sync := { s.sync with
      lendValid := false, quietSince := none, reclaimAt := if s.sync.lent then some s.now else none } }) ∧
    (s.sync.lendValid = false → exec .lendReclaim s = .next s) ∧
    (s.sync.lent = false → exec .budgetReturned s = .next s ∧ exec .reclaimLimit s = .next s) ∧
    (s.sync.lent = true →
      exec .budgetReturned s = .next (State.plain s (advanceAll (sendDue { s with sync := w }))) ∧
      (∃ t, exec .budgetReturned s = .next t ∧ t.sync.lent = false ∧ t.sync.lendValid = false ∧ t.sync.reclaimAt = none) ∧
      (∀ a, s.sync.reclaimAt = some a → a + 1000 ≤ s.now → ∃ t, exec .reclaimLimit s = .next t ∧ t.sync.lent = false ∧
        t.sync.lendValid = false) ∧
      (s.ops = [] → exec .budgetReturned s = .next { s with sync := w }) ∧
      (∀ a, s.sync.reclaimAt = some a → (a + 1000 ≤ s.now → s.ops = [] → exec .reclaimLimit s = .next { s with sync := w }) ∧
        (s.now < a + 1000 → exec .reclaimLimit s = .next s)))

/-! ### Time -/

/-- 09 R347-R351, R358, R359: the first lock takes the input's count; a relock ahead takes the tally forward, one behind is a backward
sample and waits for the input with the tally held; a loss of lock, or of an input that is waited for, begins holdover, is counted and
breaks an alignment, and has a TALLY record (11 R415; that a wait for an input can be lost: log entry 29); the tally advances by 1 each nanosecond of lock or holdover, and stands before the first lock. Cadence aligns, or
a change of CADENCE_LOCK takes effect, once its count has come: the first multiple of 65,536 at least 65,536 counts after the lock and
after the commit point of the change. -/
def Obligations.TallyLocksHoldsAndLoses : Prop :=
  ∀ (s : State) (n : W64) (kind : TallyLossKind) (at_ : Nat),
    at_ = max ((s.tally.lockedAt + 131071) / 65536 * 65536) ((s.tally.cadenceAt / 65536 + 1) * 65536) →
    (s.tally.lock = true → exec (.tallyLock n) s = .next s) ∧
    (s.tally.lock = false → (s.tally.everLocked = false ∨ s.tally.tally ≤ n.toNat) → ∃ t, exec (.tallyLock n) s = .next t ∧
      t = { s with
        tally := { s.tally with tally := n.toNat, lock := true, holdover := false, everLocked := true, behind := none
                                lockedAt := n.toNat }
        keeper := { s.keeper with phase := t.keeper.phase } } ∧
      t.keeper.phase = (if s.keeper.phase = .lowWater ∧ (∀ g ∈ s.servedGroups, (s.group g).full = true) ∧
        (s.servedGroups ≠ [] ∨ t.fullReady = true) then .full else s.keeper.phase)) ∧
    (s.tally.lock = false → s.tally.everLocked = true → n.toNat < s.tally.tally → exec (.tallyLock n) s = .next { s with
      tally := { s.tally with holdover := false, behind := some n.toNat, backward := true } }) ∧
    (s.tally.lock = false → (s.tally.behind = none ∨ kind = .below) → exec (.tallyLoss kind) s = .next { s with
      tally := { s.tally with backward := s.tally.backward || (decide (kind = .below) && s.tally.everLocked) } }) ∧
    ((s.tally.lock = true ∨ (s.tally.behind.isSome = true ∧ kind ≠ .below)) → ∃ t, exec (.tallyLoss kind) s = .next t ∧
      t = { s with tally := t.tally, warden := t.warden, siphons := t.siphons } ∧
      (∃ e, e = tabGet (fun _ => {}) t.warden.log (s.warden.seq % 256) ∧ e.type = 0x13 ∧ e.unit = 0x704 ∧
        e.s0 = t.tally.losses ∧ e.s1 = b1 t.tally.backward) ∧ t.tally.lock = false ∧ t.tally.behind = none ∧
      t.tally.holdover = true ∧ t.tally.lost = true ∧ t.tally.losses = min 255 (s.tally.losses + 1) ∧
      t.tally.tally = s.tally.tally ∧ t.tally.backward = (s.tally.backward || decide (kind = .below)) ∧
      t.tally.aligned = false ∧ t.tally.brk = (s.tally.brk || s.tally.aligned) ∧
      t.tally.breaks = (if s.tally.aligned then min 255 (s.tally.breaks + 1) else s.tally.breaks)) ∧
    (s.tally.behind = none → s.tally.advance.tally = s.tally.tally + (if s.tally.lock || s.tally.holdover then 1 else 0)) ∧
    (∀ b, s.tally.behind = some b → b + 1 ≤ s.tally.tally → s.tally.advance.tally = s.tally.tally) ∧
    (s.tally.lock = true → s.image.cadence = true → s.tally.aligned = false → at_ ≤ s.tally.tally →
      exec .cadenceAlign s = .next { s with tally := { s.tally with cadenceOn := true, aligned := true, c0 := at_ } }) ∧
    (s.tally.lock = true → s.image.cadence = false → s.tally.cadenceOn = true → at_ ≤ s.tally.tally →
      exec .cadenceAlign s = .next { s with tally := { s.tally with cadenceOn := false, aligned := false } }) ∧
    ((s.tally.lock = false ∨ s.tally.tally < at_) → exec .cadenceAlign s = .next s)

/-- 09 R365-R371: a write of TWIN_CTRL that names this engine, or that keeps EN while paired, is rejected; the pair forms when both
have asked, and ends when either clears EN; records that agree leave both backlogs, the first that differ set DIVERGED, and the
lowest is latched after 1 ms; a partner silent for 10 ms while records wait leaves the engine ALONE (what the source leaves open of
pairing and of the latched record: log entry 30). -/
def Obligations.TwinsPairCompareAndPart : Prop :=
  ∀ (s : State),
    (∀ (m : Mgmt) (d : W64), State.MayWrite s m →
      ((bits d.toNat 16 18 = s.me ∨ (s.twin.paired = true ∧ bit d.toNat 0 = true)) →
        exec (.twinCtrlWrite m d) s = .next (State.answered s m 1 0)) ∧
      (bits d.toNat 16 18 ≠ s.me → s.twin.paired = false → bit d.toNat 0 = true → ∃ t, exec (.twinCtrlWrite m d) s = .next t ∧
        t.twin.en = true ∧ t.twin.partner = bits d.toNat 16 18 ∧ t.twin.queue = bits d.toNat 8 8 ∧
        t.twin.paired = s.twin.peers.contains (bits d.toNat 16 18) ∧ t.queues = s.queues) ∧
      (bits d.toNat 16 18 ≠ s.me → bit d.toNat 0 = false → ∃ t, exec (.twinCtrlWrite m d) s = .next t ∧
        t.twin.en = false ∧ t.twin.paired = false)) ∧
    (∀ src, src < 2 ^ 18 →
      (∃ t, exec (.twinPair src true) s = .next t ∧ src ∈ t.twin.peers ∧
        t.twin.paired = (s.twin.paired || (s.twin.en && s.twin.partner == src))) ∧
      (∃ t, exec (.twinPair src false) s = .next t ∧ t.twin.paired = (s.twin.paired && s.twin.partner != src))) ∧
    (∀ (src : Nat) (r : TwinRec), src < 2 ^ 18 → r.wf = true →
      ((s.twin.paired = false ∨ s.twin.partner ≠ src) →
        exec (.twinRecord src [r]) s = .next (takeIn s src (.twinRecord [r]))) ∧
      (s.twin.paired = true → s.twin.partner = src → (∀ y ∈ s.twin.own, y.key ≠ r.key) → ∃ t,
        exec (.twinRecord src [r]) s = .next t ∧ t.twin.theirs = s.twin.theirs ++ [r] ∧ t.twin.own = s.twin.own ∧
          t.twin.diverged = s.twin.diverged ∧ t.twin.lastAt = s.now) ∧
      (s.twin.paired = true → s.twin.partner = src → r ∈ s.twin.own → (∀ y ∈ s.twin.own, y.key = r.key → y = r) → ∃ t,
        exec (.twinRecord src [r]) s = .next t ∧ t.twin.own = s.twin.own.erase r ∧ t.twin.diverged = s.twin.diverged ∧
          t.twin.compared = (s.twin.compared + 1) % 2 ^ 32 ∧ t.queues = s.queues) ∧
      (∀ y, s.twin.paired = true → s.twin.partner = src → s.twin.own = [y] → y.key = r.key → y.crc ≠ r.crc → ∃ t,
        exec (.twinRecord src [r]) s = .next t ∧ t.twin.diverged = true ∧ t.twin.own = [] ∧
          (s.twin.diverged = false → t.twin.mismatchAt = some s.now ∧
            (s.twin.best = none → t.twin.best = some (r.key, y.crc, r.crc))))) ∧
    (∀ k a b at_, s.twin.best = some (k, a, b) → s.twin.latched = false → s.twin.mismatchAt = some at_ →
      (at_ + 1000000 ≤ s.now → exec .twinDivergeLatch s = .next { s with twin := { s.twin with
        latched := true, best := none, divEntry := k.k, divStep := s.twinStep, divKey := k, divOwn := a, divPartner := b
        divTally := s.stamp } }) ∧
      (s.now < at_ + 1000000 → s.twin.own ≠ [] → exec .twinDivergeLatch s = .next s)) ∧
    (s.twin.paired = true → s.twin.own ≠ [] →
      (s.twin.lastAt + 10000000 ≤ s.now → ∃ t, exec .twinAlone s = .next t ∧ t.twin.alone = true ∧ t.twin.paired = false ∧
        t.twin.own = [] ∧ t.twin.theirs = [] ∧ t = { s with twin := t.twin }) ∧
      (s.now < s.twin.lastAt + 10000000 → exec .twinAlone s = .next s)) ∧
    (s.twin.paired = false → exec .twinAlone s = .next s)

/-! ### Warden -/

/-- 11 R414, R419, R421, R426, R427: a fault whose repeats run right is TRANSIENT, one that fails again with the same output on a unit
whose alternative is right is PERMANENT, one that fails on the alternative as well is INCONCLUSIVE, and the record says so, with what
was done: a PERMANENT pump is fenced and the spare stands in, or nothing is done with AUTO_FENCE 0; an INCONCLUSIVE one raises VSTEPS
while VSTEP_MAX allows. A second event of the same type and unit within a millisecond is
counted and has no record of its own. The record takes the next SEQ and the present stamps. A report of a unit that forms nothing of its
group, or of a dual-rail mismatch where no work is railed, is none (01 R38; 10 R383-R386). What the repeats gave is an operand of the
report, and no other repeat runs (log entry 31). -/
def Obligations.FaultReportsAreJudgedAndRecorded : Prop :=
  ∀ (r : FaultRep) (s : State), r.wf = true → (∀ g, (s.group g).resumeDue = false) →
    (s.faultStands r = false → exec (.faultReport r) s = .next s) ∧
    (s.faultStands r = true → r.type = 5 ∨ r.type = 6 → r.unit < 0x160 → r.operandsKept = true → r.passedOn = false → r.repaired = false →
      s.ratedOut r.type r.unit = false → s.judging = false → r.rep.same = true → s.warden.suspicion = [] →
      1 < s.warden.transientLimit →
      ∃ t e, exec (.faultReport r) s = .next t ∧ e = tabGet (fun _ => {}) t.warden.log (s.warden.seq % 256) ∧ e.type = r.type ∧
        e.verdict = 1 ∧ e.unit = r.unit ∧ e.seq = s.warden.seq % 65536 ∧ e.tally = s.stamp ∧ e.group = r.group ∧
        t.warden.seq = (s.warden.seq + 1) % 65536 ∧ t.warden.newFault = true ∧ t.warden.suspicion = [(r.unit, s.now)] ∧
        t.groups = s.groups ∧ t.ops = s.ops ∧ t.warden.fenced = s.warden.fenced) ∧
    (s.faultStands r = true → (r.type = 5 ∨ r.type = 6) → r.unit < 0x160 → r.passedOn = false → s.ratedOut r.type r.unit = true →
      r.rep.same = true → s.warden.autoRelief = false → ∃ t, exec (.faultReport r) s = .next t ∧
        t.warden.suppressed = min 255 (s.warden.suppressed + 1) ∧ t.warden.log = s.warden.log ∧ t.warden.seq = s.warden.seq) ∧
    (s.faultStands r = true → (r.type = 5 ∨ r.type = 6) → r.unit < 16 → r.operandsKept = true → s.judging = false →
      r.passedOn = false → r.repaired = false → s.ratedOut r.type r.unit = false → r.rep.same = false →
      (r.rep.alt = true → r.rep.again = true → s.warden.autoFence = false → ∃ t e, exec (.faultReport r) s = .next t ∧
        e = tabGet (fun _ => {}) t.warden.log (s.warden.seq % 256) ∧ e.verdict = 2 ∧ e.unit = r.unit ∧ e.capped = true ∧
        e.action = 0 ∧ t.warden.fenced = s.warden.fenced ∧ t.groups = s.groups ∧ t.ops = s.ops) ∧
      (r.rep.alt = true → r.rep.again = true → s.warden.autoFence = true → r.unit ∉ s.warden.fenced → 16 ∉ s.warden.fenced →
        s.warden.spareIn = none →
        (∀ y ∈ s.groups, y.2.gr.valid = true → y.2.halted = false → y.2.gr.pumpMask ≠ 0 → s.groupPumps y.1 ≠ []) →
        ∃ t e, exec (.faultReport r) s = .next t ∧ e = tabGet (fun _ => {}) t.warden.log (s.warden.seq % 256) ∧ e.verdict = 2 ∧
          e.unit = r.unit ∧ e.capped = false ∧ e.action = 4 ∧ t.warden.fenced = s.warden.fenced ++ [r.unit] ∧
          t.warden.spareIn = some r.unit ∧ t.groups = s.groups ∧ t.ops = s.ops) ∧
      (r.rep.alt = false → ∃ t e, exec (.faultReport r) s = .next t ∧
        e = tabGet (fun _ => {}) t.warden.log (s.warden.seq % 256) ∧ e.verdict = 3 ∧ e.unit = r.unit ∧
        (s.warden.vsteps < s.warden.vstepMax → e.action = 3 ∧ t.warden.vsteps = s.warden.vsteps + 1) ∧
        (s.warden.vstepMax ≤ s.warden.vsteps → e.action = 0 ∧ t.warden.vsteps = s.warden.vsteps) ∧
        t.warden.fenced = s.warden.fenced ∧ t.groups = s.groups ∧ t.ops = s.ops)) ∧
    (judge r.unit r.rep false = (if r.rep.same then 1 else if hasAlt r.unit && !r.rep.alt then 3
      else if r.rep.again then 2 else 3)) ∧
    (r.type = 4 → r.repaired = true → r.passedOn = false → s.ratedOut 4 r.unit = false → ∃ t,
      exec (.faultReport r) s = .next t ∧ t.integ = { s.integ with
        repairs := (s.integ.repairs + 1) % 2 ^ 64, crcSeen := true, crcErrors := (s.integ.crcErrors + 1) % 2 ^ 64 } ∧
        (tabGet (fun _ => {}) t.warden.log (s.warden.seq % 256)).action = 1 ∧ t.groups = s.groups)

/-- 01 R40, R41; 11 R427, R429, R430, R437, R441: fencing a pump brings the spare in where it is free, and else leaves its work to the group's
other pumps; a test on the spare that waits becomes a whole-engine test that waits, which ends surge (the model's choice where the spare is
fenced: log entry 31); a running group left without a pump halts with cause NO_PUMP. A WITHDRAW of a run that has not ended here
is recorded once and forwarded to every other peer with its sender, and where no group evicts by itself the
members and the operations stay; one of a run that has ended, or received before, does nothing. -/
def Obligations.FencingAndWithdrawals : Prop :=
  ∀ (s : State),
    (∀ p sp, p < 16 → p ∉ s.warden.fenced →
      sp = (if s.warden.spareIn = none ∧ 16 ∉ s.warden.fenced then some p else s.warden.spareIn) →
      (∀ y ∈ s.groups, y.2.gr.valid = true → y.2.halted = false → y.2.gr.pumpMask ≠ 0 →
        ∃ q ∈ s.groupPumps y.1, q ≠ p ∨ (s.warden.spareIn = none ∧ 16 ∉ s.warden.fenced)) →
      ((s.warden.test ≠ .waiting ∨ s.warden.testDrains = true) →
        fencePump s p = ({ s with warden := { s.warden with fenced := s.warden.fenced ++ [p], spareIn := sp } }, [4])) ∧
      (s.warden.test = .waiting → s.warden.testDrains = false → ∃ t, fencePump s p = (t, [4]) ∧
        t.warden.fenced = s.warden.fenced ++ [p] ∧ t.warden.spareIn = sp ∧ t.warden.test = .waiting ∧ t.warden.testDrains = true ∧
        t.warden.surging = false ∧ t.groups = s.groups ∧ t.ops = s.ops ∧ t.members = s.members)) ∧
    (∀ p g, p < 16 → p ∉ s.warden.fenced → (s.warden.spareIn ≠ none ∨ 16 ∈ s.warden.fenced) → (g, s.group g) ∈ s.groups →
      (s.gr g).valid = true → (s.group g).halted = false → (s.gr g).pumpMask ≠ 0 → s.groupPumps g = [p] →
      ∃ t, fencePump s p = (t, [4, 5]) ∧ (t.group g).halted = true ∧ (t.group g).haltCause = 8 ∧
        t.warden.fenced = s.warden.fenced ++ [p] ∧ t.warden.spareIn = s.warden.spareIn) ∧
    (∀ x : WithdrawMsg, x.wf = true → (∀ g, (s.group g).resumeDue = false) →
      ((s.gr x.c.group).valid = false ∨ s.mayTradeIn x.c.group = false ∨
        (s.group x.c.group).hasEnded x.c.step x.c.run = true ∨
        (x.src, x.c.step, x.c.run) ∈ (s.group x.c.group).withdrawn) →
      exec (.withdraw x) s = .next (takeIn s x.src (.withdraw x))) ∧
    (∀ x : WithdrawMsg, x.wf = true → (∀ g, (s.group g).resumeDue = false) → (∀ y ∈ s.groups, y.2.gr.autoEvict = false) →
      (s.gr x.c.group).valid = true → s.mayTradeIn x.c.group = true →
      (s.group x.c.group).hasEnded x.c.step x.c.run = false →
      (x.src, x.c.step, x.c.run) ∉ (s.group x.c.group).withdrawn →
      (∀ e ∈ s.groupEntries x.c.group, e.2.dieAddr = x.src → e.2.state ≠ 3 ∧ e.2.state ≠ 5) →
      ∃ t v, exec (.withdraw x) s = .next t ∧
        t = State.plain s (sendAll v ((s.allPeers x.c.group).filter fun d => d != x.src) (.withdraw x)) ∧
        v.links = (takeIn s x.src (.withdraw x)).links ∧ v.net = (takeIn s x.src (.withdraw x)).net ∧
        (t.group x.c.group).withdrawn = (s.group x.c.group).withdrawn ++ [(x.src, x.c.step, x.c.run)] ∧
        (tabGet (fun _ => {}) t.warden.log (s.warden.seq % 256)).type = 0x0E ∧ t.members = s.members ∧ t.ops = s.ops)

/-- 11 R434, R436-R440, R448: GO is rejected while a test waits or runs; a test that names no pour is REFUSED, an unstressed pump test
runs on the spare at once; the outcome without a failure is PASS, and with one FAIL, which names the first failure with its verdict; a
failure is what a unit shows against the ANSWER of a pour, or a pour whose ANSWER its kernel does not give. A whole-engine test waits
until the sluice is held and the started operations have drained. The automatic tests take the pump pours in ID order. -/
def Obligations.TestsRunAndEnd : Prop :=
  ∀ (s : State), (∀ g, (s.group g).resumeDue = false) →
    (∀ (m : Mgmt) (d : W64), State.MayWrite s m →
      (s.warden.testBusy = true → exec (.go m d) s = .next (State.answered s m 1 0)) ∧
      (s.warden.testBusy = false → s.warden.pours = [] → bits d.toNat 0 16 ≠ 0xFFFF → ∃ t, exec (.go m d) s = .next t ∧
        t.warden.test = .refused ∧ t.warden.testId = bits d.toNat 0 16 ∧ t.ops = s.ops) ∧
      (∀ y, s.warden.testBusy = false → s.warden.pours = [y] → y.target = 0 → y.id = bits d.toNat 0 16 →
        bits d.toNat 0 16 < 0xFFFE → bit d.toNat 16 = false → bit d.toNat 17 = false → s.keeper.phase = .full →
        s.warden.spareIn = none → 16 ∉ s.warden.fenced → ∃ t, exec (.go m d) s = .next t ∧ t.warden.test = .running ∧
          t.warden.testPours = [y] ∧ t.warden.testHold = s.warden.testHold ∧ t.warden.log = s.warden.log ∧ t.ops = s.ops)) ∧
    (∀ fails : List TestFail, fails.all TestFail.wf = true → ∀ found,
      found = s.testFails s.warden.testPours s.warden.testBytes (s.warden.testId == 0xFFFF) s.warden.testHold fails →
      (s.warden.test = .running → s.warden.testHold = false →
        (found = [] → ∃ t, exec (.testComplete fails) s = .next t ∧ t.warden.test = .pass ∧ t.warden.stressDomains = [] ∧
          t.warden.log = s.warden.log ∧ t.groups = s.groups) ∧
        (∀ f rest, found = f :: rest → ∃ t, exec (.testComplete fails) s = .next t ∧ t.warden.test = .fail ∧
          t.warden.failId = f.pour ∧ t.warden.failUnit = f.unit ∧ 
          t.warden.testVerdict = (if s.judging then 5 else judge f.unit f.rep s.warden.testStress) ∧
          t.warden.testPours = [])) ∧
      ((s.warden.test ≠ .running ∨ s.warden.testHold = true) → exec (.testComplete fails) s = .next s) ∧
      (s.warden.testHold = true → s.started = [] → s.img.swapping = none → (s.warden.wholeStress = true → s.settledVeng = true) →
        (found = [] → ∃ t, exec (.wholeEngineTest fails) s = .next t ∧ t.warden.test = .pass ∧ t.warden.testHold = false ∧
          t.warden.log = s.warden.log) ∧
        (∀ f rest, found = f :: rest → ∃ t, exec (.wholeEngineTest fails) s = .next t ∧ t.warden.test = .fail ∧
          t.warden.failId = f.pour ∧ t.warden.failUnit = f.unit ∧ t.warden.testHold = false)) ∧
      ((s.warden.testHold = false ∨ s.started ≠ [] ∨ s.img.swapping ≠ none) → exec (.wholeEngineTest fails) s = .next s) ∧
      (s.warden.testAutoEn = false → exec (.testAuto fails) s = .next s) ∧
      (s.warden.testAutoEn = true → s.warden.autoAt + s.warden.testInterval * 100000000 ≤ s.now →
        s.warden.testBusy = false → s.warden.spareIn = none → 16 ∉ s.warden.fenced → s.settledVeng = true →
        (s.warden.nextPour = none → exec (.testAuto fails) s = .next { s with warden := { s.warden with autoAt := s.now } }) ∧
        (∀ id, s.warden.nextPour = some id → ∃ t, exec (.testAuto fails) s = .next t ∧ t.warden.autoLast = some id ∧
          t.warden.autoAt = s.now ∧
          (s.testFails (s.warden.poursOf id) s.warden.pourBytes false false (fails.map fun f => { f with pour := id }) = [] →
            t = { s with warden := { s.warden with autoAt := s.now, autoLast := some id } }))))

/-- 01 R48, R49; 11 R424-R426, R446, R450: a PACE write takes a level up to 8 and clears the steps; BASE_MV takes 600 to 850 in steps of
25, and CLEAR_RELIEF takes the voltage steps back; the target follows the table of 11 R424; VREQ moves toward it by at most
25 mV in 5 µs, and a rail still off target after the slew time and 100 µs has one SENSE record. -/
def Obligations.VoltageFollowsItsTarget : Prop :=
  ∀ (s : State),
    (∀ (m : Mgmt) (i : Fin 25) (d : W64), State.MayWrite s m →
      (bits d.toNat 0 4 ≤ 8 → exec (.paceWrite m i d) s = .next (State.accepted s m
        (s.setPace i { level := bits d.toNat 0 4, steps := 0 }))) ∧
      (8 < bits d.toNat 0 4 → exec (.paceWrite m i d) s = .next (State.answered s m 1 0))) ∧
    (∀ (m : Mgmt) (mv : BitVec 10), State.MayWrite s m →
      ((mv.toNat < 600 ∨ 850 < mv.toNat ∨ mv.toNat % 25 ≠ 0) → exec (.baseMvWrite m mv) s = .next (State.answered s m 1 0)) ∧
      (600 ≤ mv.toNat → mv.toNat ≤ 850 → mv.toNat % 25 = 0 → ∃ t, exec (.baseMvWrite m mv) s = .next t ∧
        t.warden.baseMv = mv.toNat ∧ t.warden.vsteps = s.warden.vsteps ∧ t.warden.vreqMv = s.warden.vreqMv ∧
        (s.warden.surging = false → s.warden.cap = false → s.stressing = false → s.warden.vsteps = 0 →
          t.vengTarget = (mv.toNat, 0))) ∧
      (600 ≤ s.warden.baseMv → s.warden.baseMv ≤ 850 → s.warden.baseMv % 25 = 0 → ∃ t, exec (.clearRelief m) s = .next t ∧
        t.warden.vsteps = 0 ∧ t.warden.baseMv = s.warden.baseMv)) ∧
    (s.stressing = false → s.vengTarget = if s.warden.cap then (min 750 (min (s.warden.baseMv + 25 * s.warden.vsteps) 850), 2)
      else if s.warden.surging then (900, 1) else (min (s.warden.baseMv + 25 * s.warden.vsteps) 850, 0)) ∧
    ((∀ a, s.warden.vreqAt = some a → a + 5000 ≤ s.now) → s.warden.vreqMv < s.vengTarget.1 → exec .vengStep s = .next { s with
      warden := { s.warden with vreqMv := min s.vengTarget.1 (s.warden.vreqMv + 25), vreqAt := some s.now } }) ∧
    ((∀ a, s.warden.vreqAt = some a → a + 5000 ≤ s.now) → s.vengTarget.1 < s.warden.vreqMv → exec .vengStep s = .next { s with
      warden := { s.warden with vreqMv := max s.vengTarget.1 (s.warden.vreqMv - 25), vreqAt := some s.now } }) ∧
    ((s.vengTarget.1 = s.warden.vreqMv ∨ ∃ a, s.warden.vreqAt = some a ∧ s.now < a + 5000) → exec .vengStep s = .next s) ∧
    (∀ a, s.warden.offSince = some a →
      (s.now < a + 200 * s.warden.offBy + 100000 → exec .vengSense s = .next s) ∧
      (a + 200 * s.warden.offBy + 100000 ≤ s.now → s.warden.senseRecorded = false → s.settledVeng = false →
        ∃ t, exec .vengSense s = .next t ∧ t.warden.senseRecorded = true ∧
          (tabGet (fun _ => {}) t.warden.log (s.warden.seq % 256)).type = 0x12 ∧ t.ops = s.ops))

/-- 11 R444; 12 R484, R486: above 105 °C the cap begins and surge ends, at 115 °C the trip begins and at 105 °C it ends, and the cap is
released after 1 s at or below 100 °C; a sense input without a strobe for 1 ms is a trip until the next strobe. -/
def Obligations.HeatCapsAndTrips : Prop :=
  ∀ (s : State),
    (∀ tj : Int, -2048 ≤ tj → tj ≤ 2047 → ∃ t, exec (.thermal tj) s = .next t ∧ exec (.senseStrobe .tj tj) s = .next t ∧
      t.warden.temp = tj ∧ t.warden.tjAt = s.now ∧ t.warden.tjStale = false ∧
      t.warden.cap = (s.warden.cap || decide (420 < tj)) ∧
      t.warden.hotTrip = (if 460 ≤ tj then true else if tj ≤ 420 then false else s.warden.hotTrip) ∧
      (420 < tj → s.warden.cap = false → t.warden.surging = false) ∧ t.groups = s.groups ∧ t.ops = s.ops) ∧
    (∀ v : Int, 0 ≤ v → v ≤ 1023 → ∃ t, exec (.senseStrobe .veng v) s = .next t ∧ t.warden.vengMv = v.toNat ∧
      t.warden.vengAt = s.now ∧ t.warden.vengStale = false ∧ t.warden.temp = s.warden.temp) ∧
    (s.warden.tjStale = false → s.warden.tjAt + 1000000 ≤ s.now → ∃ t, exec (.senseStale .tj) s = .next t ∧
      t.warden.tjStale = true ∧ t.warden.trip = true) ∧
    (s.warden.vengStale = false → s.warden.vengAt + 1000000 ≤ s.now → ∃ t, exec (.senseStale .veng) s = .next t ∧
      t.warden.vengStale = true ∧ t.warden.trip = true) ∧
    (s.now < s.warden.tjAt + 1000000 → exec (.senseStale .tj) s = .next s) ∧
    (∀ a, s.warden.cap = true → s.warden.coolSince = some a →
      (a + 1000000000 ≤ s.now → ∃ t, exec .capRelease s = .next t ∧ t.warden.cap = false ∧
        (tabGet (fun _ => {}) t.warden.log (s.warden.seq % 256)).type = 0x10) ∧
      (s.now < a + 1000000000 → exec .capRelease s = .next s)) ∧
    (∀ d, s.warden.trip = true → s.effectivePace d = 8)

/-- 11 R441-R443; 12 R485: REQUEST set to 1 asks for power once every other condition holds; surge begins when every condition holds and
the extra power is granted; it ends when the owner clears the
request, the grant falls, the window of 5 s has been used, or the ledger is spent, which disables it for good. A ledger is
restored once, and only where its CHECK fits. -/
def Obligations.SurgeKeepsItsLedger : Prop :=
  ∀ (s : State) (m : Mgmt),
    (s.warden.drawValid = true → s.surgeReady = true → ∃ t, exec .surgeBegin s = .next t ∧ t.warden.surging = true ∧
      t.warden.drawGrant = true ∧ (tabGet (fun _ => {}) t.warden.log (s.warden.seq % 256)).type = 0x11) ∧
    ((s.warden.drawValid = false ∨ s.surgeReady = false) → exec .surgeBegin s = .next { s with warden := { s.warden with
      drawGrant := true } }) ∧
    (State.MayWrite s m → ∃ t, exec (.request m true) s = .next t ∧ t.warden.request = true ∧ t.warden.surge = s.warden.surge ∧
      t.warden.drawGrant = s.warden.drawGrant ∧ (s.warden.surging = false → t.warden.drawValid = t.surgeReady) ∧ t.ops = s.ops) ∧
    (s.warden.surging = true →
      (State.MayWrite s m → ∃ t, exec (.request m false) s = .next t ∧ t.warden.surging = false ∧ t.warden.request = false) ∧
      (∃ t, exec .drawGrantFall s = .next t ∧ t.warden.surging = false ∧ t.warden.drawGrant = false ∧
        t.warden.ledgerDue = true) ∧
      (500 ≤ s.warden.windowUsed → ∃ t, exec .surgeWindowSpent s = .next t ∧ t.warden.surging = false ∧
        (tabGet (fun _ => {}) t.warden.log (s.warden.seq % 256)).s0 = 1)) ∧
    (s.warden.windowUsed < 500 → exec .surgeWindowSpent s = .next s) ∧
    (s.warden.ledgerValid = true → s.warden.spent = false → 7200000000 ≤ s.warden.ledgerMs → ∃ t, exec .ledgerSpent s = .next t ∧
      t.warden.spent = true ∧ t.warden.surge = .disabled) ∧
    ((s.warden.ledgerValid = false ∨ s.warden.spent = true ∨ s.warden.ledgerMs < 7200000000) → exec .ledgerSpent s = .next s) ∧
    (s.warden.ledgerEn = true → s.warden.ledgerValid = true → s.warden.ledgerDue = true → ∃ t, exec .ledgerRecord s = .next t ∧
      t.warden.ledgerDue = false ∧ (∃ z ∈ (t.siphon (siphonOf s.warden.ledgerAddr)).waiting, z.pur = .ledger ∧
        z.addr = s.warden.ledgerAddr) ∧ t.ops = s.ops) ∧
    ((s.warden.ledgerEn = false ∨ s.warden.ledgerValid = false) → exec .ledgerRecord s = .next s) ∧
    (State.MayWrite s m →
      (s.warden.restoreUsed = true → exec (.restore m) s = .next (State.answered s m 1 0)) ∧
      (s.warden.restoreUsed = false → s.warden.restoreCheck = s.ledgerCheck s.warden.restoreS → s.warden.surging = false →
        ∃ t, exec (.restore m) s = .next t ∧ t.warden.ledgerValid = true ∧ t.warden.ledgerMs = 1000 * s.warden.restoreS ∧
          t.warden.restoreUsed = true ∧ (s.warden.restoreS < 7200000 → t.warden.surge = .off) ∧
          (7200000 ≤ s.warden.restoreS → t.warden.surge = .disabled ∧ t.warden.spent = true)) ∧
      (s.warden.restoreUsed = false → s.warden.restoreCheck ≠ s.ledgerCheck s.warden.restoreS → ∃ t,
        exec (.restore m) s = .next t ∧ t.warden.ledgerBad = true ∧ t.warden.ledgerValid = s.warden.ledgerValid))

/-! ### Links -/

/-- 12 R473-R475: a port begins to train when its PHY shows lane groups; it counts good TRAIN flits, attaches once both sides have 8, goes
down as MISWIRED where the peer stands in the wrong place, and else shows its peer; an attempt that overruns its bound, which for BASIC is
5 ms on a package port and 20 ms on a system port, waits for a drawn
time, the eighth takes the port down, and calibration makes it UP with the width of its good lane groups. What a failed BASIC goes back
to, and when training is counted, are the model's choice (log entry 33). -/
def Obligations.PortsTrainAttachAndCalibrate : Prop :=
  ∀ (n : Fin 8) (s : State) (l : LinkSt), l = s.link n →
    (∀ mask : Fin 16, (l.state = .waitPhy → mask.val ≠ 0 → ∃ t, exec (.phyReady n mask) s = .next t ∧ (t.link n).state = .train ∧
        (t.link n).ready = mask ∧ (t.link n).goodTrain = 0 ∧ (t.link n).attemptAt = s.now ∧
        ∀ k, k ≠ n.val → t.link k = s.link k) ∧
      (l.state ≠ .waitPhy → l.state ≠ .disabled → exec (.phyReady n mask) s = .next (s.updLink n fun x => { x with ready := mask }))) ∧
    (∀ x : TrainFlit, x.wf = true →
      (l.state ≠ .train → l.state ≠ .attach → l.state ≠ .retrain → exec (.train n x) s = .next s) ∧
      ((l.state = .train ∨ l.state = .attach ∨ l.state = .retrain) → l.backoffUntil = none →
        ((l.goodTrain < 7 ∨ x.count < 8) → ∃ t, exec (.train n x) s = .next t ∧ (t.link n).goodTrain = min 255 (l.goodTrain + 1) ∧
          (t.link n).state = l.state ∧ ∀ k, k ≠ n.val → t.link k = s.link k) ∧
        (7 ≤ l.goodTrain → 8 ≤ x.count → s.wired n x = false → ∃ t, exec (.train n x) s = .next t ∧
          (t.link n).state = .down ∧ (t.link n).downCause = 2 ∧ (t.link n).kept = []) ∧
        (7 ≤ l.goodTrain → 8 ≤ x.count → s.wired n x = true → ∃ t, exec (.train n x) s = .next t ∧
          ((t.link n).state = .basic ∨ (t.link n).state = .up) ∧ (t.link n).peerDie = x.die ∧ (t.link n).peerPort = x.port ∧
          (t.link n).peerValid = true ∧ (t.link n).peerId = x.idCheck))) ∧
    (attemptBound n .train = (if n.val < 4 then 200000 else 2000000) ∧ attemptBound n .attach = (if n.val < 4 then 10000 else 100000) ∧
      attemptBound n .basic = (if n.val < 4 then 5000000 else 20000000) ∧
      attemptBound n .retrain = attemptBound n .train + attemptBound n .attach) ∧
    ((l.state = .train ∨ l.state = .attach ∨ l.state = .retrain ∨ l.state = .basic) → l.backoffUntil = none →
      (s.now < l.attemptAt + attemptBound n l.state → exec (.trainAttemptFail n) s = .next s) ∧
      (l.attemptAt + attemptBound n l.state ≤ s.now → l.attempts < 7 → ∃ t, exec (.trainAttemptFail n) s = .next t ∧
        (t.link n).attempts = l.attempts + 1 ∧ (∃ x, (t.link n).backoffUntil = some (s.now + 10000 * (1 + x)) ∧ x < 64) ∧
        ∀ k, k ≠ n.val → t.link k = s.link k) ∧
      (l.attemptAt + attemptBound n l.state ≤ s.now → 7 ≤ l.attempts → ∃ t, exec (.trainAttemptFail n) s = .next t ∧
        (t.link n).state = .down ∧ (t.link n).downCause = if l.fromRetrain then 3 else 1)) ∧
    (∀ a, l.backoffUntil = some a → (a ≤ s.now → exec (.trainBackoff n) s = .next (s.updLink n fun x => { x with
        backoffUntil := none, attemptAt := s.now, goodTrain := 0 })) ∧
      (s.now < a → exec (.trainBackoff n) s = .next s)) ∧
    (∀ good : Fin 16, (l.state ≠ .basic → exec (.calibrationComplete n good) s = .next s) ∧
      (∀ w, l.state = .basic → w = { l with good := Nat.land good.val l.ready }.fitWidth → w ≠ 0 → ∃ t,
        exec (.calibrationComplete n good) s = .next t ∧ (t.link n).state = .up ∧ (t.link n).width = w ∧
          (t.link n).degraded = (l.degraded || decide (w < 4)) ∧ ∀ k, k ≠ n.val → t.link k = s.link k))

/-- 12 R475-R478, R487: the loss of a lane group, silence for the bound of the port, or the owner's RETRAIN puts a live port into RETRAIN,
which is counted; a DOWN port trains again; clearing EN takes a port to DISABLED and discards what it holds, and the code 3 of
MAX_WIDTH is rejected (a retrain's width and the writes of LINK_CTRL as the model reads them: log entry 33). -/
def Obligations.PortsRetrainAndStop : Prop :=
  ∀ (n : Fin 8) (s : State) (l : LinkSt), l = s.link n →
    (∀ mask : Fin 16,
      ((mask.val = 0 ∨ l.live = false) → exec (.phyLost n mask) s = .next (s.updLink n fun x => { x with
        ready := maskOff x.ready mask, good := maskOff x.good mask })) ∧
      (mask.val ≠ 0 → l.live = true → ∃ t, exec (.phyLost n mask) s = .next t ∧ (t.link n).state = .retrain ∧
        (t.link n).retrains = min 255 (l.retrains + 1) ∧ (t.link n).ready = maskOff l.ready mask ∧
        (t.link n).kept = l.kept ∧ ∀ k, k ≠ n.val → t.link k = s.link k)) ∧
    ((l.live = false ∨ s.now < l.lastGood + (if n.val < 4 then 10000 else 100000)) → exec (.linkSilence n) s = .next s) ∧
    (l.live = true → l.lastGood + (if n.val < 4 then 10000 else 100000) ≤ s.now → ∃ t, exec (.linkSilence n) s = .next t ∧
      (t.link n).state = .retrain ∧ (t.link n).retrains = min 255 (l.retrains + 1) ∧ t.ops = s.ops) ∧
    (∀ m : Mgmt, State.MayWrite s m →
      (l.en = true → l.maxWidth < 3 →
        ((l.state = .up ∨ l.state = .basic) → ∃ t, exec (.retrain m n) s = .next t ∧ (t.link n).state = .retrain ∧
          (t.link n).cap = 4 ∧ (t.link n).retrains = min 255 (l.retrains + 1) ∧ t.warden = s.warden ∧
          ∀ k, k ≠ n.val → t.link k = s.link k) ∧
        (l.state = .down → ∃ t, exec (.retrain m n) s = .next t ∧ (t.link n).state = .train ∧ (t.link n).goodTrain = 0)) ∧
      (∀ d : W64, (bits d.toNat 2 2 = 3 → exec (.linkEnWrite m n d) s = .next (State.answered s m 1 0)) ∧
        (bits d.toNat 2 2 ≠ 3 → bit d.toNat 0 = false → ∃ t, exec (.linkEnWrite m n d) s = .next t ∧
          (t.link n).state = .disabled ∧ (t.link n).en = false ∧ (l.state ≠ .disabled → (t.link n).kept = [] ∧
            (t.link n).queue = [])) ∧
        (bits d.toNat 2 2 ≠ 3 → bit d.toNat 0 = true → bit d.toNat 1 = false → l.state ≠ .disabled → l.state ≠ .waitPhy →
          exec (.linkEnWrite m n d) s = .next (State.accepted s m (s.updLink n fun x => { x with
            en := true, maxWidth := bits d.toNat 2 2 })))))

/-- 12 R459, R464-R467, R469: a flit with a bad CRC is counted and, on a live port, asked for again; one in sequence is accepted, one
behind is dropped; a NACK has every kept flit from its SEQ on sent again in order, the second time after a drawn wait; an acknowledgement
releases what it covers, and a STATUS gives the credits; a LINK_STATE not seen before changes the map. A port whose 64 flit slots since
its last STATUS are used sends that first (log entry 34). -/
def Obligations.FlitsAreAcknowledgedAndReplayed : Prop :=
  ∀ (n : Fin 8) (s : State) (l : LinkSt), l = s.link n →
    (∀ (lane : Fin 4) (sb : BitVec 32) (data : List Byte), data.length = 64 →
      (crc16 (data ++ leBytes 2 (sb.toNat % 65536)) ≠ bits sb.toNat 16 16 →
        (l.live = false → exec (.flit ⟨n, lane⟩ sb data) s = .next (s.updLink n fun x => { x with
          crcErrors := (x.crcErrors + 1) % 2 ^ 64
          goodTrain := if l.lowest.contains lane.val then 0 else x.goodTrain })) ∧
        (l.live = true → ∃ t, exec (.flit ⟨n, lane⟩ sb data) s = .next t ∧ (t.link n).crcErrors = (l.crcErrors + 1) % 2 ^ 64 ∧
          (t.link n).rxSeq = l.rxSeq ∧ (t.link n).nackSent = true ∧ (∃ y, (t.link n).sent = some y ∧ y.kind = 1 ∧ y.nack = l.rxSeq) ∧
          t.net = s.net ∧ t.ops = s.ops)) ∧
      (crc16 (data ++ leBytes 2 (sb.toNat % 65536)) = bits sb.toNat 16 16 → bit sb.toNat 2 = false → l.live = true →
        (bits sb.toNat 4 12 = l.rxSeq → bit sb.toNat 3 = false → ∃ t, exec (.flit ⟨n, lane⟩ sb data) s = .next t ∧
          (t.link n).rxSeq = (l.rxSeq + 1) % 4096 ∧ (t.link n).parts (bits sb.toNat 0 2) = l.parts (bits sb.toNat 0 2) ++ data ∧
          (t.link n).lastGood = s.now ∧ (t.link n).crcErrors = l.crcErrors ∧ t.net = s.net) ∧
        (l.rxSeq < 4096 → bits sb.toNat 4 12 ≠ l.rxSeq → 2048 ≤ (bits sb.toNat 4 12 + 4096 - l.rxSeq) % 4096 →
          exec (.flit ⟨n, lane⟩ sb data) s = .next (s.updLink n fun x => { x with lastGood := s.now })))) ∧
    (∀ (ack seq : Fin 4096) (t : LinkSt), t = { l.acked ack with lastGood := s.now } →
      (l.live = true → (∃ k ∈ t.kept, k.seq = seq.val) →
        (t.replaysOf seq = 0 → (t.replayTimes.filter fun a => s.now < a + 1000000).length < 64 → l.queue = [] → ∃ u,
          exec (.nack n ack seq) s = .next u ∧ (u.link n).replays = (t.replays + 1) % 2 ^ 64 ∧ (u.link n).replaysOf seq = 1 ∧
          (u.link n).state = l.state ∧ (u.link n).kept = t.kept ∧ (u.link n).again = [] ∧
          (l.slots + (t.kept.dropWhile fun k => k.seq != seq.val).length < 63 →
            (u.link n).line = l.line ++ t.kept.dropWhile fun k => k.seq != seq.val) ∧
          ∀ k, k ≠ n.val → u.link k = s.link k) ∧
        (t.replaysOf seq ≠ 0 → ∃ u x, exec (.nack n ack seq) s = .next u ∧ x < 64 ∧
          (u.link n).replayWait = some (seq.val, s.now + x * 4) ∧ (u.link n).replays = t.replays ∧
          ∀ k, k ≠ n.val → u.link k = s.link k)) ∧
      (l.live = false → l.state ≠ .retrain → exec (.nack n ack seq) s = .next s)) ∧
    (∀ seq a, l.replayWait = some (seq, a) →
      (s.now < a → exec (.replayBackoff n) s = .next s) ∧
      (a ≤ s.now → l.live = true → (∀ k ∈ l.kept, k.seq ≠ seq) → exec (.replayBackoff n) s = .next (s.updLink n fun x => { x with
        replayWait := none })) ∧
      (a ≤ s.now → l.live = true → (∃ k ∈ l.kept, k.seq = seq) → l.replaysOf seq < 7 →
        (l.replayTimes.filter fun a => s.now < a + 1000000).length < 64 → ∃ u, exec (.replayBackoff n) s = .next u ∧
          (u.link n).replays = (l.replays + 1) % 2 ^ 64 ∧ (u.link n).replayWait = none ∧ (u.link n).state = l.state)) ∧
    (∀ (ack : Fin 4096) (c : List (BitVec 16)) (w : Nat), c.length = 4 → w < 256 →
      (l.live = true → l.queue = [] → l.again = [] → l.slots < 63 → ∃ u, exec (.status n ack c w) s = .next u ∧
        u.link n = { l.acked ack with credBack := creditsNow l.credBack c, lastGood := s.now } ∧
        ∀ k, k ≠ n.val → u.link k = s.link k) ∧
      (l.live = false → exec (.status n ack c w) s = .next s)) ∧
    (l.live = true → exec (.statusSend n) s = .next (s.updLink n fun x => { x with
      sent := some { kind := 0, ack := l.lastSeq, nack := 0, credits := l.credGiven.map (· % 65536), width := l.width }
      line := [], slots := 0, dataRun := if (l.nextOn n 0).isSome then 0 else 7 })) ∧
    (l.live = false → exec (.statusSend n) s = .next s) ∧
    (∀ src port nonce up, src < 2 ^ 18 → port < 4 → nonce < 2 ^ 32 →
      ((src, nonce) ∈ s.net.seen → exec (.linkState n src port up nonce) s = .next s) ∧
      ((src, nonce) ∉ s.net.seen → ∃ t, exec (.linkState n src port up nonce) s = .next t ∧ t.mapUp src port = up ∧
        t.net.seen = s.net.seen ++ [(src, nonce)] ∧ t.net.inbox = s.net.inbox))

/-- 12 R459-R461, R464, R465: what a port sends is what its peer reads. A message addressed to this die whose flits arrive in sequence on a
live port, in the wire form of kept flits, stands whole among the messages that have arrived, with its sender, its order and
its hops, holds the credits of its flits until the engine takes it in, and carries its body; the wire forms of STATUS, NACK and TRAIN link flits act as their fields say. -/
def Obligations.WireFormsAreReadBack : Prop :=
  (∀ (n : Fin 8) (lane : Fin 4) (s : State) (m : Msg) (seq vc : Nat), (s.link n).live = true → (s.link n).rxSeq = seq → seq < 4096 →
    vc = bodyVc m.body → vc < 4 → (s.link n).parts vc = [] → m.dest = s.me → m.dest < 2 ^ 18 → m.src < 2 ^ 18 → m.flood = false →
    m.hops < 64 → bodyType m.body ≤ 12 → 1 ≤ bodyFlits m.body → bodyFlits m.body < 4096 →
    (∀ v t bs, m.body = .raw v t bs → t ≠ 0x0C) →
    ∃ t, ((List.range (bodyFlits m.body)).map fun i =>
        (KeptFlit.mk ((seq + i) % 4096) vc (i + 1 == bodyFlits m.body) i m).wire).foldl
          (fun s w => takeFlit s n lane w.2 w.1) s = t ∧
      t.net = { s.net with inbox := s.net.inbox ++ [{
        msg := { dest := m.dest, src := m.src, order := m.order, hops := m.hops, body := .raw vc (bodyType m.body) (msgBytes m) }
        from_ := some (n.val, vc, bodyFlits m.body) }] } ∧
      (t.link n).rxSeq = (seq + bodyFlits m.body) % 4096 ∧ (t.link n).parts vc = [] ∧
      ({ dest := m.dest, src := m.src, order := m.order, hops := m.hops, body := .raw vc (bodyType m.body) (msgBytes m) } : Msg).carries
        m.src m.body = true) ∧
  (∀ (n : Fin 8) (lane : Fin 4) (s u : State) (x : LinkFlit) (port die : Nat) (check : W64), u = s.updLink n (fun l => { l with lastGood := s.now }) →
    x.ack < 4096 → x.nack < 4096 → x.width < 256 → x.credits.length = 4 → (∀ c ∈ x.credits, c < 65536) →
    (x.kind = 0 → takeFlit s n lane (x.wire port die check).2 (x.wire port die check).1 =
      takeStatus u n x.ack (x.credits.map (BitVec.ofNat 16))) ∧
    (x.kind = 1 → takeFlit s n lane (x.wire port die check).2 (x.wire port die check).1 =
      takeNack u n x.ack x.nack (x.credits.map (BitVec.ofNat 16)))) ∧
  (∀ (n : Fin 8) (lane : Fin 4) (s u : State) (x : LinkFlit) (port die : Nat) (check : W64), u = s.updLink n (fun l => { l with lastGood := s.now }) →
    lane.val ∈ (s.link n).lowest → x.kind = 2 → port < 8 → die < 2 ^ 18 → x.stage < 256 → x.ready < 16 → x.width < 256 → x.count < 256 →
    takeFlit s n lane (x.wire port die check).2 (x.wire port die check).1 =
      takeTrain u n { port, die, idCheck := check, ready := x.ready, width := x.width, count := x.count })

/-! ### Frames -/

/-- What a command of one unit leaves alone: everything but that unit, the response of the port, and, for an access that writes,
the keeper and the count of free values taken. 09 R347-R349, R358 (the tally; its loss has a record); 02 R85-R88 (the keeper); 09 R365, R370, R371 (the
twin pair); 08 R321, R322 (lending); 01 R48, 11 R450 (voltage and pacing); 04 R163, R178, R179 (the read cache); 12 R465, R473
(a port); 02 R95 (the port's readiness). -/
def Obligations.CommandsOfOneUnitChangeOnlyIt : Prop :=
  ∀ (i : Instr) (s t : State), exec i s = .next t →
    ((∃ x, i = .tallyLock x) → t = { s with tally := t.tally, keeper := { s.keeper with phase := t.keeper.phase } }) ∧
    (i = .cadenceAlign → t = { s with tally := t.tally }) ∧
    ((∃ k, i = .tallyLoss k) → t = { s with tally := t.tally, warden := t.warden, siphons := t.siphons }) ∧
    ((i = .claimWindowClose ∨ i = .leaseLapse ∨ i = .handoverWindowClose) → t = { s with keeper := t.keeper }) ∧
    (((∃ m, i = .keeperClaim m) ∨ (∃ m d, i = .keeperLease m d) ∨ (∃ m d, i = .keeperHandover m d) ∨
        (∃ m d, i = .keeperFreeze m d) ∨ (∃ m d, i = .keeperThaw m d)) →
      t = { s with keeper := t.keeper, mgmt := { s.mgmt with resp := t.mgmt.resp }, fresh := t.fresh }) ∧
    ((i = .twinDivergeLatch ∨ i = .twinAlone) → t = { s with twin := t.twin }) ∧
    ((∃ src en, i = .twinPair src en) → t = { s with twin := t.twin, net := t.net, links := t.links }) ∧
    ((i = .lendGrant ∨ i = .lendReclaim) → t = { s with sync := t.sync } ∧ t.sync.counters = s.sync.counters ∧
      t.sync.weirs = s.sync.weirs ∧ t.sync.waiters = s.sync.waiters ∧ t.sync.held = s.sync.held) ∧
    (i = .vengStep → t = { s with warden := t.warden } ∧ t.warden.log = s.warden.log ∧ t.warden.baseMv = s.warden.baseMv) ∧
    ((∃ m j d, i = .paceWrite m j d) → t = { s with
      warden := { s.warden with pace := t.warden.pace }, keeper := t.keeper, mgmt := { s.mgmt with resp := t.mgmt.resp }
      fresh := t.fresh }) ∧
    (((∃ m, i = .flush m) ∨ (∃ m n l d, i = .cacheWindowWrite m n l d)) →
      t = { s with cache := t.cache, keeper := t.keeper, mgmt := { s.mgmt with resp := t.mgmt.resp }, fresh := t.fresh } ∧
        t.cache.fills.length = s.cache.fills.length) ∧
    (i = .flushDone → t = { s with cache := { s.cache with flushing := false } }) ∧
    (((∃ n, i = .trainBackoff n) ∨ (∃ n, i = .statusSend n)) → t = { s with links := t.links }) ∧
    (i = .managementPortReady → t = { s with mgmt := { s.mgmt with portReady := t.mgmt.portReady } })

/-- 11 R424, R425, R441-R444; 12 R484-R486: the warden's power and heat commands, and 08 R312-R318, R323 a change of a sync counter,
keep the images, the member table, the
tally, the twin pair, the numbers, the refiner and the checks; power and heat keep the operations, the counters, the groups and the
queues' heads as well. A change of a sync counter, with no ROTATE started, leaves every started operation that has no waiter parked as it
is, and every queue its state, its entries and its HEAD; an acknowledgement, or a SIGNAL sent again, touches that SIGNAL and its queue
alone. -/
def Obligations.PowerAndSignalsKeepTheRest : Prop :=
  ∀ (i : Instr) (s t : State), exec i s = .next t →
    ((i = .vengSense ∨ (∃ x, i = .thermal x) ∨ (∃ w, i = .senseStale w) ∨ (∃ w v, i = .senseStrobe w v) ∨ i = .capRelease ∨
        i = .surgeBegin ∨ i = .surgeWindowSpent ∨ i = .drawGrantFall ∨ i = .ledgerSpent ∨ i = .ledgerRecord ∨
        (∃ m v, i = .request m v) ∨ (∃ m, i = .restore m) ∨ (∃ m v, i = .baseMvWrite m v) ∨ (∃ m, i = .clearRelief m)) →
      t.img = s.img ∧ t.groups = s.groups ∧ t.members = s.members ∧ t.ops = s.ops ∧ t.cache = s.cache ∧ t.tally = s.tally ∧
        t.twin = s.twin ∧ t.num = s.num ∧ t.refiner = s.refiner ∧ t.integ = s.integ ∧ t.links = s.links ∧ t.net = s.net ∧
        t.sync = { s.sync with wakeOut := t.sync.wakeOut } ∧ t.warden.fenced = s.warden.fenced ∧
        t.warden.withdrawn = s.warden.withdrawn ∧
        ∀ q, (t.queue q).state = (s.queue q).state ∧ (t.queue q).head = (s.queue q).head ∧
          (t.queue q).buffered = (s.queue q).buffered) ∧
    (((∃ x, i = .remoteSignal x) ∨ (∃ j, i = .heldSignalApply j) ∨ (∃ a, i = .signalAck a) ∨ (∃ q c, i = .busyResend q c) ∨
        (∃ j x, i = .signalRequest j x) ∨ (∃ m n d, i = .syncValueWrite m n d) ∨ (∃ w, i = .wakePulse w)) →
      t.img = s.img ∧ t.members = s.members ∧ t.warden = s.warden ∧ t.cache = s.cache ∧ t.tally = s.tally ∧ t.twin = s.twin ∧
        t.num = s.num ∧ t.refiner = s.refiner ∧ t.integ = s.integ ∧ t.sync.weirs = s.sync.weirs ∧
        ∀ g, (t.group g).step = (s.group g).step ∧ (t.group g).run = (s.group g).run ∧ (t.group g).halted = (s.group g).halted) ∧
    (((∃ x, i = .remoteSignal x) ∨ (∃ j, i = .heldSignalApply j) ∨ (∃ j x, i = .signalRequest j x) ∨
        (∃ m n d, i = .syncValueWrite m n d) ∨ (∃ w, i = .wakePulse w)) → (∀ y ∈ s.ops, y.desc.opcode ≠ 0x07) →
      (∀ q c, (∀ w ∈ s.sync.waiters, ¬ (w.q = q ∧ w.c = c)) → t.op? q c = s.op? q c) ∧
        ∀ q, (t.queue q).state = (s.queue q).state ∧ (t.queue q).head = (s.queue q).head ∧
          (t.queue q).buffered = (s.queue q).buffered ∧ (t.queue q).enable = (s.queue q).enable) ∧
    (∀ a : AckMsg, i = .signalAck a → (∀ q c, (∀ o, s.signalOf a = some o → ¬ (o.q = q ∧ o.c = c)) → t.op? q c = s.op? q c) ∧
      ∀ q, (∀ o, s.signalOf a = some o → o.q ≠ q) → t.queue q = s.queue q) ∧
    (∀ (q : Fin 256) c, i = .busyResend q c → t.queues = s.queues ∧
      ∀ r d, ¬ (r = q.val ∧ d = c) → t.op? r d = s.op? r d)

/-! ### Checks, sums and cuts -/

/-- 12 R459; 13 R499: the check values of the CRCs. 06 R244, R246: the test registers give the words of the generator. 06 R252, R261,
R364: a combination gives the same bits in either order, and an order-free sum in any order; INT32 addition saturates. 05 R510;
10 R375: the parcels of a chunk tile its grains in order, none longer than the bound, each in one part of every stage. -/
def Obligations.ChecksSumsAndCutsAreAsDefined : Prop :=
  (crc16 (([0x31, 0x32, 0x33, 0x34, 0x35, 0x36, 0x37, 0x38, 0x39] : List Nat).map (BitVec.ofNat 8)) = 0x29B1 ∧
    crc64 (([0x31, 0x32, 0x33, 0x34, 0x35, 0x36, 0x37, 0x38, 0x39] : List Nat).map (BitVec.ofNat 8)) = 0x6C40DF5F0B497347 ∧
    draw 0 0 0 0 0 = ⟨0x1DCD594D, 0x69DF1453, 0xC17661D5, 0x5B63E0CA⟩ ∧
    draw 1 0 0 7 3 = ⟨0x60D55022, 0x29CB2200, 0x23E91368, 0xBC6243E4⟩) ∧
  (∀ (m : Mgmt) (off : BitVec 21) (s : State) (x : Draw), s.mgmt.portReady = true → s.isFrozen m.agent = false →
    x = draw s.num.testKey (s.num.testLo.toNat % 2 ^ 32) (s.num.testLo.toNat / 2 ^ 32) (s.num.testHi.toNat % 2 ^ 32)
      (s.num.testHi.toNat / 2 ^ 32) →
    (regAt (byteOffset off) = some .testOutLo → exec (.rcRead m off) s = .next (State.answered s m 0 (x.x1 ++ x.x0))) ∧
    (regAt (byteOffset off) = some .testOutHi → exec (.rcRead m off) s = .next (State.answered s m 0 (x.x3 ++ x.x2)))) ∧
  (∀ (x : NumCtx) (poisoned : Bool) (a b c : Nat),
    ((x.orderFree = true ∨ (x.operator ≠ 1 ∧ x.operator ≠ 2 ∧ x.operator ≠ 3 ∧ x.acc ≠ 11 ∧ x.acc ≠ 12)) →
      (combineEl x poisoned a b).bits = (combineEl x poisoned b a).bits) ∧
    (x.orderFree = true → (combineEl x poisoned (combineEl x poisoned a b).bits c).bits =
      (combineEl x poisoned a (combineEl x poisoned b c).bits).bits)) ∧
  (∀ a b : BitVec 32, (addInt32 a.toNat b.toNat).bits =
    (BitVec.ofInt 32 (max (-(2 ^ 31)) (min (2 ^ 31 - 1) (a.toInt + b.toInt)))).toNat) ∧
  (∀ (x : Lay) (ks : List Scheme) (n mx c g0 gc : Nat) (ps : List Piece), chunkGrains (grains n) x.m c = (g0, gc) →
    ps = chunkPieces x ks n mx c →
    ps.flatMap (fun p => (List.range p.grains).map (p.grain + ·)) = (List.range gc).map (g0 + ·) ∧
      ps.map (·.idx) = List.range ps.length ∧
      ∀ p ∈ ps, 1 ≤ p.grains ∧ p.grains ≤ max 1 mx ∧ ∀ k ∈ ks, ∀ j, j < p.grains →
        partOf k.parts gc (p.grain + j - g0) = partOf k.parts gc (p.grain - g0))
end

