-- ==== Sys2Proof/Laws/Entries.lean ====
section
/-! SUPPORT. What an update of one started entry, and one more transfer at a siphon, leave: the lemmas that a proof about a
started entry cites instead of unfolding the list of entries. -/

namespace Sys2Proof.Machine

/-! ### Lists with one changed element -/

theorem find?_mapIf_same {α : Type} (p : α → Bool) (f : α → α) (l : List α) (h : ∀ a, p a = true → p (f a) = true) :
    (mapIf p f l).find? p = (l.find? p).map f := by
  induction l with
  | nil => rfl
  | cons a l ih =>
    cases e : p a
    · simpa [mapIf, e] using ih
    · simp [mapIf, e, h a e]

theorem find?_mapIf_other {α : Type} (p r : α → Bool) (f : α → α) (l : List α) (h : ∀ a, p a = true → r a = false)
    (k : ∀ a, p a = true → r (f a) = false) : (mapIf p f l).find? r = l.find? r := by
  induction l with
  | nil => rfl
  | cons a l ih =>
    cases e : p a
    · cases d : r a
      · simpa [mapIf, e, d] using ih
      · simp [mapIf, e, d]
    · simpa [mapIf, e, h a e, k a e] using ih

theorem mem_mapIf {α : Type} {p : α → Bool} {f : α → α} {l : List α} {a : α} (h : a ∈ l) (e : p a = false) : a ∈ mapIf p f l := by
  induction l with
  | nil => cases h
  | cons b l ih =>
    cases h with
    | head => simp [mapIf, e]
    | tail _ h => exact List.mem_cons_of_mem _ (ih h)

/-! ### Started entries -/

theorem Op.is_iff (o : Op) (q c : Nat) : o.is q c = true ↔ o.q = q ∧ o.c = c := by simp [Op.is]

/-- An entry found under its queue and count has them. -/
theorem State.op?_is {s : State} {q c : Nat} {o : Op} (h : s.op? q c = some o) : o.q = q ∧ o.c = c :=
  (Op.is_iff o q c).1 (List.find?_some (p := fun o => Op.is o q c) h)

theorem State.op?_mem {s : State} {q c : Nat} {o : Op} (h : s.op? q c = some o) : o ∈ s.ops :=
  List.mem_of_find?_eq_some h

/-- An update that keeps the entry's queue and count is found under them. -/
theorem State.op?_updOp (s : State) (q c : Nat) (f : Op → Op) (h : ∀ o : Op, (f o).q = o.q ∧ (f o).c = o.c) :
    (s.updOp q c f).op? q c = (s.op? q c).map f :=
  find?_mapIf_same _ _ _ fun o e => by simpa [Op.is, h o] using e

/-- An update of one entry leaves every other. -/
theorem State.op?_updOp_other (s : State) {q c p d : Nat} (f : Op → Op) (h : ∀ o : Op, (f o).q = o.q ∧ (f o).c = o.c)
    (n : ¬ (p = q ∧ d = c)) : (s.updOp q c f).op? p d = s.op? p d := by
  have other : ∀ o : Op, o.is q c = true → o.is p d = false := fun o e => by
    rw [Op.is_iff] at e
    rw [← Bool.not_eq_true, Op.is_iff]
    rintro ⟨rfl, rfl⟩
    exact n ⟨e.1, e.2⟩
  exact find?_mapIf_other _ _ _ _ other fun o e => other _ (by simpa [Op.is, h o] using e)

theorem State.mem_updOp {s : State} {q c : Nat} {f : Op → Op} {o : Op} (h : o ∈ s.ops) (n : o.is q c = false) :
    o ∈ (s.updOp q c f).ops := mem_mapIf h n

/-! ### Transfers that wait -/

@[simp] theorem siphon_enqueue_waiting (s : State) (i : Nat) (x : Xfer) :
    ((enqueue s i x).siphon i).waiting = (s.siphon i).waiting ++ [{ x with at_ := s.now }] := by
  simp [enqueue, State.updSiphon]

theorem siphon_enqueue_other (s : State) {i j : Nat} (x : Xfer) (h : j ≠ i) : (enqueue s i x).siphon j = s.siphon j :=
  tabGet_tabSet_other _ _ _ h

/-- What waits at a siphon still waits when one more transfer is put there. -/
theorem waiting_enqueue {s : State} {i j : Nat} {x z : Xfer} (h : z ∈ (s.siphon j).waiting) :
    z ∈ ((enqueue s i x).siphon j).waiting := by
  by_cases e : j = i
  · subst e; simp [h]
  · rwa [siphon_enqueue_other s x e]

@[simp] theorem now_enqueue (s : State) (i : Nat) (x : Xfer) : (enqueue s i x).now = s.now := rfl

/-- A run of transfers put at siphons: what waited still waits, and each of them waits. -/
theorem waiting_foldl_enqueue {α : Type} (via : α → Nat) (x : α → Xfer) (l : List α) (s : State) :
    (∀ j, ∀ z ∈ (s.siphon j).waiting, z ∈ ((l.foldl (fun s a => enqueue s (via a) (x a)) s).siphon j).waiting) ∧
    (∀ a ∈ l, { x a with at_ := s.now } ∈ ((l.foldl (fun s a => enqueue s (via a) (x a)) s).siphon (via a)).waiting) := by
  induction l generalizing s with
  | nil => exact ⟨fun _ _ h => h, fun _ h => nomatch h⟩
  | cons b l ih =>
    obtain ⟨keep, add⟩ := ih (enqueue s (via b) (x b))
    refine ⟨fun j z h => keep j z (waiting_enqueue h), fun a h => ?_⟩
    cases h with
    | head => exact keep _ _ (by simp)
    | tail _ h => exact add a h

/-- A read of a range waits as one read for each of its blocks. -/
theorem waiting_enqueueRead (s : State) (queue addr len : Nat) (via : Nat → Nat) (pur : Nat → Purpose) :
    ∀ y ∈ blocks addr len, { cls := 0, pur := pur y.2.1, addr := y.1, len := y.2.2, queue, at_ := s.now } ∈
      ((enqueueRead s queue addr len via pur).siphon (via y.1)).waiting :=
  (waiting_foldl_enqueue (fun y : Nat × Nat × Nat => via y.1)
    (fun y => { cls := 0, pur := pur y.2.1, addr := y.1, len := y.2.2, queue }) (blocks addr len) s).2

/-- A write of bytes waits as one write for each of its blocks. -/
theorem waiting_enqueueWrite (s : State) (cls queue addr : Nat) (data : List Byte) (via : Nat → Nat) (pur : Nat → Purpose) :
    ∀ y ∈ blocks addr data.length,
      { cls, pur := pur y.2.1, addr := y.1, len := y.2.2, data := slice data y.2.1 y.2.2, queue, at_ := s.now } ∈
        ((enqueueWrite s cls queue addr data via pur).siphon (via y.1)).waiting :=
  (waiting_foldl_enqueue (fun y : Nat × Nat × Nat => via y.1)
    (fun y => { cls, pur := pur y.2.1, addr := y.1, len := y.2.2, data := slice data y.2.1 y.2.2, queue })
    (blocks addr data.length) s).2

end Sys2Proof.Machine
end

