-- ==== Sys2Proof/Laws/PerInstr.lean ====
section
/-! SUPPORT. What holds of every command as syntax: an access of the management port carries operands that a port always can;
only an event of the hardware can be ill formed. -/

namespace Sys2Proof.Laws.AccessFits

open Sys2Proof Sys2Proof.Machine

/-- A command of the management port is well formed. -/
def Statement (i : Instr) : Prop := (Instr.requester i).isSome = true → i.wf = true

theorem nop (q c) : Statement (.nop q c) := fun _ => rfl
theorem allreduce (q c) : Statement (.allreduce q c) := fun _ => rfl
theorem reduceScatter (q c) : Statement (.reduceScatter q c) := fun _ => rfl
theorem allgather (q c) : Statement (.allgather q c) := fun _ => rfl
theorem broadcast (q c) : Statement (.broadcast q c) := fun _ => rfl
theorem alltoall (q c) : Statement (.alltoall q c) := fun _ => rfl
theorem exchange (q c) : Statement (.exchange q c) := fun _ => rfl
theorem rotate (q c) : Statement (.rotate q c) := fun _ => rfl
theorem update (q c) : Statement (.update q c) := fun _ => rfl
theorem digest (q c) : Statement (.digest q c) := fun _ => rfl
theorem barrier (q c) : Statement (.barrier q c) := fun _ => rfl
theorem signal (q c) : Statement (.signal q c) := fun _ => rfl
theorem wait (q c) : Statement (.wait q c) := fun _ => rfl
theorem copy (q c) : Statement (.copy q c) := fun _ => rfl
theorem mark (q c) : Statement (.mark q c) := fun _ => rfl
theorem stepMark (g) : Statement (.stepMark g) := fun _ => rfl
theorem imageSwap : Statement (.imageSwap) := fun _ => rfl
theorem load (m) : Statement (.load m) := fun _ => rfl
theorem imageCheck : Statement (.imageCheck) := fun _ => rfl
theorem discard (m) : Statement (.discard m) := fun _ => rfl
theorem start (m) : Statement (.start m) := fun _ => rfl
theorem warmReset (m) : Statement (.warmReset m) := fun _ => rfl
theorem coldReset : Statement (.coldReset) := fun _ => rfl
theorem identityDerivation (r1 r2 r3) : Statement (.identityDerivation r1 r2 r3) := fun _ => rfl
theorem managementPortReady : Statement (.managementPortReady) := fun _ => rfl
theorem builtInSelfTest (fails) : Statement (.builtInSelfTest fails) := fun h => nomatch h
theorem keeperClaim (m) : Statement (.keeperClaim m) := fun _ => rfl
theorem claimWindowClose : Statement (.claimWindowClose) := fun _ => rfl
theorem keeperLease (m d) : Statement (.keeperLease m d) := fun _ => rfl
theorem leaseLapse : Statement (.leaseLapse) := fun _ => rfl
theorem keeperHandover (m d) : Statement (.keeperHandover m d) := fun _ => rfl
theorem handoverWindowClose : Statement (.handoverWindowClose) := fun _ => rfl
theorem keeperFreeze (m d) : Statement (.keeperFreeze m d) := fun _ => rfl
theorem keeperThaw (m d) : Statement (.keeperThaw m d) := fun _ => rfl
theorem writeWithoutOwnership (m off d) : Statement (.writeWithoutOwnership m off d) := fun _ => rfl
theorem registerWrite (m off d) : Statement (.registerWrite m off d) := fun _ => rfl
theorem rcRead (m off) : Statement (.rcRead m off) := fun _ => rfl
theorem memberEntryWrite (m j w d) : Statement (.memberEntryWrite m j w d) := fun _ => rfl
theorem enable (m q) : Statement (.enable m q) := fun _ => rfl
theorem queueDisable (m q) : Statement (.queueDisable m q) := fun _ => rfl
theorem cancel (m q) : Statement (.cancel m q) := fun _ => rfl
theorem kick (m q) : Statement (.kick m q) := fun _ => rfl
theorem queueHead (m q d) : Statement (.queueHead m q d) := fun _ => rfl
theorem poll (q) : Statement (.poll q) := fun _ => rfl
theorem fetchBatch (q) : Statement (.fetchBatch q) := fun _ => rfl
theorem grant : Statement (.grant) := fun _ => rfl
theorem launchAtCount (q) : Statement (.launchAtCount q) := fun _ => rfl
theorem stagingPairGrant (p) : Statement (.stagingPairGrant p) := fun _ => rfl
theorem transferIssue (j) : Statement (.transferIssue j) := fun _ => rfl
theorem fabricResponse (j tag status data) : Statement (.fabricResponse j tag status data) := fun h => nomatch h
theorem fabricTimeout (j tag) : Statement (.fabricTimeout j tag) := fun _ => rfl
theorem resume (m q) : Statement (.resume m q) := fun _ => rfl
theorem entryComplete (q c) : Statement (.entryComplete q c) := fun _ => rfl
theorem headWriteback (q) : Statement (.headWriteback q) := fun _ => rfl
theorem flush (m) : Statement (.flush m) := fun _ => rfl
theorem cacheWindowWrite (m n limit d) : Statement (.cacheWindowWrite m n limit d) := fun _ => rfl
theorem scrubPass (ups) : Statement (.scrubPass ups) := fun h => nomatch h
theorem groupResume (m g) : Statement (.groupResume m g) := fun _ => rfl
theorem groupHalt (m g) : Statement (.groupHalt m g) := fun _ => rfl
theorem stepTimeout (g) : Statement (.stepTimeout g) := fun _ => rfl
theorem dump (m) : Statement (.dump m) := fun _ => rfl
theorem token (t) : Statement (.token t) := fun h => nomatch h
theorem halt (h) : Statement (.halt h) := fun h => nomatch h
theorem parcel (p) : Statement (.parcel p) := fun h => nomatch h
theorem answer (a) : Statement (.answer a) := fun h => nomatch h
theorem levelMark (l) : Statement (.levelMark l) := fun h => nomatch h
theorem recallMsg (r) : Statement (.recallMsg r) := fun h => nomatch h
theorem remoteSignal (x) : Statement (.remoteSignal x) := fun h => nomatch h
theorem heldSignalApply (j) : Statement (.heldSignalApply j) := fun _ => rfl
theorem signalAck (a) : Statement (.signalAck a) := fun h => nomatch h
theorem busyResend (q c) : Statement (.busyResend q c) := fun _ => rfl
theorem signalRequest (j x) : Statement (.signalRequest j x) := fun _ => rfl
theorem syncValueWrite (m n d) : Statement (.syncValueWrite m n d) := fun _ => rfl
theorem wakePulse (w) : Statement (.wakePulse w) := fun _ => rfl
theorem hostMirrorWrite (n) : Statement (.hostMirrorWrite n) := fun _ => rfl
theorem barrierAndRise (w) : Statement (.barrierAndRise w) := fun _ => rfl
theorem force (m w) : Statement (.force m w) := fun _ => rfl
theorem landingCredit (x) : Statement (.landingCredit x) := fun h => nomatch h
theorem lendOffer : Statement (.lendOffer) := fun _ => rfl
theorem lendGrant : Statement (.lendGrant) := fun _ => rfl
theorem lendReclaim : Statement (.lendReclaim) := fun _ => rfl
theorem tallyLock (input) : Statement (.tallyLock input) := fun _ => rfl
theorem tallyLoss (kind) : Statement (.tallyLoss kind) := fun _ => rfl
theorem cadenceAlign : Statement (.cadenceAlign) := fun _ => rfl
theorem twinCtrlWrite (m d) : Statement (.twinCtrlWrite m d) := fun _ => rfl
theorem twinPair (src en) : Statement (.twinPair src en) := fun h => nomatch h
theorem twinRecord (src rs) : Statement (.twinRecord src rs) := fun h => nomatch h
theorem twinDivergeLatch : Statement (.twinDivergeLatch) := fun _ => rfl
theorem twinAlone : Statement (.twinAlone) := fun _ => rfl
theorem faultReport (r) : Statement (.faultReport r) := fun h => nomatch h
theorem withdraw (x) : Statement (.withdraw x) := fun h => nomatch h
theorem go (m d) : Statement (.go m d) := fun _ => rfl
theorem wholeEngineTest (fails) : Statement (.wholeEngineTest fails) := fun h => nomatch h
theorem testAuto (fails) : Statement (.testAuto fails) := fun h => nomatch h
theorem paceWrite (m j d) : Statement (.paceWrite m j d) := fun _ => rfl
theorem baseMvWrite (m mv) : Statement (.baseMvWrite m mv) := fun _ => rfl
theorem clearRelief (m) : Statement (.clearRelief m) := fun _ => rfl
theorem vengStep : Statement (.vengStep) := fun _ => rfl
theorem vengSense : Statement (.vengSense) := fun _ => rfl
theorem thermal (tj) : Statement (.thermal tj) := fun h => nomatch h
theorem senseStale (w) : Statement (.senseStale w) := fun _ => rfl
theorem request (m v) : Statement (.request m v) := fun _ => rfl
theorem surgeBegin : Statement (.surgeBegin) := fun _ => rfl
theorem surgeWindowSpent : Statement (.surgeWindowSpent) := fun _ => rfl
theorem drawGrantFall : Statement (.drawGrantFall) := fun _ => rfl
theorem ledgerSpent : Statement (.ledgerSpent) := fun _ => rfl
theorem ledgerRecord : Statement (.ledgerRecord) := fun _ => rfl
theorem restore (m) : Statement (.restore m) := fun _ => rfl
theorem retrain (m n) : Statement (.retrain m n) := fun _ => rfl
theorem linkEnWrite (m n d) : Statement (.linkEnWrite m n d) := fun _ => rfl
theorem phyReady (n mask) : Statement (.phyReady n mask) := fun _ => rfl
theorem train (n t) : Statement (.train n t) := fun h => nomatch h
theorem trainAttemptFail (n) : Statement (.trainAttemptFail n) := fun _ => rfl
theorem trainBackoff (n) : Statement (.trainBackoff n) := fun _ => rfl
theorem calibrationComplete (n good) : Statement (.calibrationComplete n good) := fun _ => rfl
theorem phyLost (n mask) : Statement (.phyLost n mask) := fun _ => rfl
theorem linkSilence (n) : Statement (.linkSilence n) := fun _ => rfl
theorem flit (n sideband data) : Statement (.flit n sideband data) := fun h => nomatch h
theorem nack (n ackSeq nackSeq) : Statement (.nack n ackSeq nackSeq) := fun _ => rfl
theorem replayBackoff (n) : Statement (.replayBackoff n) := fun _ => rfl
theorem status (n ackSeq credits width) : Statement (.status n ackSeq credits width) := fun h => nomatch h
theorem statusSend (n) : Statement (.statusSend n) := fun _ => rfl
theorem linkState (n src port up nonce) : Statement (.linkState n src port up nonce) := fun h => nomatch h
theorem resetRelease (dieAddr) : Statement (.resetRelease dieAddr) := fun _ => rfl
theorem budgetReturned : Statement (.budgetReturned) := fun _ => rfl
theorem reclaimLimit : Statement (.reclaimLimit) := fun _ => rfl
theorem senseStrobe (w value) : Statement (.senseStrobe w value) := fun h => nomatch h
theorem testComplete (fails) : Statement (.testComplete fails) := fun h => nomatch h
theorem flushDone : Statement (.flushDone) := fun _ => rfl
theorem capRelease : Statement (.capRelease) := fun _ => rfl

end Sys2Proof.Laws.AccessFits
end

