-- ==== Sys2Proof/Tests/Slice0.lean ====
section
/-! SUPPORT. The model's own tests: ill-formed commands that the checks refuse, values worked out in the spec, and for the
statements with hypotheses a concrete state and operands that meet them. -/

namespace Sys2Proof.Tests

set_option Elab.async false

open Sys2Proof.Machine

/-- Whether a command answers a next state of which a fact holds. -/
def gives (i : Instr) (s : State) (p : State → Bool) : Bool :=
  match exec i s with
  | .next t => p t
  | _ => false

/-- Agent 1, whose request has identifier 3. -/
def own : Mgmt := ⟨1, 3⟩

/-- Agent 2. -/
def other : Mgmt := ⟨2, 4⟩

/-- An engine at die address 9, 5 ms after its release, whose port is ready and which agent 1 owns. -/
def base : State :=
  { State.reset with
    now := 5000000
    mgmt := { released := true, portReady := true, idDerived := true, dieAddr := 9, selfTestDone := true }
    keeper := { ownership := .owned, owner := 1, leaseAt := 4000000 }
    warden := { vengMv := 750 } }

theorem base_may_write : State.MayWrite base own := ⟨rfl, rfl, rfl⟩

/-! ### Well-formed commands -/

def com : Common := ⟨3, 1, 0, 0, 0⟩

def tok : Token := ⟨10, com, 1, 0, 0, 0, 0, 0, 0, 0, 0, 0, 0, 0, false, 0, 0, true, true, 0⟩

def hdr : PHdr := ⟨3, 1, 0, 0, false, false, false, true, false, 0, 0, false, 0, 0, 0, 1, 0, 0⟩

def runs : Repeats := ⟨true, true, true, false⟩

def rep : FaultRep := ⟨5, 2, 0, 0, 3, 0, 0, 0, 0, 0, 0, 0, 0, runs, true, false, false, false⟩

/-- Each of these has one operand that its event cannot carry. -/
def illFormed : List Instr :=
  [.builtInSelfTest [⟨0, 65536, 0, 0, 0, runs⟩], .wholeEngineTest [⟨65536, 0, 0, 0, 0, runs⟩],
    .testAuto [⟨0, 0, 2 ^ 32, 0, 0, runs⟩], .testComplete [⟨0, 0, 0, 2 ^ 32, 0, runs⟩], .fabricResponse 0 0 0 [],
    .scrubPass [⟨0, 2 ^ 18, [1]⟩], .scrubPass [⟨0, 0, []⟩], .scrubPass [⟨0, 0, [39]⟩], .scrubPass [⟨0, 0, [1, 1]⟩],
    .token { tok with src := 2 ^ 18 }, .token { tok with c := { com with group := 4096 } },
    .token { tok with c := { com with stage := 8 } }, .token { tok with c := { com with run := 16 } },
    .token { tok with c := { com with step := 2 ^ 32 } }, .token { tok with c := { com with entry := 65536 } },
    .token { tok with opcode := 256 }, .token { tok with length := 2 ^ 32 }, .token { tok with gen := 2 ^ 32 },
    .halt ⟨9, com, 1, [1, 2, 3, 4, 5, 6, 7, 8, 9]⟩, .halt ⟨9, com, 256, []⟩, .parcel ⟨10, { hdr with count := 0 }, [], [], []⟩,
    .parcel ⟨10, { hdr with count := 4097 }, [], [], []⟩, .parcel ⟨10, { hdr with crc := 2 ^ 32 }, [], [], []⟩,
    .parcel ⟨10, { hdr with residue := 2 ^ 61 }, [], [], []⟩, .parcel ⟨10, hdr, List.replicate 4097 0, [], []⟩,
    .answer ⟨10, com, 0, 0, 256, 0, 0, 0⟩, .levelMark ⟨2 ^ 18, com⟩, .recallMsg ⟨10, com, 2 ^ 18, false, 0, 0, 0⟩,
    .remoteSignal ⟨10, com, 4096, false, 1, 0, 0⟩, .signalAck ⟨10, com, 256, 0⟩, .landingCredit ⟨10, com, 2 ^ 32⟩,
    .twinPair (2 ^ 18) true, .twinRecord 10 [], .twinRecord 10 [⟨⟨2 ^ 24, 0, 0, 0, 0, 0⟩, 0⟩],
    .faultReport { rep with type := 0 }, .faultReport { rep with type := 0x17 }, .faultReport { rep with chunk := 2 ^ 18 },
    .withdraw ⟨10, com, 256⟩, .thermal 2048, .thermal (-2049), .senseStrobe .veng (-1), .senseStrobe .veng 1024,
    .senseStrobe .tj 2048, .train 0 ⟨8, 0, 0, 0, 0, 0⟩, .train 0 ⟨0, 2 ^ 18, 0, 0, 0, 0⟩, .flit ⟨0, 0⟩ 0 [], .status 0 0 [0, 0, 0] 0,
    .status 0 0 [0, 0, 0, 0] 256, .linkState 0 (2 ^ 18) 0 true 0, .linkState 0 0 4 true 0, .linkState 0 0 0 true (2 ^ 32)]

theorem test_ill_formed_is_told : illFormed.all (fun i => !i.wf) = true := by decide +kernel

theorem test_ill_formed_faults :
    illFormed.all (fun i => match exec i base with | .fault (.illFormed _) => true | _ => false) = true := by decide +kernel

theorem test_well_formed_messages :
    ([.token tok, .halt ⟨9, com, 1, [1]⟩, .parcel ⟨10, hdr, [], [], []⟩, .levelMark ⟨10, com⟩, .faultReport rep, .thermal 2047,
      .thermal (-2048), .senseStrobe .veng 1023, .linkState 3 5 3 true (2 ^ 32 - 1)] : List Instr).all Instr.wf = true := by
  decide +kernel

/-! ### The step -/

theorem test_step_takes_the_front : ∃ t, step { base with pending := [.lendGrant, .kick own 3] } = .next t ∧
    t.pending = [.kick own 3] := ⟨_, rfl, rfl⟩

theorem test_idle_step_counts : ∃ t, step { base with tally := { tally := 7, lock := true } } = .next t ∧ t.now = 5000001 ∧
    t.tally.tally = 8 := ⟨_, rfl, rfl, rfl⟩

/-! ### The management plane -/

/-- The same engine with agent 2 frozen for a write without ownership. -/
def frozen2 : State := { base with keeper := { base.keeper with causes := [(2, 1)] } }

theorem test_frozen_agent : frozen2.mgmt.portReady = true ∧ frozen2.isFrozen other.agent = true ∧
    Instr.requester (.rcRead other 0) = some other ∧
    gives (.rcRead other 0) frozen2 (fun t => t.mgmt.resp == some ⟨4, 2, 2, 0⟩) = true := by decide +kernel

theorem test_unready_port : State.reset.mgmt.portReady = false ∧
    gives (.kick own 0) State.reset (fun t => t.mgmt.resp == some ⟨3, 1, 1, 0⟩) = true := by decide +kernel

theorem test_write_without_ownership : Instr.requester (.kick other 0) = some other ∧ Instr.writes (.kick other 0) = true ∧
    base.mgmt.portReady = true ∧ base.isFrozen other.agent = false ∧ base.owns other.agent = false ∧
    gives (.kick other 0) base (fun t => t.cause 2 == 1 && t.cause 1 == 0 && t.fresh == 1) = true := by decide +kernel

theorem test_warm_reset_keeps_identity : State.MayWrite { base with mgmt := { base.mgmt with idLo := 5 } } own ∧
    gives (.warmReset own) { base with mgmt := { base.mgmt with idLo := 5 } } (fun t =>
      t.mgmt.idLo == 5 && !t.mgmt.portReady && t.keeper.ownership == .unowned) = true :=
  ⟨⟨rfl, rfl, rfl⟩, by decide +kernel⟩

theorem test_bring_up : State.reset.mgmt.released = false ∧
    gives (.resetRelease 9) State.reset (fun t => t.mgmt.released && t.me == 9) = true ∧
    ({ State.reset with now := 200000, mgmt := { released := true, idDerived := true } } : State).mgmt.releasedAt + 200000 ≤ 200000 ∧
    gives .managementPortReady { State.reset with now := 200000, mgmt := { released := true, idDerived := true } }
      (·.mgmt.portReady) = true ∧
    gives .managementPortReady { State.reset with now := 199999, mgmt := { released := true, idDerived := true } }
      (·.mgmt.portReady) = false := by decide +kernel

/-- Released, with the identity still to be derived. -/
def underived : State := { State.reset with mgmt := { released := true } }

theorem test_identity : underived.mgmt.released = true ∧ underived.mgmt.idDerived = false ∧ underived.keeper.idFail = false ∧
    gives (.identityDerivation 1 2 2) underived (fun t => t.mgmt.idLo == 2 && t.mgmt.idDerived) = true ∧
    gives (.identityDerivation 1 2 3) underived (fun t => t.keeper.quarantine && t.keeper.idFail) = true := by decide +kernel

/-- The management port is ready, and there is no image. -/
def portUp : State := { State.reset with mgmt := { released := true, idDerived := true, portReady := true } }

theorem test_self_test : portUp.mgmt.portReady = true ∧ portUp.keeper.phase = .noImage ∧ portUp.mgmt.selfTestDone = false ∧
    gives (.builtInSelfTest []) portUp (·.mgmt.selfTestDone) = true ∧
    gives (.builtInSelfTest [⟨0, 3, 1, 2, 0, ⟨false, false, true, true⟩⟩]) portUp (fun t => t.mgmt.selfTestDone &&
      t.warden.fenced == [3]) = true ∧
    gives (.builtInSelfTest []) underived (fun t => t == underived) = true := by decide +kernel

/-- A contest of agents 5 and 2, with agent 2 frozen; its window has just ended. -/
def contest : State :=
  { base with keeper := { ownership := .contest, claimants := [5, 2], claimAt := 4999000, causes := [(2, 1)] } }

theorem test_claim_window : contest.keeper.ownership = .contest ∧ contest.keeper.claimAt + 1000 ≤ contest.now ∧
    contest.now ≤ contest.keeper.claimAt + 1000 ∧ contest.isFrozen 5 = false ∧ contest.isFrozen 2 = true ∧
    gives .claimWindowClose contest (fun t => t.owns 5 && t.keeper.leaseAt == 5000000) = true ∧
    gives (.keeperClaim own) contest (fun t => t.keeper.claimants == [5, 2, 1]) = true ∧
    gives .claimWindowClose { contest with keeper := { contest.keeper with claimants := [2] } }
      (fun t => t.keeper.ownership == .unowned) = true := by decide +kernel

/-- A handover to agent 2, offered 1 ms ago. -/
def offered : State :=
  { base with keeper := { base.keeper with ownership := .handover, successor := 2, handoverAt := 4000000 } }

theorem test_handover : offered.keeper.ownership = .handover ∧ offered.now ≤ offered.keeper.handoverAt + 1000000 ∧
    offered.keeper.handoverAt + 1000000 ≤ offered.now ∧ offered.keeper.successor = other.agent.val ∧
    gives (.keeperClaim other) offered (·.owns 2) = true ∧
    gives .handoverWindowClose offered (fun t => t.owns 1 && t.keeper.ownership == .owned) = true ∧
    gives (.keeperClaim other) { offered with now := 5000001 } (·.owns 1) = true := by decide +kernel

theorem test_lease : base.keeper.hasOwner = true ∧
    gives .leaseLapse { base with now := 14000000, tally := { everLocked := true } } (fun t => t.keeper.hasOwner) = false ∧
    gives .leaseLapse { base with now := 13999999, tally := { everLocked := true } } (fun t => t.keeper.hasOwner) = true ∧
    base.keeper.leaseAt + 12000000 ≤ ({ base with now := 16000000 } : State).now ∧
    ({ base with now := 11999999 } : State).now < base.keeper.leaseAt + 8000000 := by decide +kernel

theorem test_freeze_and_thaw : gives (.keeperFreeze own 0x84) base (fun t => t.cause 2 == 3 && t.cause 7 == 3 && t.cause 1 == 0) = true ∧
    gives (.keeperFreeze own 0x02) base (fun t => t.keeper.ownership == .unowned) = true ∧
    gives (.keeperThaw own 0x04) frozen2 (fun t => t.cause 2 == 0) = true ∧
    bits (0xA : W64).toNat 0 3 ≠ own.agent.val ∧ bit (0xA : W64).toNat 3 = true ∧ frozen2.isFrozen (bits (0xA : W64).toNat 0 3) = true ∧
    gives (.keeperHandover own 0xA) base (fun t => t.keeper.ownership == .handover && t.keeper.successor == 2) = true ∧
    gives (.keeperHandover own 0xA) frozen2 (fun t => t.mgmt.resp == some ⟨3, 1, 1, 0⟩) = true := by decide +kernel

/-! ### Images and the member table -/

/-- Bytes padded with zeros to a length. -/
def pad (n : Nat) (bs : List Byte) : List Byte := slice bs 0 n

def dirEnt (type offset length count : Nat) : List Byte :=
  leBytes 2 type ++ leBytes 2 0 ++ leBytes 4 offset ++ leBytes 4 length ++ leBytes 4 count

/-- The sections of an image with one group of one member, die 9 (02 R54-R65). -/
def imageBody : List Byte :=
  dirEnt 1 192 128 1 ++ dirEnt 2 320 64 1 ++ dirEnt 3 384 16 1 ++ dirEnt 4 448 16 2 ++ dirEnt 5 512 8 1 ++ dirEnt 6 576 32 1 ++
    dirEnt 7 640 8 1 ++ dirEnt 11 704 8 1 ++
    pad 16 (leBytes 8 0x100000) ++ ([1, 2, 3, 4].flatMap fun st => pad 16 (leBytes 1 st)) ++ pad 48 [] ++
    (leBytes 2 0 ++ leBytes 2 1 ++ leBytes 12 0 ++ leBytes 4 1 ++ leBytes 4 1 ++ leBytes 4 1 ++ leBytes 2 1 ++
      [0, 0xFF, 0xFF, 0, 0, 0] ++ pad 24 [] ++ leBytes 4 1) ++
    pad 64 (leBytes 8 (9 + 0x200000)) ++ pad 64 (leBytes 8 0xFFFF00010000 ++ leBytes 8 0xFFFF01020101) ++
    pad 64 [0, 1, 1, 8] ++ pad 64 (leBytes 2 1) ++ pad 64 (leBytes 4 0 ++ leBytes 2 1) ++ pad 64 [5, 5, 6]

/-- The whole image, with its CRC-32C and its CRC-64. -/
def imageBytes : List Byte :=
  leBytes 4 0x4E464C55 ++ leBytes 4 1 ++ leBytes 8 768 ++ leBytes 4 3721463181 ++ leBytes 2 8 ++ leBytes 2 0 ++
    leBytes 8 11857745457847006471 ++ pad 32 [] ++ imageBody

/-- The same engine with that image fetched and not yet checked. -/
def fetched : State :=
  { base with img := { len := 768, loader := .loading, headerDone := true
                       bytes := (imageBytes.zipIdx.map fun (b, i) => (i, b)).filter fun x => x.2 != 0 } }

set_option maxRecDepth 100000 in
theorem test_image_bytes : bytesOf fetched.img.len fetched.img.bytes = imageBytes := by decide +kernel

set_option maxRecDepth 100000 in
theorem test_image_sums : firstFailure (headerChecks imageBytes 768 ++ sumChecks imageBytes) = none := by decide +kernel

set_option maxRecDepth 100000 in
theorem test_image_directory : firstFailure (directoryChecks imageBytes 768) = none := by decide +kernel

set_option maxRecDepth 100000 in
theorem test_image_encodings : firstFailure (encodingChecks imageBytes (parseImage imageBytes)) = none := by decide +kernel

set_option maxRecDepth 100000 in
theorem test_image_resources : firstFailure (referenceChecks (parseImage imageBytes) 9 none ++
    resourceChecks (parseImage imageBytes) 9 ++ footprintChecks (parseImage imageBytes) 9) = none := by decide +kernel

set_option maxRecDepth 100000 in
theorem test_image_is_staged : fetched.img.loader = .loading ∧ fetched.img.headerDone = true ∧ fetched.imageXfers = [] ∧
    checkImage (bytesOf fetched.img.len fetched.img.bytes) fetched.img.len fetched.me fetched.ownStates =
      (none, parseImage imageBytes) := by
  refine ⟨rfl, rfl, rfl, ?_⟩
  have e : fetched.ownStates = none := rfl
  have m : fetched.me = 9 := rfl
  have l : fetched.img.len = 768 := rfl
  have a := test_image_sums
  have b := test_image_directory
  have c := test_image_encodings
  have d := test_image_resources
  rw [test_image_bytes, e, m, l]
  simp only [firstFailure, List.find?_eq_none, List.mem_append] at a b c d
  simp only [checkImage, firstFailure]
  rw [List.find?_eq_none.mpr, List.find?_eq_none.mpr]
  · intro x hx; simp only [List.mem_append] at hx; rcases hx with ((hx | hx) | hx) | hx
    · exact c x hx
    · exact d x (.inl (.inl hx))
    · exact d x (.inl (.inr hx))
    · exact d x (.inr hx)
  · intro x hx; simp only [List.mem_append] at hx; rcases hx with hx | hx
    · exact a x hx
    · exact b x hx

theorem test_image_is_refused :
    gives .imageCheck { fetched with img := { fetched.img with bytes := fetched.img.bytes.drop 1 } }
      (fun t => t.img.loader == .refused && t.img.refusal == 1) = true := by decide +kernel

theorem test_load : base.img.loader ≠ .loading ∧ base.img.swapping = none ∧
    gives (.load own) { base with img := { len := 64 } } (fun t => t.img.loader == .loading && t.siphons != []) = true ∧
    gives (.load own) { base with img := { len := 67108928 } } (fun t => t.img.loader == .refused && t.img.refusal == 3) = true ∧
    gives (.load own) { base with img := { len := 96 } } (fun t => t.img.loader == .refused && t.siphons == []) = true ∧
    gives (.load own) fetched (fun t => t.mgmt.resp == some ⟨3, 1, 1, 0⟩) = true ∧
    gives (.discard own) fetched (fun t => t.img.loader == .idle) = true := by decide +kernel

/-- The image of the tests, staged. -/
def staged : State := { base with img := { loader := .staged, staged := some { anchor := 0 } } }

theorem test_start : staged.img.active = none ∧ staged.img.staged = some { anchor := 0 } ∧ staged.img.loader = .staged ∧
    staged.warden.unfit = false ∧
    gives (.start own) staged (fun t => t.img.active == some { anchor := 0 } && t.keeper.phase == .lowWater) = true ∧
    gives (.start own) base (fun t => t.mgmt.resp == some ⟨3, 1, 1, 0⟩) = true := by decide +kernel

/-- A swap that waits for one operation beside its MARK. -/
def swapping : State :=
  { base with
    img := { swapping := some { anchor := 3 }, active := some { anchor := 3 } }
    groups := [(3, { gr := { group := 3, valid := true }, marking := some { complete := true, committed := some (1, 0) }, markOp := some (7, 0) })]
    ops := [{ q := 7, c := 0, desc := { opcode := 0x0E, group := 3 } }, { q := 7, c := 1, desc := { group := 3 } }] }

theorem test_image_swap : swapping.img.swapping = some { anchor := 3 } ∧
    (swapping.group 3).marking = some { complete := true, committed := some (1, 0) } ∧
    (∃ o ∈ swapping.ops, some (o.q, o.c) ≠ (swapping.group 3).markOp) ∧
    (∀ o ∈ swapping.ops.take 1, some (o.q, o.c) = (swapping.group 3).markOp) ∧
    gives .imageSwap { swapping with ops := swapping.ops.take 1 } (fun t => t.img.active == some { anchor := 3 } &&
      t.img.swapping == none && t.cache.lines == []) = true := by decide +kernel

def queueRec : QueueRec := { queue := 7, weight := 1, burst := 1, agent := 1, comm := true, group := 3 }

def groupRec : GroupRec :=
  { group := 3, valid := true, stageMask := 1, peers1 := 2, memberCount := 2, minMembers := 1, maxMembers := 4, pumpMask := 1
    queue := 7, timeoutUs := 100, roster := 2 }

/-- A group of two members, this engine and die 10, with queue 7; entry 1 is the peer's. -/
def pair : State :=
  { base with
    img := { active := some { anchor := 3, queues := [queueRec], cisterns := [⟨0, 0, 4, 0, 0xFFFF⟩] } }
    keeper := { base.keeper with phase := .full }
    groups := [(3, { gr := groupRec, full := true })]
    members := [(0, { dieAddr := 9, stage := 1, state := 1 }), (1, { dieAddr := 10, stage := 1, state := 1, rank := 1 })]
    queues := [(7, { state := .running, enable := true, base := 0x10000, map := queueRec })] }

/-- The same engine with another record of queue 7. -/
def withQueue (x : QueueSt) : State := { pair with queues := [(7, { x with base := 0x10000, map := queueRec })] }

/-- The same engine with an entry of queue 7, count 0, in the dispatch queue. -/
def started (d : Desc) : State := { pair with ops := [{ q := 7, c := 0, desc := { d with group := 3 }, num := 0 }] }

theorem test_member_entry : pair.groupOf 1 = some 3 ∧ (pair.member 1).state = 1 ∧ (pair.member 1).dieAddr ≠ pair.me ∧
    bits (0x60000A : W64).toNat 0 18 = (pair.member 1).dieAddr ∧ bits (0x60000A : W64).toNat 21 3 = 3 ∧
    gives (.memberEntryWrite own 1 0 0x60000A) pair (fun t => (t.member 1).state == 3 && (t.member 1).rank == 1) = true ∧
    gives (.memberEntryWrite own 1 0 0x40000A) pair (fun t => t.mgmt.resp == some ⟨3, 1, 1, 0⟩) = true ∧
    gives (.memberEntryWrite own 1 1 5) pair (fun t => t.mgmt.resp == some ⟨3, 1, 1, 0⟩) = true ∧
    gives (.memberEntryWrite own 1 1 5) { pair with members := [(0, { dieAddr := 9, stage := 1, state := 1 }),
      (1, { dieAddr := 10, stage := 1, state := 5 })] } (fun t => (t.member 1).idCheck == 5) = true := by decide +kernel

/-! ### The register window -/

theorem test_registers : regAt (byteOffset 0x1FFFFF) = none ∧ regAt (byteOffset 2) = some .idLo ∧ Reg.readOnly .idLo = true ∧
    byteOffset 0x180001 = 0xC00008 ∧ byteOffset 0x160008 = 0xB00040 ∧ byteOffset 0x180000 = 0xC00000 ∧
    gives (.rcRead other 0) base (fun t => t.mgmt.resp == some ⟨4, 2, 0, 0x0001000447535357⟩) = true ∧
    gives (.rcRead other 0x180001) { base with integ := { crcErrors := 6 } } (fun t => t.integ.crcErrors == 6 &&
      t.mgmt.resp == some ⟨4, 2, 0, 6⟩) = true ∧
    gives (.rcRead own 0x180001) { base with integ := { crcErrors := 6 } } (fun t => t.integ.crcErrors == 0 &&
      t.mgmt.resp == some ⟨3, 1, 0, 6⟩) = true ∧
    gives (.registerWrite own 0x180000 1) { base with integ := { crcSeen := true, residueSeen := true } } (fun t =>
      !t.integ.crcSeen && t.integ.residueSeen) = true := by decide +kernel

/-! ### Queues -/

/-- An entry that has been checked. -/
def entry (d : Desc) : Buffered := { count := 0, desc := { d with group := 3, agent := 1, own := true }, checked := true }

theorem test_enable : (withQueue { state := .disabled, head := 5 }).inFlight 7 = 0 ∧
    gives (.enable own 7) (withQueue { state := .disabled, head := 5 }) (fun t => (t.queue 7).state == .running &&
      (t.queue 7).fetch == 5 && (t.queue 7).enable) = true ∧
    ((pair.queue 8).state = .absent ∧ (pair.queue 8).state ≠ .running) ∧
    gives (.enable own 8) pair (fun t => t.mgmt.resp == some ⟨3, 1, 1, 0⟩) = true ∧ (pair.queue 7).state = .running ∧
    gives (.enable own 7) pair (fun t => t.queues == pair.queues) = true := by decide +kernel

theorem test_disable_and_cancel : ((started {}).queue 7).state = .running ∧
    gives (.queueDisable own 7) (started {}) (fun t => (t.queue 7).state == .draining) = true ∧
    gives (.queueDisable own 7) pair (fun t => (t.queue 7).state == .disabled) = true ∧
    (∃ o, (started {}).op? 7 0 = some o ∧ o.wroteResult = false ∧ o.sentParcel = false ∧ o.sig = none ∧ o.ended = none) ∧
    gives (.cancel own 7) (started {}) (fun t => (t.op? 7 0).any (·.ended == some 1)) = true ∧
    gives (.cancel own 7) { pair with ops := [{ q := 7, c := 0, desc := {}, sentParcel := true }] }
      (fun t => (t.op? 7 0).any (·.ended == none)) = true :=
  ⟨rfl, by decide +kernel, by decide +kernel, ⟨_, rfl, rfl, rfl, rfl, rfl⟩, by decide +kernel, by decide +kernel⟩

/-- Queue 7 near the end of its ring of 16, with 3 entries not yet free. -/
def ringEnd : QueueSt := { state := .running, enable := true, head := 0x1B, fetch := 0x1E, lastFilled := false, pollAt := 5000000 - 2048 }

theorem test_fetch : gives (.kick own 7) (withQueue ringEnd) (fun t => ((t.queue 7).batch.map fun b => (b.start, b.entries)) ==
      some (0x1E, 2) && ((t.siphon 7).waiting.map fun z => (z.addr, z.len)) == [(0x10000 + 64 * 14, 128)]) = true ∧
    ((withQueue ringEnd).queue 7).pollAt + 64 * ((withQueue ringEnd).queue 7).poll ≤ (withQueue ringEnd).now ∧
    gives (.poll 7) (withQueue ringEnd) (fun t => (t.queue 7).batch.isSome) = true ∧
    gives (.poll 7) (withQueue { ringEnd with pollAt := 5000000 - 2047 }) (fun t => (t.queue 7).batch.isSome) = false ∧
    gives (.kick own 7) (withQueue { ringEnd with state := .error }) (fun t => (t.queue 7).batch.isSome) = false := by decide +kernel

/-- A returned batch of two entries, the first of them a NOP with OWN set. -/
def batch : Batch := { id := 1, start := 0x1E, entries := 2, left := 0, data := [(63, 0x80)] }

theorem test_fetch_batch : (takeOwned batch.data batch.start batch.entries 0).map (fun b => (b.count, b.desc.opcode)) = [(0x1E, 0)] ∧
    (∀ e ∈ ((withQueue { ringEnd with batch := some batch, buffered := [entry {}] }).queue 7).buffered.head?, e.checked = true) ∧
    ((withQueue { ringEnd with batch := some batch, buffered := [entry {}] }).queue 7).buffered ≠ [] ∧
    gives (.fetchBatch 7) (withQueue { ringEnd with batch := some batch, buffered := [entry {}] }) (fun t =>
      (t.queue 7).fetch == 0x1F && (t.queue 7).buffered.length == 2 && (t.queue 7).pollAt == 5000000) = true ∧
    takeOwned [] 0x1E 2 0 = [] ∧
    gives (.fetchBatch 7) (withQueue { ringEnd with batch := some { batch with left := 1 } }) (fun t =>
      t == withQueue { ringEnd with batch := some { batch with left := 1 } }) = true := by decide +kernel

theorem test_queue_head : (withQueue { state := .disabled }).queueIdle 7 = true ∧ pair.queueIdle 7 = false ∧
    gives (.queueHead own 7 0x1B) (withQueue { state := .disabled }) (fun t => (t.queue 7).head == 0x1B && (t.queue 7).fetch == 0x1B) =
      true ∧
    gives (.queueHead own 7 0x1B) pair (fun t => t.mgmt.resp == some ⟨3, 1, 1, 0⟩) = true := by decide +kernel

/-- Queue 7 with a head word that is due. -/
def headDue : QueueSt := { state := .running, head := 0x1B, wbEn := true, wbAddr := 0x2008, wbDirty := true, wbAt := 5000000 - 256 }

theorem test_head_writeback : headDue.wbAt + 256 ≤ (withQueue headDue).now ∧ headDue.wbAddr % 8 = 0 ∧
    gives (.headWriteback 7) (withQueue headDue) (fun t => (t.siphon 7).waiting.map (fun z => (z.addr, z.len)) == [(0x2008, 8)]) = true ∧
    gives (.headWriteback 7) (withQueue { headDue with wbAt := 5000000 - 255 }) (fun t => (t.siphon 7).waiting == []) = true := by
  decide +kernel

/-- Queue 7 with a NOP to grant. -/
def granting : State := withQueue { state := .running, buffered := [entry {}] }

theorem test_grant : granting.sync.lent = false ∧ granting.pick granting.newRound = some (7, 0) ∧
    (granting.queue 7).buffered = [entry {}] ∧
    gives .grant granting (fun t => t.ops.map (fun o => (o.q, o.c)) == [(7, 0)] && t.sluice.credit 7 == 0 && (t.queue 7).grants == 1) =
      true ∧
    pair.pick pair.newRound = none ∧ gives .grant pair (fun t => !t.sluice.active) = true ∧
    gives .grant { granting with sync := { lent := true } } (fun t => t.ops == []) = true := by decide +kernel

/-- Queue 7 with a NOP that waits for count 100. -/
def waiting (tally : Nat) : State :=
  { withQueue { state := .running, buffered := [entry { launchAt := true, launch := 100 }] } with
    tally := { tally, lock := true } }

theorem test_launch_at : (waiting 100).eligible 7 = true ∧ (waiting 99).tally.tally < 100 ∧
    gives (.launchAtCount 7) (waiting 100) (fun t => t.ops.length == 1) = true ∧
    gives (.launchAtCount 7) (waiting 99) (fun t => t.ops.length == 0) = true := by decide +kernel

/-- A NOP of queue 7 that has done its work. -/
def doneNop : Op := { q := 7, c := 0, desc := { group := 3 }, num := 0, running := true, ready := true, settled := true }

theorem test_entry_complete : ({ pair with ops := [doneNop] } : State).op? 7 0 = some doneNop ∧ doneNop.ended = none ∧
    ({ pair with ops := [doneNop] } : State).canComplete doneNop = true ∧ (pair.queue 7).base % 64 = 0 ∧
    gives (.entryComplete 7 0) { pair with ops := [doneNop] } (fun t => t.ops == [] &&
      (t.siphon 7).waiting.map (fun z => (z.addr, z.len)) == [(0x10020, 32)]) = true ∧
    (started {}).canComplete { doneNop with ready := false, settled := false } = false := by decide +kernel

/-! ### Operations -/

/-- An entry of any opcode waits in the dispatch queue. -/
theorem test_dispatchable (d : Desc) (code : Nat) (h : d.opcode = code) :
    State.dispatchable (started d) 7 0 code { q := 7, c := 0, desc := { d with group := 3 }, num := 0 } := ⟨rfl, h, rfl, rfl⟩

theorem test_nop : gives (.nop 7 0) (started {}) (fun t => (t.op? 7 0).any fun o => o.ready && o.running) = true ∧
    gives (.copy 7 0) (started {}) (fun t => t == started {}) = true := by decide +kernel

theorem test_not_dispatchable : ∀ o, ¬ State.dispatchable pair 7 0 0x0D o := fun _ h => nomatch h.1

/-- A COPY of 64 FP32 elements. -/
def copy : Desc := { opcode := 0x0D, length := 64, src := 0x1000, dst := 0x2000, noGroup := true }

theorem test_copy_takes_its_pair : pair.freePair 0 = some 0 ∧ pair.looks { q := 7, c := 0, desc := copy } = false ∧
    pair.readsSrc copy = true ∧ pair.inputBytes copy ≤ pairSize ∧
    gives (.copy 7 0) { pair with ops := [{ q := 7, c := 0, desc := copy, pair := .held }] } (fun t =>
      ((t.op? 7 0).any fun o => o.running && o.pair == .held) && (t.siphon (siphonOf 0x1000)).waiting != []) = true ∧
    gives (.copy 7 0) { pair with ops := [{ q := 7, c := 0, desc := copy }] } (fun t =>
      ((t.op? 7 0).any fun o => o.running && o.pair == .held) && (t.siphon (siphonOf 0x1000)).waiting != []) = true := by
  decide +kernel

theorem test_allreduce_runs : pair.readsSrc { opcode := 0x01, length := 64, src := 0x1000, group := 3 } = true ∧
    gives (.allreduce 7 0) { pair with ops := [{ q := 7, c := 0, num := 0, pair := .held
                                                 desc := { opcode := 0x01, length := 64, src := 0x1000, group := 3 } }] } (fun t =>
      ((t.op? 7 0).any fun o => o.running && o.coll.reached == [0]) && (t.siphon (siphonOf 0x1000)).waiting != []) = true := by
  decide +kernel

theorem test_empty_copy : gives (.copy 7 0) { pair with ops := [{ q := 7, c := 0, desc := { copy with length := 0 } }] } (fun t =>
    (t.op? 7 0).any fun o => o.ready && o.settled) = true ∧
    ({ pair with ops := [{ q := 7, c := 0, desc := { copy with length := 0 } }] } : State).entryXfers 7 0 = [] := by decide +kernel

/-- The same engine with counter 5 at a value. -/
def counting (s : State) (v : Nat) : State := { s with sync := { s.sync with counters := [(5, { value := v, bound := true, bind := 3 })] } }

/-- A local SIGNAL of 2 to counter 5; `sub` subtracts. -/
def signal2 (sub : Nat) : State := started { opcode := 0x0B, sync := 5, aux32 := 2, aux16 := sub }

theorem test_signal : boundElsewhere (counting (signal2 0) 7) 5 false 3 = false ∧ (counting (signal2 0) 7).sync.waiters = [] ∧
    gives (.signal 7 0) (counting (signal2 0) (2 ^ 32 - 3)) (fun t => (t.counter 5).value == 2 ^ 32 - 1 && !(t.counter 5).sat) = true ∧
    gives (.signal 7 0) (counting (signal2 0) (2 ^ 32 - 2)) (fun t => (t.counter 5).value == 2 ^ 32 - 1 && (t.counter 5).sat &&
      (t.queue 7).state == .error && (t.queue 7).cause == 8) = true ∧
    gives (.signal 7 0) (counting (signal2 1) 2) (fun t => (t.counter 5).value == 0 && !(t.counter 5).under) = true ∧
    gives (.signal 7 0) (counting (signal2 1) 1) (fun t => (t.counter 5).value == 0 && (t.counter 5).under &&
      (t.queue 7).state == .error) = true := by decide +kernel

/-- A WAIT for counter 5 at 2 that takes 2 off. -/
def wait2 : State := started { opcode := 0x0C, sync := 5, aux32 := 2, aux16 := 1 }

theorem test_wait : gives (.wait 7 0) (counting wait2 2) (fun t => (t.counter 5).value == 0 && (t.op? 7 0).any (·.ready)) = true ∧
    gives (.wait 7 0) (counting wait2 1) (fun t => t.sync.waiters.length == 1 && (t.op? 7 0).any fun o => !o.ready) = true := by
  decide +kernel

/-- Wire 5 with this engine taking part: entered or not. -/
def wire (entered : Bool) (s : State) : State := { s with sync := { s.sync with weirs := [(5, { engine := true, input := entered })] } }

theorem test_barrier_enters_its_wire : ((wire false (started { opcode := 0x0A, aux16 := 0x45 })).weir 5).entered = false ∧
    (started { opcode := 0x0A, aux16 := 0x45 }).toksOf { q := 7, c := 0, desc := { opcode := 0x0A, aux16 := 0x45, group := 3 }, num := 0 } = [] ∧
    bit 0x45 6 = true ∧ bits 0x45 0 6 = 5 ∧
    gives (.barrier 7 0) (wire false (started { opcode := 0x0A, aux16 := 0x45 })) (fun t => (t.weir 5).input && (t.group 3).genActive) =
      true ∧
    gives (.barrier 7 0) (started { opcode := 0x0A, aux16 := 0x45 }) (fun t => (t.group 3).haltCause == 3 && (t.weir 5).misuse) = true ∧
    gives (.barrier 7 0) (started { opcode := 0x0A }) (fun t => (t.op? 7 0).any fun o => o.bar == 1 && o.coll.reached == [0]) = true := by
  decide +kernel

/-- A group of this engine alone. -/
def alone (s : State) : State :=
  { s with groups := [(3, { gr := { groupRec with stageMask := 0, peers1 := 0, memberCount := 1 }, full := true })]
           members := [(0, { dieAddr := 9, stage := 0, state := 1 })] }

theorem test_mark_of_one_member : ((alone (started { opcode := 0x0E })).gr 3).stageMask = 0 ∧
    ((alone (started { opcode := 0x0E })).group 3).halted = false ∧
    (alone (started { opcode := 0x0E })).toksOf { q := 7, c := 0, desc := { opcode := 0x0E, group := 3 }, num := 0 } = [] ∧
    gives (.mark 7 0) (alone (started { opcode := 0x0E })) (fun t => (t.group 3).markOp == some (7, 0) &&
      (t.group 3).marking.any fun w => !w.resume && w.complete && w.pend == []) = true ∧
    gives (.mark 7 0) (started { opcode := 0x0E }) (fun t => (t.group 3).marking.any fun w => !w.complete && w.si == 0) = true := by decide +kernel

/-! ### Streaming -/

/-- A transfer of a fault record behind one of a payload. -/
def faultXfer : Xfer := { cls := 3, pur := .faultRec 0, addr := 0x4000, len := 64, data := List.replicate 64 0, queue := 257 }

def issuing : State :=
  { pair with siphons := [(2, { waiting := [{ cls := 1, pur := .headWb 7, addr := 0x2008, len := 8, queue := 7 }, faultXfer]
                                out := [(0, faultXfer), (2, faultXfer)] })] }

theorem test_fault_path_goes_first : ((issuing.siphon 2).waiting.filter issuing.issuable).find? (fun y => y.cls == 3) = some faultXfer ∧
    (issuing.siphon 2).freeTag = some 1 ∧ issuing.windowed (blockBase faultXfer.addr) = false ∧ (issuing.siphon 2).offered = none ∧
    (∀ y ∈ (issuing.siphon 2).waiting, issuing.served y = false) ∧ faultXfer.pur.entry = none ∧
    (chooseXfer issuing 2).map (·.1) = some faultXfer ∧
    (issuing.siphon 3).waiting = [] ∧ gives (.transferIssue 3) issuing (fun t => t == issuing) = true := by decide +kernel

/-- One head word waits. -/
def headXfer : Xfer := { cls := 1, pur := .headWb 7, addr := 0x2008, len := 8, queue := 7 }

theorem test_lone_transfer : ({ pair with siphons := [(2, { waiting := [headXfer] })] } : State).tagFor 2 headXfer = true ∧
    ({ pair with siphons := [(2, { waiting := [headXfer] })] } : State).issuable headXfer = true ∧
    (chooseXfer { pair with siphons := [(2, { waiting := [headXfer] })] } 2).map (·.1) = some headXfer ∧ (headXfer.request 0).mask = 0xFF00 := by decide +kernel

/-- The port has refused the head word, which stands on tag 3. -/
def heldOff : SiphonSt := { offered := some 3, out := [(3, headXfer)], shakes := 1, refusedAt := some 1 }

theorem test_held_off_request : heldOff.out.find? (fun y => y.1 == 3) = some (3, headXfer) ∧
    offerReq { pair with siphons := [(2, heldOff)] } 4 = { pair with siphons := [(2, heldOff)] } := by decide +kernel

/-- A siphon with every tag busy. -/
def fullSiphon : State := { pair with siphons := [(2, { waiting := [faultXfer], lost := (List.range 512).map fun i => (i, faultXfer) })] }

theorem test_no_tag_is_free : (fullSiphon.siphon 2).freeTag = none := by decide +kernel

/-- Two COPY entries that wait for a pair. -/
def pairsWanted : State :=
  { pair with ops := [{ q := 7, c := 0, desc := copy, running := true, pair := .waiting },
      { q := 7, c := 1, desc := copy, running := true, pair := .waiting }] }

theorem test_pair_grant : (pairsWanted.ops.find? (fun y => y.partition == 0 && y.asksPair)).map (·.c) = some 0 ∧
    pairsWanted.freePair 0 = some 0 ∧ pairsWanted.pairs 5 ≤ pairsWanted.pairsHeld 5 ∧
    (∀ y ∈ pairsWanted.ops, y.partition ≠ 5) ∧
    gives (.stagingPairGrant 0) pairsWanted (fun t => (t.op? 7 0).any (·.pair == .held)) = true ∧
    gives (.stagingPairGrant 5) pairsWanted (fun t => t == pairsWanted) = true := by decide +kernel

/-- A head word on tag 4, a mirror word on tag 5 since 4 ms, and tag 6 lost. -/
def answering : State :=
  { pair with siphons := [(2, { out := [(4, { cls := 1, pur := .headWb 7, addr := 0x2008, len := 8, queue := 7, at_ := 4000001 }),
      (5, { cls := 1, pur := .mirror 3, addr := 0x3018, len := 8, queue := 257, at_ := 4000000 })], lost := [(6, { cls := 1, pur := .headWb 7, addr := 0x2008, len := 8, queue := 7 })] })] }

theorem test_responses : gives (.fabricResponse 2 9 0 (List.replicate 256 0)) answering (fun t => (t.siphon 2).stray == 1) = true ∧
    gives (.fabricResponse 2 6 0 (List.replicate 256 0)) answering (fun t => (t.siphon 2).lost == []) = true ∧
    gives (.fabricResponse 2 4 0 (List.replicate 256 0)) answering (fun t => (t.siphon 2).out.length == 1 && (t.siphon 2).faults == 0) =
      true ∧
    gives (.fabricResponse 2 4 1 (List.replicate 256 0)) answering (fun t => (t.siphon 2).dropped == 1 && (t.siphon 2).faults == 1) =
      true ∧ answering.cache.fills = [] ∧
    gives (.fabricResponse 7 1 0 (List.replicate 256 0)) { pair with siphons := [(7, { out := [(1, { cls := 1, pur := .record 7 0
                                                                                                     addr := 0x10020, len := 32, queue := 7 })] })] }
      (fun t => (t.queue 7).head == 1 && (t.siphon 7).out == []) = true := by decide +kernel

theorem test_timeouts : ((answering.siphon 2).out.find? (fun y => y.1 == 5)).map (fun y => (y.1, y.2.pur, y.2.at_)) =
      some (5, .mirror 3, 4000000) ∧ 4000000 + answering.fabricTimeoutUs * 1000 ≤ answering.now ∧
    answering.now < 4000001 + answering.fabricTimeoutUs * 1000 ∧
    gives (.fabricTimeout 2 5) answering (fun t => t.sync.mirrorFailed && (t.siphon 2).lost.any fun y => y.1 == 5) = true ∧
    gives (.fabricTimeout 2 4) answering (fun t => t == answering) = true ∧
    gives (.fabricTimeout 2 9) answering (fun t => t == answering) = true := by decide +kernel

/-- A read cache with one line in window 2, which is on. -/
def cached : State :=
  { pair with cache := { lines := [⟨0x5000, []⟩, ⟨0x9000, []⟩], windows := [(2, { en := true, base := 5, limit := 5 })] } }

theorem test_cache : (cached.window 2).en = true ∧ bits (0x6000 : W64).toNat 12 52 ≠ (cached.window 2).base ∧
    bits (0x5000 : W64).toNat 12 52 = (cached.window 2).base ∧ bit (0x5000 : W64).toNat 0 = false ∧ (cached.window 3).en = false ∧
    gives (.cacheWindowWrite own 2 false 0x6000) cached (fun t => t.mgmt.resp == some ⟨3, 1, 1, 0⟩) = true ∧
    gives (.cacheWindowWrite own 2 false 0x5000) cached (fun t => t.cache.lines.map (·.block) == [0x9000]) = true ∧
    gives (.cacheWindowWrite own 3 true 0x7003) cached (fun t => (t.window 3).limit == 7 && (t.window 3).group == 3) = true ∧
    gives (.flush own) cached (fun t => t.cache.lines == [] && t.cache.flushing) = true ∧
    gives (.resume own 7) cached (fun t => t.ops == cached.ops) = true := by decide +kernel

/-- A COPY whose read of a page has faulted. -/
def faulted : State :=
  { pair with ops := [{ q := 7, c := 0, desc := copy, running := true, pair := .held
                        pause := some { faulted := [{ cls := 0, pur := .payload 7 0 .src 0, addr := 0x1000, len := 64, queue := 7 }] } }] }

theorem test_resume : faulted.op? 7 0 = faulted.ops.head? ∧ gives (.resume own 7) faulted (fun t =>
    ((t.op? 7 0).any fun o => o.pause == none && o.ended == none) && (t.siphon (siphonOf 0x1000)).waiting.length == 1) = true := by
  decide +kernel

theorem test_scrub : Upset.wf ⟨4, 100, [7]⟩ = true ∧
    gives (.scrubPass [⟨4, 100, [7]⟩]) pair (fun t => t.warden.eccCount == 1 && t.warden.stuck == [⟨4, 100, 7, false⟩]) = true ∧
    gives (.scrubPass [⟨4, 100, [7]⟩]) { pair with warden := { autoFence := false, stuck := [⟨4, 100, 7, false⟩] } }
      (fun t => t.warden.stuck == [⟨4, 100, 7, true⟩] && t.warden.newFault) = true ∧
    gives (.scrubPass []) { pair with warden := { stuck := [⟨4, 100, 7, false⟩] } } (fun t => t.warden.stuck == []) = true := by
  decide +kernel

/-! ### Groups -/

/-- The same engine with the group halted. -/
def halted (s : State) : State := s.updGroup 3 fun x => { x with halted := true, haltCause := 1 }

theorem test_group_control : (pair.gr 4).valid = false ∧ (pair.group 3).halted = false ∧ (pair.gr 3).valid = true ∧
    ((halted (alone pair)).group 3).halted = true ∧ ((halted (alone pair)).gr 3).stageMask = 0 ∧
    gives (.groupHalt own 4) pair (fun t => t.mgmt.resp == some ⟨3, 1, 1, 0⟩) = true ∧
    gives (.groupResume own 3) pair (fun t => t.mgmt.resp == some ⟨3, 1, 1, 0⟩) = true ∧
    gives (.groupHalt own 3) (started {}) (fun t => (t.group 3).haltCause == 9 && (t.queue 7).state == .halted &&
      t.ops.all (·.ended.isSome)) = true ∧
    (∀ w, (pair.group 3).marking = some w → w.committed = none) ∧
    gives (.groupResume own 3) (halted (alone pair)) (fun t => (t.group 3).marking.any fun w => w.resume && w.complete) = true :=
  by decide +kernel

theorem test_no_resume_is_due : ∀ g, (pair.group g).resumeDue = false := by
  intro g; unfold pair State.group tabGet tabGet; split <;> rfl

theorem test_peer_halt : HaltMsg.wf ⟨10, com, 7, []⟩ = true ∧ pair.mayTradeIn 3 = true ∧ com.run = (pair.group 3).run ∧
    com.step = (pair.group 3).step ∧ (pair.gr 3).autoEvict = false ∧
    gives (.halt ⟨10, com, 7, []⟩) (started {}) (fun t => (t.group 3).haltCause == 2 && t.ops.all (·.ended.isSome)) = true ∧
    (pair.group 3).hasEnded com.step 5 = true ∧ (pair.group 3).hasEnded 2 0 = false ∧
    gives (.halt ⟨10, { com with run := 5 }, 7, []⟩) pair (fun t => t == pair) = true := by decide +kernel

/-- The step timer of the group has run since a count. -/
def timed (a : Nat) : State := pair.updGroup 3 fun x => { x with timerAt := some a }

theorem test_step_timeout : (timed 4900000).now = 4900000 + ((timed 4900000).gr 3).timeoutUs * 1000 ∧
    gives (.stepTimeout 3) (timed 4900000) (fun t => (t.group 3).haltCause == 1 && (t.group 3).timerAt == none &&
      (tabGet (fun _ => {}) t.warden.log 0).type == 8) = true ∧
    gives (.stepTimeout 3) (timed 4900001) (fun t => t == timed 4900001) = true := by decide +kernel

theorem test_recall : RecallMsg.wf ⟨10, com, 5, false, 10, 10, 0⟩ = true ∧ (pair.group 3).recalls = [] ∧
    gives (.recallMsg ⟨10, com, 5, false, 10, 10, 0⟩) (started {}) (fun t => (t.group 3).haltCause == 7 &&
      (t.group 3).recalls == [(0, 0, 0, 5)] && t.ops.all (·.ended.isSome)) = true ∧ (pair.group 3).hasEnded com.step com.run = false ∧ (pair.group 3).hasEnded 2 0 = false ∧
    gives (.recallMsg ⟨10, { com with step := 2 }, 5, false, 10, 10, 0⟩) pair (fun t => (t.group 3).haltCause == 7) = true := by decide +kernel

/-- A completed mark of one member. -/
def marked (resume : Bool) : State :=
  (alone pair).updGroup 3 fun x => { x with marking := some { resume, complete := true }, entryNo := 6, step := 2 ^ 32 - 1, run := 15, halted := resume }

theorem test_step_mark : (marked false).stepSettled 3 = true ∧ (marked false).ownAdmit 3 = false ∧ (marked false).img.staged = none ∧
    ((marked false).group 3).skewValid = false ∧ ((marked false).group 3).marking.map ((marked false).change 3) = some .keep ∧
    ((marked true).group 3).toks = [] ∧ (marked true).groupPumps 3 = [0] ∧
    gives (.stepMark 3) (marked false) (fun t => (t.group 3).step == 0 && (t.group 3).run == 0 && (t.group 3).entryNo == 0) = true ∧
    gives (.stepMark 3) (marked true) (fun t => (t.group 3).step == 2 ^ 32 - 1 && (t.group 3).run == 0 && !(t.group 3).halted) = true ∧
    gives (.stepMark 3) ((alone pair).updGroup 3 fun x => { x with marking := some {} }) (fun t => (t.group 3).marking == some {}) = true := by
  decide +kernel

theorem test_early_token : pair.isPeer 3 1 10 = true ∧ pair.mayTradeIn 3 = true ∧ (pair.group 3).marking = none ∧
    gives (.token { tok with c := { com with step := 1 } }) pair (fun t => (t.group 3).toks.length == 1 && t.ops == []) = true ∧
    gives (.token { tok with c := { com with group := 4 } }) pair (fun t => t == pair) = true ∧
    gives (.token { tok with src := 11 }) pair (fun t => t == pair) = true := by decide +kernel

theorem test_early_parcel : pair.place hdr = .early ∧ pair.place { hdr with run := 1 } = .ended ∧ Parcel.wf ⟨10, hdr, [], [], []⟩ = true ∧
    gives (.parcel ⟨10, hdr, [], [], []⟩) pair (fun t => (t.group 3).early.length == 1 && t.ops == []) = true ∧
    gives (.parcel ⟨10, { hdr with run := 1 }, [], [], []⟩) pair (fun t => t == pair) = true ∧
    gives (.parcel ⟨10, { hdr with group := 4 }, [], [], []⟩) pair (fun t => t.integ.crcErrors == 1 && t.integ.crcSeen) = true := by
  decide +kernel

theorem test_early_messages : pair.opNum 3 0 = none ∧ AnswerMsg.wf ⟨10, com, 0, 0, 0, 1, 0, 0⟩ = true ∧
    gives (.answer ⟨10, com, 0, 0, 0, 1, 0, 0⟩) pair (fun t => t == pair) = true ∧
    gives (.levelMark ⟨10, { com with step := 1 }⟩) pair (fun t => (t.group 3).earlyMarks.length == 1) = true ∧
    gives (.recallMsg ⟨10, { com with run := 5 }, 5, false, 10, 10, 0⟩) pair (fun t => t == pair) = true := by decide +kernel

/-- An ALLREDUCE of 64 FP32 elements that has started and is paused on a fault. -/
def paused : Op :=
  { q := 7, c := 0, desc := { opcode := 0x01, length := 64, group := 3 }, num := 0, running := true, pause := some {}
    kept := [⟨10, ⟨9, { hdr with crc := 1 }, [], [], []⟩, 0, 0, 0, false, false⟩] }

def pausing : State := { pair with ops := [paused] }

/-- A ROTATE that is paused on a fault. -/
def turning : State := { pair with ops := [{ paused with desc := { opcode := 0x07, group := 3 }, kept := [] }] }

theorem test_arrivals : pausing.op? 7 0 = some paused ∧ pausing.opNum 3 0 = some paused ∧
    tokenDiffers pausing paused { tok with length := 64 } = false ∧ pausing.place hdr = .entry paused ∧ pausing.roomFor paused 0 = true ∧
    ({ pausing with img := {} } : State).roomFor paused 1 = false ∧
    (pausing.numCtx paused.desc).orderFree = false ∧ parcelCrc hdr [] ≠ hdr.crc ∧ (pausing.gr 3).flow = false ∧
    gives (.token { tok with length := 64 }) pausing (fun t => (t.group 3).toks.length == 1 &&
      (t.op? 7 0).any fun o => o.slow.any fun y => y.arrived == [10]) = true ∧
    gives (.parcel ⟨10, hdr, [], [], []⟩) pausing (fun t => t.integ.crcErrors == 1 && (t.op? 7 0) == some paused) = true ∧
    gives (.parcel ⟨10, { hdr with crc := parcelCrc hdr [] }, [], [], []⟩) pausing (fun t => t.integ.crcErrors == 0 &&
      (t.op? 7 0).any fun o => o.coll.rx.length == 1) = true ∧
    gives (.answer ⟨10, com, 0, 0, 0, 1, 0, 0⟩) pausing (fun t => (t.op? 7 0).any fun o => o.kept == []) = true ∧
    gives (.levelMark ⟨10, com⟩) pausing (fun t => (t.op? 7 0).any fun o => o.marksHeld == [(1, 10)]) = true := by decide +kernel

theorem test_landing_credit : turning.ringAt 3 1 true = 10 ∧ CreditMsg.wf ⟨10, com, 5⟩ = true ∧
    gives (.landingCredit ⟨10, com, 5⟩) turning (fun t => (t.op? 7 0).any fun o => o.rot.credits == 5) = true := by decide +kernel

/-! ### Sync unit -/

/-- A BARRIER over wire 5 that waits for its release. -/
def barring : Op := { q := 7, c := 0, desc := { opcode := 0x0A, aux16 := 0x45, group := 3 }, num := 0, running := true, bar := 2 }

theorem test_barrier_wire : ((wire true pair).weir 5).entered = true ∧ ((wire false pair).weir 5).entered = false ∧
    gives (.barrierAndRise 5) (wire false pair) (fun t => t == wire false pair) = true ∧
    gives (.barrierAndRise 5) (wire true { pair with ops := [barring] }) (fun t => (t.weir 5).gen == 1 && (t.weir 5).sense &&
      (t.op? 7 0).any fun o => o.ready && o.bar == 3) = true ∧
    gives (.force own 5) (wire false pair) (fun t => (t.weir 5).gen == 1) = true := by decide +kernel

/-- Counter 5 at 1 with a WAIT of 2 parked at it. -/
def parked : State :=
  counting { wait2 with sync := { waiters := [⟨5, 7, 0, 2, false, false, 0⟩] } } 1

theorem test_sync_value_write : parked.sync.waiters = [⟨5, 7, 0, 2, false, false, 0⟩] ∧
    gives (.syncValueWrite own 5 2) parked (fun t => (t.counter 5).value == 2 && t.sync.waiters == [] && (t.op? 7 0).any (·.ready)) =
      true ∧
    gives (.syncValueWrite own 6 2) parked (fun t => (t.counter 6).lastKind == 9 && t.sync.waiters.length == 1) = true := by
  decide +kernel

theorem test_wake_pulse : diff32 ringEnd.fetch ringEnd.head < 2 ^ ringEnd.log2 ∧
    gives (.wakePulse 200) (withQueue { ringEnd with wakeEn := true, wake := 200 }) (fun t => (t.queue 7).batch.isSome) = true ∧
    gives (.wakePulse 201) (withQueue { ringEnd with wakeEn := true, wake := 200 }) (fun t => (t.queue 7).batch.isSome) = false := by
  decide +kernel

/-- Host counter 6 that owes a mirror word since its last one, `ago` ns back. -/
def mirrored (ago : Nat) : State :=
  { pair with sync := { mirrorEn := true, mirrorBase := 0x3000, counters := [(6, { value := 4, mirror := true, mirrorDirty := true, mirrorAt := 5000000 - ago })] } }

theorem test_mirror_and_dump : ((mirrored 256).counter 6).mirrorAt + 256 ≤ (mirrored 256).now ∧
    gives (.hostMirrorWrite 6) (mirrored 256) (fun t => (t.siphon (siphonOf 0x3030)).waiting.length == 1) = true ∧
    gives (.hostMirrorWrite 6) (mirrored 255) (fun t => t == mirrored 255) = true ∧
    gives (.dump own) pair (fun t => t.sync.dumpMissed == 1) = true ∧
    gives (.dump own) { pair with sync := { dumpEn := true, dumpAddr := 0x8000 } } (fun t => t.sync.dumpBusy && t.sync.dumpMissed == 0) = true := by
  decide +kernel

/-- A remote signal of 2 to counter 5 that follows entry `n` of the step. -/
def sig (n : Nat) : SignalMsg := ⟨10, com, 5, false, 2, n, 77⟩

theorem test_remote_signal : pair.presentIn 3 = true ∧ pair.presentIn 4 = false ∧ (counting pair 1).signalDue (sig 0) = true ∧
    (counting pair 1).signalDue (sig 1) = false ∧
    gives (.remoteSignal { sig 0 with c := { com with group := 4 } }) pair (fun t => t.sync.refused && t.sync.refReason == 2) = true ∧
    gives (.remoteSignal { sig 0 with c := { com with run := 1 } }) (counting pair 1) (fun t => t == counting pair 1) = true ∧
    gives (.remoteSignal (sig 0)) (counting pair 1) (fun t => (t.counter 5).value == 3 && (t.counter 5).lastDie == 10) = true ∧
    gives (.remoteSignal (sig 1)) (counting pair 1) (fun t => (t.counter 5).value == 1 && t.sync.held.length == 1) = true := by
  decide +kernel

/-- 1,024 signals are held. -/
def holding : State := counting { pair with sync := { held := List.replicate 1024 ⟨sig 1, 0⟩ } } 1

theorem test_busy : gives (.remoteSignal (sig 0)) holding (fun t => t.sync.held.length == 1024 && (t.counter 5).value == 1) = true := by
  decide +kernel

/-- A subtraction of 2 is held and due; the one behind it is for another counter. -/
def heldDue : State :=
  counting { pair with sync := { held := [⟨{ sig 0 with sub := true }, 0⟩, ⟨{ sig 1 with counter := 6 }, 0⟩] } } 1

theorem test_held_signal : gives (.heldSignalApply 0) heldDue (fun t => t.sync.held.length == 1 && (t.counter 5).under) = true ∧
    heldDue.signalDue { sig 0 with sub := true } = true ∧ heldDue.signalDue { sig 1 with counter := 6 } = false ∧
    gives (.heldSignalApply 1) heldDue (fun t => t == heldDue) = true := by decide +kernel

/-- A started remote SIGNAL to die 10, answered BUSY 1 µs ago. -/
def signalling : Op :=
  { q := 7, c := 0, desc := { opcode := 0x0B, group := 3, sync := 5, aux32 := 2, aux64 := 2 ^ 63 + 10 }, num := 0xFFFF
    running := true, sig := some { ref := 77, step := 0, n := 0, busyAt := some 4999000 } }

theorem test_acks : ({ pair with ops := [signalling] } : State).signalOf ⟨10, com, 0, 77⟩ = some signalling ∧ pair.signalOf ⟨10, com, 0, 77⟩ = none ∧
    gives (.signalAck ⟨10, com, 0, 77⟩) { pair with ops := [signalling] } (fun t => (t.op? 7 0).any (·.ready)) = true ∧
    gives (.signalAck ⟨10, com, 2, 77⟩) { pair with ops := [signalling] } (fun t => (t.queue 7).state == .error && (t.queue 7).cause == 8) =
      true ∧
    gives (.signalAck ⟨10, com, 3, 77⟩) { pair with ops := [signalling] } (fun t => (t.op? 7 0) == none) = true ∧
    gives (.signalAck ⟨10, com, 4, 77⟩) { pair with ops := [signalling] } (fun t => (t.op? 7 0).any fun o =>
      o.sig.any fun x => x.busyAt == some 5000000) = true ∧
    gives (.busyResend 7 0) { pair with ops := [signalling] } (fun t => (t.op? 7 0).any fun o => o.sig.any fun x => x.busyAt == none) =
      true ∧
    gives (.busyResend 7 0) { pair with now := 4999999, ops := [signalling] } (fun t => (t.op? 7 0) == some signalling) = true := by
  decide +kernel

theorem test_fabric_requests : gives (.signalRequest 4 ⟨2, 0, 5, false, 2, 9⟩) (counting pair 1) (fun t => t.sync.answers == [(4, 9, 3)]) =
      true ∧
    gives (.signalRequest 4 ⟨1, 0, 64, false, 2, 9⟩) (counting pair 1) (fun t => t.sync.answers == [(4, 9, 3)]) = true ∧
    gives (.signalRequest 4 ⟨1, 0, 63, false, 2, 9⟩) (counting pair 1) (fun t => (t.counter 63).value == 2 && t.sync.answers == [(4, 9, 0)]) =
      true ∧
    gives (.signalRequest 4 ⟨0, 0, 5, false, 0xFFFFFFFF, 9⟩) (counting pair 1) (fun t => (t.counter 5).sat && t.sync.answers == [(4, 9, 1)]) =
      true ∧
    gives (.signalRequest 4 ⟨0, 0, 5, true, 2, 9⟩) (counting pair 1) (fun t => (t.counter 5).under && t.sync.answers == [(4, 9, 2)]) = true ∧
    gives (.signalRequest 4 ⟨0, 0, 5, true, 2, 9⟩) { pair with sync := { counters := [(5, { value := 8, sat := true })] } }
      (fun t => (t.counter 5).value == 8 && (t.counter 5).lastIgnored && t.sync.answers == [(4, 9, 1)]) = true := by decide +kernel

/-- An engine that has been quiet for 2 µs with lending on. -/
def quiet : State := { pair with sync := { lendEn := true, quietSince := some 4998000 } }

theorem test_lending : quiet.quiescent = true ∧ quiet.warden.surging = false ∧
    gives .lendOffer quiet (fun t => t.sync.lendValid && t.sync.offer == 40) = true ∧
    gives .lendOffer { quiet with now := 4999999 } (fun t => t.sync.lendValid) = false ∧
    gives .lendGrant { pair with sync := { lendValid := true } } (fun t => t.sync.lent && t.sync.lends == 1) = true ∧
    gives .lendReclaim { pair with sync := { lendValid := true, lent := true } } (fun t => t.sync.reclaimAt == some 5000000) = true ∧
    gives .budgetReturned { pair with sync := { lent := true } } (fun t => !t.sync.lent) = true ∧
    gives .reclaimLimit { pair with sync := { lent := true, reclaimAt := some 4999000 } } (fun t => !t.sync.lent) = true ∧
    gives .reclaimLimit { pair with sync := { lent := true, reclaimAt := some 4999001 } } (fun t => t.sync.lent) = true := by decide +kernel

/-! ### Time -/

/-- The tally locked at a count, 300,000 counts on, with cadence asked for. -/
def ticking : State :=
  { pair with tally := { tally := 300000, lock := true, everLocked := true, lockedAt := 0 }, img := { active := some { cadence := true } } }

/-- The same tally with its lock lost. -/
def adrift : State := { pair with tally := { tally := 300000, holdover := true, everLocked := true } }

theorem test_tally : ticking.tally.lock = true ∧ adrift.tally.lock = false ∧ State.reset.tally.everLocked = false ∧
    max ((0 + 131071) / 65536 * 65536) ((0 / 65536 + 1) * 65536) = 65536 ∧ ticking.image.cadence = true ∧ ticking.tally.aligned = false ∧
    gives (.tallyLock 7) State.reset (fun t => t.tally.tally == 7 && t.tally.lock && t.tally.lockedAt == 7) = true ∧
    gives (.tallyLock 300000) adrift (fun t => t.tally.tally == 300000 && t.tally.lock) = true ∧
    gives (.tallyLock 299999) adrift (fun t => !t.tally.lock && t.tally.behind == some 299999) = true ∧
    ({ adrift.tally with behind := some 299998 } : TallySt).advance.tally = 300000 ∧
    ({ adrift.tally with behind := some 299998 } : TallySt).advance.lock = false ∧
    ({ adrift.tally with behind := some 300000 } : TallySt).advance.tally = 300001 ∧
    gives (.tallyLoss .below) ticking (fun t => t.tally.holdover && t.tally.backward && t.tally.losses == 1) = true ∧
    gives (.tallyLoss .below) adrift (fun t => t == { adrift with tally := { adrift.tally with backward := true } }) = true ∧
    gives (.tallyLoss .stalled) { adrift with tally := { adrift.tally with behind := some 7 } } (fun t => t.tally.losses == 1) = true ∧
    gives .cadenceAlign ticking (fun t => t.tally.c0 == 65536 && t.tally.aligned) = true ∧
    gives .cadenceAlign { ticking with tally := { ticking.tally with cadenceAt := 200000 } } (fun t => t.tally.c0 == 262144) = true ∧
    gives .cadenceAlign { ticking with tally := { ticking.tally with lockedAt := 200000 } } (fun t => t.tally.aligned) = false ∧
    gives .cadenceAlign { adrift with tally := { ticking.tally with cadenceOn := true } } (fun t => !t.tally.cadenceOn) = true := by
  decide +kernel

/-- This engine, paired with die 10 over queue 7. -/
def twins : State := { pair with twin := { en := true, partner := 10, queue := 7, peers := [10], paired := true } }

def key (k : Nat) : TwinKey := ⟨k, 0, 0, 0, 0, 0⟩

/-- One record of the engine's own waits since 1 ms; another waits since 10 ms. -/
def behindTwin (crc : Nat) : State := { twins with twin := { twins.twin with own := [⟨key 1, crc⟩], lastAt := 0 } }

theorem test_pairing : bits (0xA0701 : W64).toNat 16 18 = 10 ∧ pair.me = 9 ∧ bits (0x90701 : W64).toNat 16 18 = pair.me ∧
    gives (.twinCtrlWrite own 0x90701) pair (fun t => t.mgmt.resp == some ⟨3, 1, 1, 0⟩) = true ∧
    gives (.twinCtrlWrite own 0xA0701) pair (fun t => t.twin.en && t.twin.queue == 7 && !t.twin.paired) = true ∧
    gives (.twinCtrlWrite own 0xA0701) twins (fun t => t.mgmt.resp == some ⟨3, 1, 1, 0⟩) = true ∧
    gives (.twinCtrlWrite own 0xA0700) twins (fun t => !t.twin.paired) = true ∧
    gives (.twinPair 10 true) { pair with twin := { en := true, partner := 10 } } (·.twin.paired) = true ∧
    gives (.twinPair 10 false) twins (fun t => !t.twin.paired) = true := by decide +kernel

theorem test_comparison : (⟨key 1, 5⟩ : TwinRec).wf = true ∧ twins.twin.paired = true ∧ twins.twin.partner = 10 ∧
    twins.twin.own = [] ∧ (behindTwin 5).twin.own = [⟨key 1, 5⟩] ∧
    gives (.twinRecord 10 [⟨key 1, 5⟩]) pair (fun t => t == pair) = true ∧
    gives (.twinRecord 10 [⟨key 1, 5⟩]) twins (fun t => t.twin.theirs == [⟨key 1, 5⟩]) = true ∧
    gives (.twinRecord 10 [⟨key 1, 5⟩]) (behindTwin 5) (fun t => t.twin.own == [] && t.twin.compared == 1 && !t.twin.diverged) = true ∧
    gives (.twinRecord 10 [⟨key 1, 6⟩]) (behindTwin 5) (fun t => t.twin.diverged && t.twin.best == some (key 1, 5, 6)) = true := by
  decide +kernel

/-- A divergence found 1 ms ago. -/
def diverged : State :=
  { twins with twin := { twins.twin with diverged := true, mismatchAt := some 4000000, best := some (key 1, 5, 6), own := [⟨key 2, 5⟩] } }

theorem test_divergence_and_silence : diverged.twin.best = some (key 1, 5, 6) ∧ diverged.twin.latched = false ∧
    diverged.twin.mismatchAt = some 4000000 ∧ 4000000 + 1000000 ≤ diverged.now ∧ diverged.twin.own ≠ [] ∧
    gives .twinDivergeLatch diverged (fun t => t.twin.latched && t.twin.divEntry == 1 && t.twin.divOwn == 5) = true ∧
    gives .twinDivergeLatch { diverged with now := 4999999 } (fun t => t.twin.latched) = false ∧
    (behindTwin 5).twin.lastAt + 10000000 ≤ ({ behindTwin 5 with now := 10000000 } : State).now ∧
    gives .twinAlone { behindTwin 5 with now := 10000000 } (fun t => t.twin.alone && !t.twin.paired && t.twin.own == []) = true ∧
    gives .twinAlone { behindTwin 5 with now := 9999999 } (fun t => t.twin.paired) = true ∧ pair.twin.paired = false := by decide +kernel

/-! ### Warden -/

/-- A residue mismatch of pump 0 whose repeat failed again while the alternative was right. -/
def bad0 (again : Bool) : FaultRep :=
  { rep with type := 5, unit := 0, rep := ⟨!again, false, true, again⟩, operandsKept := true, passedOn := false, repaired := false
             group := 3, entry := 0xFFFF }

theorem test_fault_report : (bad0 false).wf = true ∧ (bad0 true).wf = true ∧ pair.ratedOut 5 0 = false ∧ pair.warden.suspicion = [] ∧
    1 < pair.warden.transientLimit ∧ judge 0 (bad0 true).rep false = 2 ∧ pair.faultStands (bad0 false) = true ∧
    pair.faultStands { bad0 false with unit := 5 } = false ∧
    gives (.faultReport { bad0 false with unit := 5 }) pair (fun t => t == pair) = true ∧
    gives (.faultReport (bad0 false)) pair (fun t => (tabGet (fun _ => {}) t.warden.log 0).verdict == 1 &&
      t.warden.suspicion == [(0, 5000000)] && t.warden.fenced == [] && t.integ.residueErrors == 1) = true ∧
    gives (.faultReport (bad0 true)) pair (fun t => (tabGet (fun _ => {}) t.warden.log 0).verdict == 2 &&
      t.warden.fenced == [0] && t.warden.spareIn == some 0) = true ∧
    gives (.faultReport { bad0 false with type := 4, repaired := true }) pair (fun t => t.integ.repairs == 1) = true := by
  decide +kernel

/-- A record of the same type and unit was made less than 1 ms ago. -/
def rated : State := { pair with warden := { autoRelief := false, recent := [(5, 0, 4000001)] } }

theorem test_fault_report_is_rated : rated.ratedOut 5 0 = true ∧ rated.warden.autoRelief = false ∧
    gives (.faultReport (bad0 false)) rated (fun t => t.warden.suppressed == 1 && t.warden.log == [] && t.warden.seq == 0) = true ∧
    ({ rated with now := 5000001 } : State).ratedOut 5 0 = false := by decide +kernel

theorem test_fencing : (fencePump base 3).1.warden.spareIn = some 3 ∧ base.groups = [] ∧ base.warden.fenced = [] ∧
    WithdrawMsg.wf ⟨10, com, 5⟩ = true ∧ (pair.group 3).withdrawn = [] ∧ (∀ y ∈ pair.groups, y.2.gr.autoEvict = false) ∧
    (∀ e ∈ pair.groupEntries 3, e.2.dieAddr = 10 → e.2.state ≠ 3 ∧ e.2.state ≠ 5) ∧
    gives (.withdraw ⟨10, com, 5⟩) pair (fun t => (t.group 3).withdrawn == [(10, 0, 0)] &&
      (tabGet (fun _ => {}) t.warden.log 0).type == 0x0E) = true ∧
    gives (.withdraw ⟨10, { com with step := 1 }, 5⟩) pair (fun t => (t.group 3).withdrawn == [(10, 1, 0)]) = true ∧
    gives (.withdraw ⟨10, { com with run := 5 }, 5⟩) pair (fun t => t == pair) = true := by decide +kernel

/-- A pump pour 4 and no test. -/
def pouring : State := { pair with warden := { vengMv := 750, pours := [⟨4, 0, 0, 0, 1⟩] } }

/-- A failure of pour 4 on the spare that repeats. -/
def spareFails : TestFail := ⟨4, 16, 1, 2, 0, ⟨false, false, true, true⟩⟩

theorem test_test_commands : pouring.warden.testBusy = false ∧ pouring.warden.pours = [⟨4, 0, 0, 0, 1⟩] ∧ pair.warden.pours = [] ∧
    bits (4 : W64).toNat 0 16 = 4 ∧ TestFail.wf spareFails = true ∧
    gives (.go own 4) pair (fun t => t.warden.test == .refused && t.warden.testId == 4) = true ∧
    gives (.go own 4) pouring (fun t => t.warden.test == .running) = true ∧
    gives (.go own 4) { pouring with warden := { pouring.warden with test := .running } } (fun t =>
      t.mgmt.resp == some ⟨3, 1, 1, 0⟩) = true ∧
    pouring.testFails pouring.warden.pours [] false false [] = [] ∧
    pouring.testFails pouring.warden.pours [] false false [spareFails] = [spareFails] ∧
    gives (.testComplete []) { pouring with warden := { pouring.warden with test := .running, testPours := pouring.warden.pours } }
      (·.warden.test == .pass) = true ∧
    gives (.testComplete [spareFails]) { pouring with warden := { pouring.warden with test := .running, testPours := pouring.warden.pours } } (fun t =>
      t.warden.test == .fail && t.warden.testVerdict == 2 && t.warden.failId == 4 && t.warden.fenced == [16]) = true ∧
    gives (.testComplete []) pouring (fun t => t == pouring) = true := by decide +kernel

/-- Automatic tests are on, and their interval of 1 s has passed. -/
def automatic : State := { pouring with now := 1000000000, warden := { pouring.warden with testAutoEn := true } }

theorem test_whole_and_automatic : automatic.warden.autoAt + automatic.warden.testInterval * 100000000 ≤ automatic.now ∧
    automatic.settledVeng = true ∧ automatic.warden.nextPour = some 4 ∧
    gives (.testAuto []) automatic (fun t => t.warden.autoLast == some 4 && t.warden.autoAt == 1000000000) = true ∧
    gives (.testAuto []) pouring (fun t => t == pouring) = true ∧
    gives (.wholeEngineTest []) { pouring with warden := { pouring.warden with test := .running, testHold := true } } (fun t =>
      t.warden.test == .pass && !t.warden.testHold) = true ∧
    gives (.wholeEngineTest []) { pausing with warden := { pouring.warden with test := .running, testHold := true } } (fun t =>
      t.warden.testHold) = true := by decide +kernel

theorem test_pace_and_base : bits (9 : W64).toNat 0 4 = 9 ∧
    gives (.paceWrite own 16 8) base (fun t => t.pace 16 == ⟨8, 0⟩) = true ∧
    gives (.paceWrite own 16 9) base (fun t => t.mgmt.resp == some ⟨3, 1, 1, 0⟩) = true ∧
    gives (.baseMvWrite own 850) base (fun t => t.vengTarget == (850, 0) && t.warden.vreqMv == 750) = true ∧
    gives (.baseMvWrite own 851) base (fun t => t.mgmt.resp == some ⟨3, 1, 1, 0⟩) = true ∧
    gives (.baseMvWrite own 875) base (fun t => t.mgmt.resp == some ⟨3, 1, 1, 0⟩) = true ∧
    gives (.clearRelief own) { base with warden := { base.warden with vsteps := 2 } } (fun t =>
      t.warden.vsteps == 0 && t.vengTarget == (750, 0)) = true ∧ base.stressing = false ∧ base.warden.surging = false := by
  decide +kernel

/-- The rail has been away from its target since 4 ms, by 50 mV. -/
def away : State := { base with warden := { baseMv := 800, vengMv := 750, offSince := some 4000000, offTarget := 800, offBy := 50 } }

theorem test_voltage : away.vengTarget = (800, 0) ∧ away.warden.vreqAt = none ∧ away.warden.vreqMv = 750 ∧ away.settledVeng = false ∧
    4000000 + 200 * away.warden.offBy + 100000 ≤ away.now ∧ away.warden.senseRecorded = false ∧
    gives .vengStep away (fun t => t.warden.vreqMv == 775 && t.warden.vreqAt == some 5000000) = true ∧
    gives .vengStep { away with warden := { away.warden with baseMv := 725 } } (fun t => t.warden.vreqMv == 725) = true ∧
    gives .vengStep { away with warden := { away.warden with vreqAt := some 4995001 } } (fun t => t.warden.vreqMv == 750) = true ∧
    gives .vengSense away (fun t => t.warden.senseRecorded && (tabGet (fun _ => {}) t.warden.log 0).type == 0x12) = true ∧
    gives .vengSense { away with now := 4109999 } (fun t => t.warden.senseRecorded) = false := by decide +kernel

/-- The cap has been on, and the die at or below 100 °C since a count. -/
def cooled (n : Nat) : State := { base with now := n, warden := { base.warden with cap := true, coolSince := some 0 } }

theorem test_heat : State.reset.warden.tjStale = false ∧ base.warden.tjAt + 1000000 ≤ base.now ∧ base.warden.vengAt + 1000000 ≤ base.now ∧
    (cooled 0).warden.cap = true ∧ (cooled 0).warden.coolSince = some 0 ∧
    gives (.thermal 420) base (fun t => !t.warden.cap) = true ∧
    gives (.thermal 421) base (fun t => t.warden.cap && !t.warden.trip) = true ∧
    gives (.thermal 460) base (fun t => t.warden.trip && t.effectivePace 4 == 8) = true ∧
    gives (.senseStrobe .veng 700) base (fun t => t.warden.vengMv == 700 && t.warden.vengAt == 5000000) = true ∧
    gives (.senseStale .tj) base (fun t => t.warden.trip) = true ∧ gives (.senseStale .veng) base (fun t => t.warden.trip) = true ∧
    gives (.senseStale .tj) { base with now := 999999 } (fun t => t.warden.trip) = false ∧
    gives .capRelease (cooled 1000000000) (fun t => !t.warden.cap) = true ∧
    gives .capRelease (cooled 999999999) (fun t => t.warden.cap) = true := by decide +kernel

/-- Surge has been asked for, its ledger is valid and its conditions hold. -/
def surgeDue : State :=
  refreshDraw { pair with warden := { vengMv := 750, request := true, surge := .off, ledgerValid := true, temp := 400 } }

/-- Surge is on, with a window of some milliseconds used. -/
def surging (ms : Nat) : State := { surgeDue with warden := { surgeDue.warden with surge := .on, slotNs := 0, slots := [ms * 1000000] } }

theorem test_surge : surgeDue.warden.drawValid = true ∧ surgeDue.surgeReady = true ∧ surgeDue.warden.drawReq = 38 ∧
    (surging 500).warden.surging = true ∧ (surging 500).warden.windowUsed = 500 ∧ State.MayWrite (surging 500) own ∧
    gives .surgeBegin surgeDue (fun t => t.warden.surge == .ramp && t.vengTarget == (900, 1)) = true ∧
    gives .surgeBegin base (fun t => t.warden.drawGrant && !t.warden.surging) = true ∧
    gives (.request own false) (surging 1) (fun t => t.warden.surge == .off && t.warden.ledgerDue) = true ∧
    gives .drawGrantFall (surging 1) (fun t => t.warden.surge == .off) = true ∧
    gives .surgeWindowSpent (surging 500) (fun t => t.warden.surge == .off) = true ∧
    gives .surgeWindowSpent (surging 499) (fun t => t.warden.surge == .on) = true :=
  ⟨by decide +kernel, by decide +kernel, by decide +kernel, by decide +kernel, by decide +kernel, ⟨rfl, rfl, rfl⟩, by decide +kernel,
    by decide +kernel, by decide +kernel, by decide +kernel, by decide +kernel, by decide +kernel⟩

/-- A ledger with 2 hours less than the limit or at it. -/
def ledger (ms : Nat) : State :=
  { base with warden := { ledgerValid := true, surge := .off, ledgerMs := ms, ledgerEn := true, ledgerDue := true, ledgerAddr := 0x6000 } }

/-- A ledger is offered for restoring. -/
def offeredLedger (sec : Nat) (c : W64) : State := { base with warden := { restoreS := sec, restoreCheck := c } }

theorem test_ledger : (ledger 7200000000).warden.spent = false ∧ base.warden.restoreUsed = false ∧
    gives .ledgerSpent (ledger 7200000000) (fun t => t.warden.spent && t.warden.surge == .disabled) = true ∧
    gives .ledgerSpent (ledger 7199999999) (fun t => t.warden.spent) = false ∧
    gives .ledgerRecord (ledger 5000) (fun t => !t.warden.ledgerDue && (t.siphon (siphonOf 0x6000)).waiting.any fun z =>
      z.pur == .ledger && z.addr == 0x6000) = true ∧
    gives (.restore own) (offeredLedger 9 (base.ledgerCheck 9)) (fun t => t.warden.ledgerMs == 9000 && t.warden.ledgerValid) = true ∧
    gives (.restore own) (offeredLedger 7200000 (base.ledgerCheck 7200000)) (fun t => t.warden.spent) = true ∧
    gives (.restore own) (offeredLedger 9 (base.ledgerCheck 8)) (fun t => t.warden.ledgerBad && !t.warden.ledgerValid) = true ∧
    gives (.restore own) { base with warden := { restoreUsed := true } } (fun t => t.mgmt.resp == some ⟨3, 1, 1, 0⟩) = true := by
  decide +kernel

/-! ### Links -/

/-- Port 4, a system port, in a state. -/
def port4 (l : LinkSt) : State := { base with links := [(4, l)] }

/-- A TRAIN flit of die 73's port 5. -/
def trainFlit5 (count : Nat) : TrainFlit := { die := 73, port := 5, idCheck := 3, ready := 15, width := 4, count }

theorem test_training : (trainFlit5 8).wf = true ∧ (port4 { state := .train, goodTrain := 7 }).wired 4 (trainFlit5 8) = true ∧
    (port4 { state := .train, goodTrain := 7 }).wired 4 { trainFlit5 8 with die := 10 } = false ∧
    gives (.phyReady 4 3) (port4 { state := .waitPhy }) (fun t => (t.link 4).state == .train && (t.link 4).ready == 3) = true ∧
    gives (.phyReady 4 3) (port4 { state := .up }) (fun t => (t.link 4).state == .up && (t.link 4).ready == 3) = true ∧
    gives (.train 4 (trainFlit5 8)) (port4 { state := .up }) (fun t => t == port4 { state := .up }) = true ∧
    gives (.train 4 (trainFlit5 8)) (port4 { state := .train, goodTrain := 6 }) (fun t => (t.link 4).goodTrain == 7 &&
      (t.link 4).state == .train) = true ∧
    gives (.train 4 (trainFlit5 8)) (port4 { state := .train, goodTrain := 7 }) (fun t => (t.link 4).state == .basic &&
      (t.link 4).peerDie == 73 && (t.link 4).peerId == 3) = true ∧
    gives (.train 4 { trainFlit5 8 with die := 10 }) (port4 { state := .train, goodTrain := 7 }) (fun t => (t.link 4).state == .down &&
      (t.link 4).downCause == 2) = true := by decide +kernel

theorem test_attempts : attemptBound 4 .train = 2000000 ∧ attemptBound 0 .attach = 10000 ∧ attemptBound 0 .retrain = 210000 ∧
    gives (.trainAttemptFail 4) (port4 { state := .train, attemptAt := 3000000 }) (fun t => (t.link 4).attempts == 1 &&
      ((t.link 4).backoffUntil.any fun a => 5010000 ≤ a && a ≤ 5640000)) = true ∧
    gives (.trainAttemptFail 4) (port4 { state := .train, attemptAt := 3000001 }) (fun t => (t.link 4).attempts == 0) = true ∧
    gives (.trainAttemptFail 4) (port4 { state := .train, attemptAt := 3000000, attempts := 7 }) (fun t =>
      (t.link 4).state == .down && (t.link 4).downCause == 1) = true ∧
    gives (.trainBackoff 4) (port4 { state := .train, backoffUntil := some 5000000 }) (fun t => (t.link 4).backoffUntil == none) = true ∧
    gives (.trainBackoff 4) (port4 { state := .train, backoffUntil := some 5000001 }) (fun t =>
      (t.link 4).backoffUntil == some 5000001) = true ∧
    ({ ready := 7, good := Nat.land 15 7 } : LinkSt).fitWidth = 2 ∧
    gives (.calibrationComplete 4 15) (port4 { state := .basic, ready := 7 }) (fun t => (t.link 4).state == .up &&
      (t.link 4).width == 2 && (t.link 4).degraded) = true := by decide +kernel

theorem test_retraining : (LinkSt.live { state := .up } = true) ∧ (LinkSt.live { state := .train } = false) ∧
    bits (0xC : W64).toNat 2 2 = 3 ∧
    gives (.phyLost 4 1) (port4 { state := .up, ready := 15, good := 15 }) (fun t => (t.link 4).state == .retrain &&
      (t.link 4).ready == 14 && (t.link 4).retrains == 1) = true ∧
    gives (.linkSilence 4) (port4 { state := .up, lastGood := 4900000 }) (fun t => (t.link 4).state == .retrain) = true ∧
    gives (.linkSilence 4) (port4 { state := .up, lastGood := 4900001 }) (fun t => (t.link 4).state == .up) = true ∧
    gives (.retrain own 4) (port4 { state := .up, width := 1, cap := 1 }) (fun t => (t.link 4).state == .retrain &&
      (t.link 4).cap == 4 && t.warden.log == []) = true ∧
    gives (.retrain own 4) (port4 { state := .down }) (fun t => (t.link 4).state == .train) = true ∧
    gives (.linkEnWrite own 4 0xD) (port4 { state := .up }) (fun t => t.mgmt.resp == some ⟨3, 1, 1, 0⟩) = true ∧
    gives (.linkEnWrite own 4 0) (port4 { state := .up }) (fun t => (t.link 4).state == .disabled && !(t.link 4).en) = true ∧
    gives (.linkEnWrite own 4 5) (port4 { state := .up }) (fun t => (t.link 4).state == .up && (t.link 4).maxWidth == 1) = true := by
  decide +kernel

/-- 64 bytes of zeros, and their sidebands on VC 0 as the third and the second flit. -/
def zeros : List Byte := List.replicate 64 0

def sideband (seq : Nat) : BitVec 32 := BitVec.ofNat 32 (sidebandOf zeros (16 * seq))

/-- A kept flit of SEQ 4. -/
def kept4 : KeptFlit := ⟨4, 0, true, 0, { dest := 73, src := 9, body := .twinPair true }⟩

theorem test_flits : crc16 (zeros ++ leBytes 2 ((sideband 2).toNat % 65536)) = bits (sideband 2).toNat 16 16 ∧
    crc16 (zeros ++ leBytes 2 ((0x20 : BitVec 32).toNat % 65536)) ≠ bits (0x20 : BitVec 32).toNat 16 16 ∧
    gives (.flit ⟨4, 0⟩ (sideband 2) zeros) (port4 { state := .up, rxSeq := 2 }) (fun t => (t.link 4).rxSeq == 3 &&
      (t.link 4).parts 0 == zeros) = true ∧
    gives (.flit ⟨4, 0⟩ (sideband 2) zeros) (port4 { state := .up, rxSeq := 3 }) (fun t => (t.link 4).rxSeq == 3 &&
      (t.link 4).sent == none) = true ∧
    gives (.flit ⟨4, 0⟩ (sideband 2) zeros) (port4 { state := .up, rxSeq := 1 }) (fun t => (t.link 4).nackSent) = true ∧
    gives (.flit ⟨4, 0⟩ 0x20 zeros) (port4 { state := .up, rxSeq := 2 }) (fun t => (t.link 4).crcErrors == 1 && (t.link 4).nackSent) = true ∧
    gives (.flit ⟨4, 0⟩ 0x20 zeros) (port4 { state := .train, goodTrain := 3, ready := 1 }) (fun t => (t.link 4).crcErrors == 1 &&
      (t.link 4).goodTrain == 0) = true := by decide +kernel

theorem test_replay : (∃ k ∈ (LinkSt.acked { kept := [kept4] } 3).kept, k.seq = 4) ∧ (LinkSt.acked { kept := [kept4] } 4).kept = [] ∧
    gives (.nack 4 3 4) (port4 { state := .up, kept := [kept4] }) (fun t => (t.link 4).replays == 1 && (t.link 4).replaysOf 4 == 1) = true ∧
    gives (.nack 4 3 4) (port4 { state := .up, kept := [kept4], replayCounts := [(4, 1)] }) (fun t => (t.link 4).replays == 0 &&
      (t.link 4).replayWait.any fun w => w.1 == 4 && w.2 ≤ 5000252) = true ∧
    gives (.nack 4 3 4) (port4 { state := .down }) (fun t => t == port4 { state := .down }) = true ∧
    gives (.replayBackoff 4) (port4 { state := .up, kept := [kept4], replayWait := some (4, 5000000), replayCounts := [(4, 1)] })
      (fun t => (t.link 4).replays == 1 && (t.link 4).replayWait == none) = true ∧
    gives (.replayBackoff 4) (port4 { state := .up, kept := [kept4], replayWait := some (4, 5000001) }) (fun t =>
      (t.link 4).replays == 0) = true ∧
    gives (.replayBackoff 4) (port4 { state := .up, replayWait := some (4, 5000000) }) (fun t => (t.link 4).replays == 0 &&
      (t.link 4).replayWait == none) = true := by
  refine ⟨⟨kept4, by decide +kernel, rfl⟩, ?_⟩
  decide +kernel

theorem test_status_and_map : gives (.status 4 4 [1, 2, 3, 4] 4) (port4 { state := .up, kept := [kept4] }) (fun t =>
      (t.link 4).kept == [] && (t.link 4).credBack == [1, 2, 3, 4]) = true ∧
    creditsNow [65535, 0, 0, 0] [1, 0, 0, 0] = [65537, 0, 0, 0] ∧
    gives (.statusSend 4) (port4 { state := .up, width := 4 }) (fun t => (t.link 4).sent.any fun x => x.kind == 0 && x.ack == 4095) = true ∧
    gives (.statusSend 4) (port4 { state := .down }) (fun t => t == port4 { state := .down }) = true ∧
    gives (.linkState 0 10 2 true 7) base (fun t => t.mapUp 10 2 && t.net.seen == [(10, 7)]) = true ∧
    gives (.linkState 0 10 2 true 7) { base with net := { seen := [(10, 7)] } } (fun t => !t.mapUp 10 2) = true := by decide +kernel

/-- A message for this die that a peer sends. -/
def toMe : Msg := { dest := 9, src := 10, body := .twinPair true }

theorem test_wire_form : bodyVc toMe.body = 1 ∧ bodyFlits toMe.body = 1 ∧ bodyType toMe.body = 9 ∧
    ((takeFlit (port4 { state := .up, rxSeq := 2 }) 4 0 (KeptFlit.wire ⟨2, 1, true, 0, toMe⟩).2 (KeptFlit.wire ⟨2, 1, true, 0, toMe⟩).1).net.inbox.map
      fun m => (m.msg.carries 10 (.twinPair true), m.from_)) = [(true, some (4, 1, 1))] := by decide +kernel

/-! ### Checks, sums and cuts -/

theorem test_order_free : (NumCtx.mk 0 8 8 8 false 64 (pair.numCtx {}).round).orderFree = true ∧ base.mgmt.portReady = true ∧ base.isFrozen own.agent = false ∧
    chunkGrains (grains 64) 1 0 = (0, grains 64) ∧
    gives (.rcRead own 0x4003) base (fun t => t.mgmt.resp.any fun r => r.status == 0) = true := by decide +kernel

theorem test_management_is_sound : base.mgmt.Sound ∧ gives .lendGrant base (fun _ => true) = true :=
  ⟨by constructor <;> decide, by decide +kernel⟩

/-! ### Further clauses -/

theorem test_wake_pulse_lasts_two_ns : base.warden.surging = false ∧
    (match step { base with sync := { wakeOut := [(5, 4999998), (6, 4999999)] } } with
      | .next t => t.sync.wakeOut == [(6, 4999999)]
      | _ => false) = true := by decide +kernel

/-- The swap waits no more, and fields are staged since its commit point. -/
def restaged : State :=
  { swapping with
    ops := swapping.ops.take 1, num := { keyStaged := some 5 }, refiner := { rowsStaged := [(4, 6)], schedsStaged := [(1, 7)] }
    groups := swapping.groups.map fun x => (x.1, { x.2 with fillStaged := some 8, replayStaged := some (true, 9) }) }

theorem test_swap_keeps_what_is_staged : gives .imageSwap restaged (fun t => t.num.keyStaged == some 5 &&
    t.refiner.rowsStaged == [(4, 6)] && t.refiner.schedsStaged == [(1, 7)]) = true := by decide +kernel

theorem test_enable_after_an_error : ((withQueue { state := .halted }).group 3).halted = false ∧
    gives (.enable own 7) (withQueue { state := .error, head := 5, cause := 8, errIndex := 6 }) (fun t =>
      (t.queue 7).state == .running && (t.queue 7).fetch == 5 && (t.queue 7).cause == 0) = true ∧
    gives (.enable own 7) (withQueue { state := .halted, head := 5 }) (fun t => (t.queue 7).state == .running) = true ∧
    gives (.enable own 7) (halted (withQueue { state := .halted })) (fun t => t.mgmt.resp == some ⟨3, 1, 1, 0⟩) = true := by
  decide +kernel

theorem test_disable_discards : gives (.queueDisable own 7) (withQueue { state := .running, fetch := 2, buffered := [entry {}] })
      (fun t => (t.queue 7).fetch == 0 && (t.queue 7).buffered == []) = true ∧
    gives (.queueDisable own 7) (withQueue { state := .error, enable := true }) (fun t => (t.queue 7).state == .error &&
      !(t.queue 7).enable) = true := by decide +kernel

theorem test_barrier_misuse : ((wire true (started { opcode := 0x0A, aux16 := 0x45 })).weir 5).entered = true ∧
    gives (.barrier 7 0) (wire true (started { opcode := 0x0A, aux16 := 0x45 })) (fun t => (t.weir 5).misuse &&
      (t.weir 5).input && t.sync.weirMisuse && (t.group 3).haltCause == 3) = true := by decide +kernel

/-- A transfer of a purpose on tag 1 of siphon 7. -/
def onTag1 (s : State) (p : Purpose) : State :=
  { s with siphons := [(7, { out := [(1, { cls := 1, pur := p, addr := 0x10000, len := 32, queue := 7, at_ := 4000000 })] })] }

/-- A started COPY outside groups. -/
def copying : State := { pair with ops := [{ q := 7, c := 0, desc := copy, running := true, pair := .held }] }

theorem test_failed_payload : (∀ o ∈ copying.ops, o.ended = none ∧ o.desc.opcode = 0x0D ∧ copying.past o = false ∧ o.pause = none) ∧
    copying.cache.notifyEn = false ∧ isGroupWide 0x01 = true ∧
    gives (.fabricResponse 7 1 2 (List.replicate 256 0)) (onTag1 copying (.payload 7 0 .src 0)) (fun t =>
      (t.siphon 7).errors == 1 && (t.op? 7 0).any (·.ended == some 0x0A)) = true ∧
    gives (.fabricResponse 7 1 3 (List.replicate 256 0)) (onTag1 (started { opcode := 0x01, length := 64 }) (.payload 7 0 .src 0)) (fun t =>
      (t.siphon 7).errors == 1 && (t.group 3).haltCause == 7) = true ∧
    gives (.fabricResponse 7 1 1 (List.replicate 256 0)) (onTag1 copying (.payload 7 0 .src 0)) (fun t =>
      (t.siphon 7).faults == 1 && (t.op? 7 0).any fun o => o.ended == none && o.pause.any fun z => z.faulted.length == 1 && z.siphon == 7) =
      true ∧
    gives (.fabricTimeout 7 1) (onTag1 copying (.payload 7 0 .src 0)) (fun t => (t.op? 7 0).any (·.ended == some 0x0A) &&
      (t.siphon 7).lost.length == 1) = true := by decide +kernel

theorem test_failed_queue_transfers :
    gives (.fabricResponse 7 1 1 (List.replicate 256 0)) (onTag1 (withQueue { ringEnd with batch := some { batch with left := 2 } }) (.fetch 7 1 64))
      (fun t => (t.queue 7).state == .error && (t.queue 7).cause == 10 && (t.queue 7).errIndex == 0x1F) = true ∧
    gives (.fabricResponse 7 1 2 (List.replicate 256 0)) (onTag1 pair (.record 7 0)) (fun t => (t.queue 7).state == .error &&
      (t.queue 7).cause == 11 && (t.queue 7).errIndex == 0) = true ∧
    gives (.fabricResponse 7 1 2 (List.replicate 256 0)) (onTag1 pair (.headWb 7)) (fun t => (t.siphon 7).errors == 1 &&
      (t.siphon 7).dropped == 1) = true ∧
    gives (.fabricResponse 7 1 0 (List.replicate 256 0)) { pair with siphons := [(7, { heldOff with offered := some 1, out := [(1, headXfer)] })] }
      (fun t => (t.siphon 7).stray == 1 && (t.siphon 7).out.length == 1) = true ∧
    gives (.fabricTimeout 7 1) (onTag1 pair (.headWb 7)) (fun t => (t.siphon 7).dropped == 1 && (t.siphon 7).lost.length == 1) = true := by
  decide +kernel

/-- A mark of the group that is not complete, with a skew recorded. -/
def skewed : State := pair.updGroup 3 fun x => { x with marking := some {}, skewValid := true }

theorem test_skewed_mark_stops : skewed.skewStops 3 {} = true ∧ (skewed.group 3).marking = some {} ∧
    gives (.stepMark 3) skewed (fun t => (t.group 3).haltCause == 6 && (t.group 3).step == 0) = true := by decide +kernel

theorem test_refused_signal : gives (.remoteSignal { sig 0 with counter := 6 }) (counting pair 1) (fun t => t.sync.refused &&
      t.sync.refReason == 1 && t.sync.refCounter == 6) = true ∧ (pair.group 3).ranOut com = false ∧
    (pair.group 3).ranOut { com with run := 1 } = true := by decide +kernel

theorem test_signal_is_sent_again : ({ pair with ops := [signalling] } : State).mayTradeIn signalling.desc.group = true ∧
    signalling.ended = none ∧ gives (.busyResend 7 0) { pair with ops := [signalling], links := [(4, { state := .up })] } (fun t =>
      t.links != [(4, { state := .up })]) = true := by decide +kernel

theorem test_tally_record : gives (.tallyLoss .stalled) ticking (fun t => (tabGet (fun _ => {}) t.warden.log 0).type == 0x13 &&
    (tabGet (fun _ => {}) t.warden.log 0).s0 == 1) = true := by decide +kernel

theorem test_judged_pumps : pair.judging = false ∧ pair.ratedOut 5 0 = false ∧ (pair.groupPumps 3 = [0]) ∧
    gives (.faultReport (bad0 true)) { pair with warden := { autoFence := false } } (fun t =>
      (tabGet (fun _ => {}) t.warden.log 0).verdict == 2 && (tabGet (fun _ => {}) t.warden.log 0).action == 0 && t.warden.fenced == []) =
      true ∧
    gives (.faultReport (bad0 true)) { pair with groups := pair.groups.map fun x => (x.1, { x.2 with gr := { x.2.gr with pumpMask := 3 } }) }
      (fun t => (tabGet (fun _ => {}) t.warden.log 0).action == 4 && t.warden.spareIn == some 0) = true ∧
    gives (.faultReport { bad0 true with rep := ⟨false, false, false, true⟩ }) { pair with warden := { vstepMax := 1 } } (fun t =>
      (tabGet (fun _ => {}) t.warden.log 0).verdict == 3 && (tabGet (fun _ => {}) t.warden.log 0).action == 3 && t.warden.vsteps == 1) =
      true ∧
    gives (.faultReport { bad0 true with rep := ⟨false, false, false, true⟩ }) { pair with warden := { vstepMax := 0 } } (fun t =>
      (tabGet (fun _ => {}) t.warden.log 0).action == 0 && t.warden.vsteps == 0) = true := by decide +kernel

theorem test_request : surgeDue.warden.surging = false ∧
    gives (.request own true) { surgeDue with warden := { surgeDue.warden with request := false, drawValid := false } } (fun t =>
      t.warden.request && t.warden.drawValid && t.surgeReady) = true := by decide +kernel

theorem test_basic_bound : attemptBound 0 .basic = 5000000 ∧ attemptBound 4 .basic = 20000000 ∧
    gives (.trainAttemptFail 4) { port4 { state := .basic, attemptAt := 3000000 } with now := 23000000 } (fun t =>
      (t.link 4).attempts == 1) = true := by decide +kernel

theorem test_kept_flits_go_again : gives (.nack 4 3 4) (port4 { state := .up, kept := [kept4] }) (fun t =>
    (t.link 4).line == [kept4] && (t.link 4).again == []) = true := by decide +kernel

theorem test_status_is_forced : gives (.status 4 3 [0, 0, 0, 0] 4) (port4 { state := .up, slots := 63, kept := [kept4], again := [kept4] }) (fun t =>
    t != port4 { state := .up, slots := 63, kept := [kept4], again := [kept4] }) = true := by decide +kernel

theorem test_waiters_stay : (∀ y ∈ parked.ops, y.desc.opcode ≠ 0x07) ∧ (∀ w ∈ parked.sync.waiters, w.q = 7 ∧ w.c = 0) ∧
    gives (.syncValueWrite own 6 2) parked (fun t => t.op? 7 0 == parked.op? 7 0) = true := by decide +kernel

/-- The pair at the commit point of a mark: the state of die 10's entry, the mark, and the members that die 10's token counts. -/
def atMark (state : Nat) (m : MarkSt) (count : Nat) : State :=
  { pair with
    groups := [(3, { gr := groupRec, full := true, marking := some m, toks := [(0, { tok with opcode := 0x0E, count })] })]
    members := [(0, { dieAddr := 9, stage := 1, state := 1 }), (1, { dieAddr := 10, stage := 1, state, rank := b1 (state != 2) })] }

/-- A mark whose weir has carried a change of die 10. -/
def carrying (state : Nat) : MarkSt := { complete := true, pend := [⟨1, 10, state, 0⟩] }

/-- The same with an image staged whose hash the mark has not carried. -/
def deferring : State :=
  { atMark 1 { complete := true } 1 with
    img := { active := pair.img.active, staged := some { anchor := 3, hash := 5 }, loader := .staged } }

theorem test_membership_changes : (atMark 3 (carrying 3) 0).change 3 (carrying 3) = .apply 1 ∧
    (((atMark 3 (carrying 3) 0).settled 3 (carrying 3)).map (·.1)).Nodup ∧ (carrying 3).carried ((atMark 3 (carrying 3) 0).member 1) = true ∧
    (atMark 2 (carrying 2) 1).change 3 (carrying 2) = .apply 2 ∧
    (atMark 2 (carrying 2) 1).tookPart 3 (carrying 2) 1 ((atMark 2 (carrying 2) 1).member 1) = true ∧
    (atMark 3 (carrying 3) 0).stepSettled 3 = true ∧ (atMark 3 (carrying 3) 0).ownAdmit 3 = false ∧
    gives (.stepMark 3) (atMark 3 (carrying 3) 0) (fun t => (t.member 1).state == 5 && (t.member 0).state == 1 && (t.gr 3).memberCount == 1 &&
      (t.group 3).rebalance && (t.group 3).step == 1) = true ∧
    gives (.stepMark 3) (atMark 2 (carrying 2) 1) (fun t => (t.member 1).state == 1 && (t.gr 3).memberCount == 2) = true := by decide +kernel

theorem test_membership_stays : (atMark 3 { carrying 3 with agree0 := false } 0).change 3 { carrying 3 with agree0 := false } = .disagree ∧
    gives (.stepMark 3) (atMark 3 { carrying 3 with agree0 := false } 0) (fun t => (t.group 3).memberDisagree && (t.member 1).state == 3 &&
      (t.group 3).step == 1) = true ∧
    ((atMark 3 (carrying 3) 0).updGroup 3 fun x => { x with gr := { x.gr with minMembers := 2 } }).change 3 (carrying 3) = .below ∧
    gives (.stepMark 3) ((atMark 3 (carrying 3) 0).updGroup 3 fun x => { x with gr := { x.gr with minMembers := 2 } }) (fun t =>
      (t.group 3).haltCause == 4 && (t.member 1).state == 3 && (t.group 3).step == 0) = true := by decide +kernel

theorem test_deferral : deferring.change 3 { complete := true } = .keep ∧ deferring.allParked { anchor := 3, hash := 5 } 3 = true ∧
    gives (.stepMark 3) deferring (fun t => t.img == { deferring.img with deferrals := 1, hashMismatch := true } &&
      (t.group 3).step == 1) = true := by decide +kernel

/-- The pair with the spare pump fenced and two pumps for the group. -/
def spareless : State :=
  { pair with groups := [(3, { gr := { groupRec with pumpMask := 3 }, full := true })], warden := { fenced := [16], vengMv := 750 } }

theorem test_fencing_with_groups : spareless.groupPumps 3 = [0, 1] ∧ (fencePump spareless 0).1.warden.fenced = [16, 0] ∧
    ((fencePump spareless 0).1.group 3).halted = false ∧ (fencePump spareless 0).2 = [4] ∧
    (fencePump pair 0).1.warden.spareIn = some 0 ∧ ((fencePump pair 0).1.group 3).halted = false ∧
    ((fencePump { spareless with groups := pair.groups } 0).1.group 3).haltCause = 8 ∧
    (fencePump { spareless with groups := pair.groups } 0).2 = [4, 5] ∧ (3, pair.group 3) ∈ pair.groups ∧ pair.groupPumps 3 = [0] ∧
    (fencePump { pair with warden := { test := .waiting, surge := .on, vengMv := 750 } } 0).1.warden.testDrains = true ∧
    (fencePump { pair with warden := { test := .waiting, surge := .on, vengMv := 750 } } 0).1.warden.surging = false := by decide +kernel

theorem test_late_launches : gives (.launchAtCount 7) (waiting 101) (fun t => t.tally.lates == 1 && t.tally.lateQueue == 7 &&
      t.tally.lateBy == 1) = true ∧
    gives (.launchAtCount 7) (waiting 100) (fun t => t.tally.lates == 0) = true ∧
    gives (.launchAtCount 7) { waiting 101 with sluice := { counting := [(7, 0)] } } (fun t => t.tally.lates == 0) = true ∧
    (noteCounting (waiting 100)).sluice.counting = [(7, 0)] ∧ (noteCounting (waiting 101)).sluice.counting = [] := by decide +kernel

theorem test_refusal_puts_error : (pair.queue 7).cause = 0 ∧ (pair.queue 7).state = .running ∧
    gives (.signalAck ⟨10, com, 3, 77⟩) { pair with ops := [signalling] } (fun t => (t.queue 7).state == .error &&
      (t.queue 7).cause == 8 && (t.queue 7).errIndex == 0 && !(t.queue 7).enable) = true := by decide +kernel

/-- A parcel of 64 bytes that waits for its entry. -/
def early1 : Parcel := ⟨10, { hdr with crc := 7 }, List.replicate 64 0, [], []⟩

/-- The pair with that parcel. -/
def holdingEarly : State := pair.updGroup 3 fun x => { x with early := [early1] }

theorem test_lost_parcel : holdingEarly.wordOwner 0 0 = some (.parcel early1) ∧ holdingEarly.wordOwner 0 16 = none ∧
    gives (.scrubPass [⟨0, 0, [1, 2]⟩]) holdingEarly (fun t => (t.group 3).early == [] && !(t.group 3).halted) = true := by decide +kernel

theorem test_training_lane : ({ ready := 6 } : LinkSt).lowest = [1] ∧ ({ ready := 6, state := .train } : LinkSt).lanes = [1] ∧
    gives (.flit ⟨4, 0⟩ 0x20 zeros) (port4 { state := .train, goodTrain := 3, ready := 2 }) (fun t => (t.link 4).goodTrain == 3) = true := by
  decide +kernel

end Sys2Proof.Tests
end

section
/-! PROOFS. The gate of the management port (00 R16, R17; 02 R85, R95; 13 R498) and the owner's writes of registers
(00 R11): every write is one `ownerWrite`, every read one `mgmtRead`, and the statements follow from what these two leave. -/

namespace Sys2Proof.Machine

/-! ### What freezing an agent does -/

/-- An agent that neither is frozen nor owns the engine: freezing it writes its cause, and nothing else. -/
theorem freezeAgent_stranger {s : State} {a : Nat} (cause : Nat) (thawed : s.isFrozen a = false) (n : s.owns a = false) :
    freezeAgent s a cause = s.updKeeper fun k => { k with causes := tabSet (fun _ => 0) k.causes a cause } := by
  simp [freezeAgent, thawed, n]

/-- What a foreign write leaves: the answer of log entry 4, one more free value taken, and the cause 1 of its agent. -/
theorem foreignWrite_eq {s : State} {m : Mgmt} (thawed : s.isFrozen m.agent = false) (n : s.owns m.agent = false) :
    foreignWrite s m = State.answered
      { s with fresh := s.fresh + 1, keeper := { s.keeper with causes := tabSet (fun _ => 0) s.keeper.causes m.agent 1 } }
      m (if Config.frozenAnswer s.fresh then 2 else 1) 0 := by
  have frozen : freezeAgent { s with fresh := s.fresh + 1 } m.agent causeWrite = _ := freezeAgent_stranger causeWrite thawed n
  rw [foreignWrite, frozen]
  rfl

/-! ### Every access is one of two forms -/

/-- A write of the window goes through the gate of writes, whatever register its offset names. -/
theorem writeRegister_form (s : State) (m : Mgmt) (off : BitVec 21) (d : W64) :
    ∃ f, writeRegister s m off d = ownerWrite s m f := by
  unfold writeRegister
  split <;> exact ⟨_, rfl⟩

/-- A command of the port that writes is a write through the gate of writes. -/
theorem exec_write_form {i : Instr} {m : Mgmt} (s : State) (h : Instr.requester i = some m) (w : Instr.writes i = true) :
    ∃ f, exec i s = finish s (ownerWrite s m f) := by
  cases i
  case registerWrite | writeWithoutOwnership =>
    cases h
    obtain ⟨f, e⟩ := writeRegister_form s m _ _
    exact ⟨f, congrArg (finish s) e⟩
  case keeperClaim | rcRead => cases w
  case load | discard | start | warmReset | keeperLease | keeperHandover | keeperFreeze | keeperThaw | memberEntryWrite | enable
      | queueDisable | cancel | kick | queueHead | resume | flush | cacheWindowWrite | groupResume | groupHalt | dump
      | syncValueWrite | force | twinCtrlWrite | go | paceWrite | baseMvWrite | clearRelief | request | restore | retrain
      | linkEnWrite =>
    cases h
    exact ⟨_, rfl⟩
  all_goals cases h

/-- A claim takes no free value and freezes nobody. -/
theorem claim_keeps_causes (s : State) (a : Nat) :
    (claim s a).keeper.causes = s.keeper.causes ∧ (claim s a).fresh = s.fresh := by
  unfold claim
  split
  case h_1 | h_3 => exact ⟨rfl, rfl⟩
  case h_2 | h_4 => split <;> exact ⟨rfl, rfl⟩

/-- Clearing RC fields leaves the keeper and the count of free values alone. -/
theorem regClear_keeps_causes (s : State) (r : Reg) :
    (regClear s r).keeper.causes = s.keeper.causes ∧ (regClear s r).fresh = s.fresh := by
  cases r <;> exact ⟨rfl, rfl⟩

/-- A read of KEEPER_CLAIM is a read that makes its claim and shows the keeper after it (log entry 12). -/
theorem readClaim_eq_mgmtRead (s : State) (m : Mgmt) : readClaim s m =
    mgmtRead s m (fun s => BitVec.ofNat 64 (claim s m.agent).keeperState) fun s => claim s m.agent := rfl

/-- A read of the window goes through the gate of reads, and its effect freezes nobody. -/
theorem readRegister_form (s : State) (m : Mgmt) (off : BitVec 21) :
    ∃ v f, readRegister s m off = mgmtRead s m v f ∧ (f s).keeper.causes = s.keeper.causes ∧ (f s).fresh = s.fresh := by
  unfold readRegister
  split
  · exact ⟨_, _, rfl, rfl, rfl⟩
  · exact ⟨_, _, readClaim_eq_mgmtRead s m, claim_keeps_causes s m.agent⟩
  · refine ⟨_, _, rfl, ?_⟩
    split
    · exact regClear_keeps_causes s _
    · exact ⟨rfl, rfl⟩

/-- The commands of the port that do not write are KEEPER_CLAIM and RC_READ. -/
theorem eq_read_of_not_writes {i : Instr} {m : Mgmt} (h : Instr.requester i = some m) (w : Instr.writes i = false) :
    i = .keeperClaim m ∨ ∃ off, i = .rcRead m off := by
  unfold Instr.writes at w
  split at w
  · cases h; exact .inl rfl
  · cases h; exact .inr ⟨_, rfl⟩
  · rw [h] at w; cases w

/-- A command of the port that does not write is a read through the gate of reads, and its effect freezes nobody. -/
theorem exec_read_form {i : Instr} {m : Mgmt} (s : State) (h : Instr.requester i = some m) (w : Instr.writes i = false) :
    ∃ v f, exec i s = finish s (mgmtRead s m v f) ∧ (f s).keeper.causes = s.keeper.causes ∧ (f s).fresh = s.fresh := by
  obtain rfl | ⟨off, rfl⟩ := eq_read_of_not_writes h w
  · exact ⟨_, _, congrArg (finish s) (readClaim_eq_mgmtRead s m), claim_keeps_causes s m.agent⟩
  · obtain ⟨v, f, e, kept⟩ := readRegister_form s m off
    exact ⟨v, f, congrArg (finish s) e, kept⟩

/-! ### The gates -/

theorem finish_answered (s : State) (m : Mgmt) (status : Nat) (data : W64) :
    finish s (State.answered s m status data) = .next (State.answered s m status data) := rfl

theorem mgmtRead_unready {s : State} (m : Mgmt) (v : State → W64) (f : State → State) (h : s.mgmt.portReady = false) :
    mgmtRead s m v f = State.answered s m 1 0 := by simp [mgmtRead, h, respond_eq, respError]

/-- Whatever the gate answers, a read whose effect freezes nobody leaves the causes and the count of free values alone. -/
theorem mgmtRead_keeps_causes {s : State} (m : Mgmt) (v : State → W64) {f : State → State}
    (kept : (f s).keeper.causes = s.keeper.causes ∧ (f s).fresh = s.fresh) :
    (mgmtRead s m v f).keeper.causes = s.keeper.causes ∧ (mgmtRead s m v f).fresh = s.fresh := by
  unfold mgmtRead
  split
  · exact ⟨rfl, rfl⟩
  split
  · exact ⟨rfl, rfl⟩
  · exact kept

/-- 02 R95; 13 R498: until the port is ready every access is answered with ERROR. -/
theorem exec_unready {i : Instr} {m : Mgmt} {s : State} (h : Instr.requester i = some m) (r : s.mgmt.portReady = false) :
    exec i s = .next (State.answered s m 1 0) := by
  cases w : Instr.writes i
  · obtain ⟨v, f, e, -⟩ := exec_read_form s h w
    rw [e, mgmtRead_unready m v f r, finish_answered]
  · obtain ⟨f, e⟩ := exec_write_form s h w
    rw [e, ownerWrite_unready m f r, finish_answered]

/-- 00 R17: what a write leaves that comes from an agent which neither is frozen nor owns the engine. -/
theorem exec_foreign_write {i : Instr} {m : Mgmt} {s : State} (h : Instr.requester i = some m) (w : Instr.writes i = true)
    (r : s.mgmt.portReady = true) (thawed : s.isFrozen m.agent = false) (n : s.owns m.agent = false) :
    exec i s = .next (State.answered
      { s with fresh := s.fresh + 1, keeper := { s.keeper with causes := tabSet (fun _ => 0) s.keeper.causes m.agent 1 } }
      m (if Config.frozenAnswer s.fresh then 2 else 1) 0) := by
  obtain ⟨f, e⟩ := exec_write_form s h w
  rw [e, ownerWrite_foreign f r thawed n, foreignWrite_eq thawed n]
  rfl

/-- 02 R85: a read takes no free value and freezes nobody. -/
theorem exec_read_keeps_causes {i : Instr} {m : Mgmt} (s : State) (h : Instr.requester i = some m)
    (w : Instr.writes i = false) : ∃ t, exec i s = .next t ∧ t.keeper.causes = s.keeper.causes ∧ t.fresh = s.fresh := by
  obtain ⟨v, f, e, kept⟩ := exec_read_form s h w
  exact ⟨_, e, mgmtRead_keeps_causes m v kept⟩

/-- Settles O8: each access is `ownerWrite` or `mgmtRead`, so the gate decides before the command's own effect. -/
theorem accessesAreGated : Obligations.AccessesAreGated := by
  unfold Obligations.AccessesAreGated
  refine ⟨fun i m s h r => exec_unready h r, fun i m s h w r thawed n => ?foreign,
    fun i m s h w => exec_read_keeps_causes s h w, fun m off d s => ⟨fun r thawed n => ?frozen, fun _ => rfl⟩⟩
  case foreign =>
    refine ⟨_, _, ?status, exec_foreign_write h w r thawed n, tabGet_tabSet_same _ _ _ _,
      fun b other => tabGet_tabSet_other _ _ _ other⟩
    split
    · exact .inr rfl
    · exact .inl rfl
  case frozen =>
    have cause : tabGet (fun _ => 0) (tabSet (fun _ => 0) s.keeper.causes m.agent 1) m.agent = 1 := tabGet_tabSet_same _ _ _ _
    exact ⟨_, exec_foreign_write rfl rfl r thawed n, cause, bne_iff_ne.2 (by rw [State.cause, State.answered, cause]; decide)⟩

/-! ### An owner's write of a register -/

theorem writeRegister_eq_mgmtWrite {s : State} {m : Mgmt} {off : BitVec 21} {d : W64} {r : Reg}
    (h : regAt (byteOffset off) = some r) (n : r ≠ .globalCtrl) :
    writeRegister s m off d = mgmtWrite s m fun s => regWrite s m.agent r d := by
  unfold writeRegister
  rw [h]
  split
  next e => exact absurd (Option.some.inj e) n
  next => rfl

/-- 00 R11: an owner's write that has an effect is accepted. -/
theorem exec_registerWrite_accepted {s t : State} {m : Mgmt} {off : BitVec 21} {d : W64} {r : Reg}
    (may : State.MayWrite s m) (h : regAt (byteOffset off) = some r) (n : r ≠ .globalCtrl)
    (e : regWrite s m.agent r d = some t) : exec (.registerWrite m off d) s = .next (State.accepted s m t) := by
  have form : exec (.registerWrite m off d) s = finish s (writeRegister s m off d) := rfl
  rw [form, writeRegister_eq_mgmtWrite h n]
  exact mgmtWrite_accepted may e

/-- 00 R16: an owner's write that has none is answered with ERROR and changes nothing. -/
theorem exec_registerWrite_rejected {s : State} {m : Mgmt} {off : BitVec 21} {d : W64} {r : Reg}
    (may : State.MayWrite s m) (h : regAt (byteOffset off) = some r) (n : r ≠ .globalCtrl)
    (e : regWrite s m.agent r d = none) : exec (.registerWrite m off d) s = .next (State.answered s m 1 0) := by
  have form : exec (.registerWrite m off d) s = finish s (writeRegister s m off d) := rfl
  rw [form, writeRegister_eq_mgmtWrite h n, mgmtWrite_rejected may e, finish_answered]

/-! ### What an accepted write leaves of its effect -/

section
variable (s t : State) (m : Mgmt)

@[simp] theorem State.accepted_num : (State.accepted s m t).num = t.num := by
  unfold State.accepted; split <;> rfl

@[simp] theorem State.accepted_integ : (State.accepted s m t).integ = t.integ := by
  unfold State.accepted; split <;> rfl

@[simp] theorem State.accepted_groups : (State.accepted s m t).groups = t.groups := by
  unfold State.accepted; split <;> rfl

end

theorem regAt_testKey : regAt 0xB00040 = some .testKey := rfl

theorem regRead_testKey (s : State) : regRead s .testKey = s.num.testKey.toNat := rfl

theorem regAt_integStatus : regAt 0xC00000 = some .integStatus := rfl

/-- Settles O20: a register's write is `regWrite` behind the gate, and an accepted write keeps what it made of the registers. -/
theorem ownerWritesTakeEffect : Obligations.OwnerWritesTakeEffect := by
  unfold Obligations.OwnerWritesTakeEffect
  refine fun m off d s may => ⟨fun r h n => ⟨fun t e => exec_registerWrite_accepted may h n e,
    fun e => exec_registerWrite_rejected may h n e⟩, fun h => ?testKey, fun h => ?integStatus⟩
  case testKey =>
    have written := exec_registerWrite_accepted (d := d) may (h ▸ regAt_testKey) (r := .testKey) (by decide) rfl
    exact ⟨_, written, by rw [State.accepted_num], by rw [regRead_testKey, State.accepted_num], by rw [State.accepted_integ],
      by rw [State.accepted_groups]⟩
  case integStatus =>
    have written := exec_registerWrite_accepted (d := d) may (h ▸ regAt_integStatus) (r := .integStatus) (by decide) rfl
    refine ⟨_, written, ?_⟩
    rw [State.accepted_integ]
    exact ⟨rfl, rfl, rfl, rfl, rfl, rfl, rfl, rfl, rfl⟩

end Sys2Proof.Machine
end
section
/-! PROOFS. The records of the warden (11 R414, R418), and the supply voltage (01 R48, R49; 11 R424, R425, R446, R450): what a
record and a change of the target leave, the table of R424, and the steps of VREQ. -/

namespace Sys2Proof.Machine

/-! ### Writes to memory and records -/

/-- A write of bytes only puts transfers at the siphons. -/
theorem enqueueWrite_form (s : State) (cls queue addr : Nat) (data : List Byte) (via : Nat → Nat) (pur : Nat → Purpose) :
    ∃ p, enqueueWrite s cls queue addr data via pur = { s with siphons := p } := by
  unfold enqueueWrite
  refine List.foldlRecOn (motive := fun t : State => ∃ p, t = { s with siphons := p }) _ _ ⟨s.siphons, rfl⟩ ?_
  rintro _ ⟨p, rfl⟩ y _
  exact ⟨_, rfl⟩

theorem writeRecord_form (s : State) (fault : Bool) : ∃ p, writeRecord s fault = { s with siphons := p } := by
  unfold writeRecord
  dsimp only
  split
  · exact ⟨s.siphons, rfl⟩
  · exact enqueueWrite_form s _ _ _ _ _ _

theorem ringRecord_form (s : State) (bs : List Byte) :
    ∃ p ring, ringRecord s true bs = { s with siphons := p, warden := { s.warden with ring } } := by
  unfold ringRecord
  dsimp only
  split
  · obtain ⟨p, written⟩ := writeRecord_form (s.setRecRing true ((s.recRing true).push bs)) true
    exact ⟨p, _, written⟩
  · exact ⟨s.siphons, _, rfl⟩

/-- A record enters the log under the present SEQ; besides, it concerns the ring in memory alone. -/
theorem makeRecord_form (s : State) (r : FaultRecord) : ∃ p ring e, e.type = r.type ∧ makeRecord s r = { s with
    siphons := p
    warden := { s.warden with
      seq := (s.warden.seq + 1) % 65536, log := tabSet (fun _ => {}) s.warden.log (s.warden.seq % 256) e
      newFault := true, ring } } := by
  unfold makeRecord
  dsimp only
  obtain ⟨p, ring, entered⟩ := ringRecord_form (State.updWarden s _) _
  refine ⟨p, ring, _, ?_, entered⟩
  rfl

/-! ### What a change of the target leaves -/

/-- Two states of the warden with the same target, power request and voltage relief (11 R424, R446). -/
structure WardenSt.SameTarget (v w : WardenSt) : Prop where
  baseMv : w.baseMv = v.baseMv
  vsteps : w.vsteps = v.vsteps
  vreqMv : w.vreqMv = v.vreqMv
  cap : w.cap = v.cap
  surging : w.surging = v.surging
  testHold : w.testHold = v.testHold
  wholeStress : w.wholeStress = v.wholeStress

theorem WardenSt.SameTarget.refl (v : WardenSt) : v.SameTarget v := ⟨rfl, rfl, rfl, rfl, rfl, rfl, rfl⟩

theorem WardenSt.SameTarget.trans {u v w : WardenSt} (h : u.SameTarget v) (k : v.SameTarget w) : u.SameTarget w :=
  ⟨k.baseMv.trans h.baseMv, k.vsteps.trans h.vsteps, k.vreqMv.trans h.vreqMv, k.cap.trans h.cap, k.surging.trans h.surging,
    k.testHold.trans h.testHold, k.wholeStress.trans h.wholeStress⟩

theorem WardenSt.SameTarget.plainTarget_eq {v w : WardenSt} (h : v.SameTarget w) : w.plainTarget = v.plainTarget := by
  simp only [WardenSt.plainTarget, WardenSt.baseTarget, h.baseMv, h.vsteps, h.cap, h.surging]

/-- The warden after the rail has been compared with a target: the episode off target begins, goes on or ends (11 R425). -/
def WardenSt.compared (w : WardenSt) (now target : Nat) : WardenSt :=
  if farFrom w.vengMv target ≤ 15 then
    { w with offSince := none, senseRecorded := false, surge := if w.surge == .ramp then .on else w.surge }
  else if w.offSince.isSome && w.offTarget == target then w
  else { w with offSince := some now, offTarget := target, offBy := farFrom w.vengMv target, senseRecorded := false }

theorem refreshVeng_eq (s : State) : refreshVeng s =
    refreshDraw (startWaitingTest { s with warden := s.warden.compared s.now s.vengTarget.1 }) := rfl

/-- RAMP that becomes ON is surge all the same. -/
theorem surging_settle (w : WardenSt) : WardenSt.surging { w with surge := if w.surge == .ramp then .on else w.surge } = w.surging := by
  cases h : w.surge <;> simp [WardenSt.surging, h]

theorem WardenSt.compared_sameTarget (w : WardenSt) (now target : Nat) : w.SameTarget (w.compared now target) := by
  unfold WardenSt.compared
  split
  · exact { WardenSt.SameTarget.refl w with surging := surging_settle w }
  split
  · exact .refl _
  · exact ⟨rfl, rfl, rfl, rfl, rfl, rfl, rfl⟩

theorem startWaitingTest_form (s : State) : ∃ w, startWaitingTest s = { s with warden := w } ∧ s.warden.SameTarget w := by
  unfold startWaitingTest
  dsimp only
  split
  · exact ⟨_, rfl, ⟨rfl, rfl, rfl, rfl, rfl, rfl, rfl⟩⟩
  · exact ⟨_, rfl, .refl _⟩

theorem refreshDraw_form (s : State) : ∃ w, refreshDraw s = { s with warden := w } ∧ s.warden.SameTarget w := by
  unfold refreshDraw
  split
  · exact ⟨_, rfl, .refl _⟩
  · exact ⟨_, rfl, ⟨rfl, rfl, rfl, rfl, rfl, rfl, rfl⟩⟩

/-- What follows a change of the target changes the warden alone, and not the target (11 R425). -/
theorem refreshVeng_form (s : State) : ∃ w, refreshVeng s = { s with warden := w } ∧ s.warden.SameTarget w := by
  obtain ⟨v, started, same⟩ := startWaitingTest_form { s with warden := s.warden.compared s.now s.vengTarget.1 }
  obtain ⟨w, drawn, same'⟩ := refreshDraw_form { s with warden := v }
  exact ⟨w, by rw [refreshVeng_eq, started, drawn], (s.warden.compared_sameTarget _ _).trans (same.trans same')⟩

/-! ### The target (11 R424) -/

/-- Where no whole-engine stress test runs, the target is the table's. -/
theorem vengTarget_unstressed {s : State} (h : s.stressing = false) : s.vengTarget = s.warden.plainTarget := by
  simp [State.vengTarget, h]

theorem stressing_congr {s t : State} (hold : t.warden.testHold = s.warden.testHold)
    (stress : t.warden.wholeStress = s.warden.wholeStress) (ops : t.ops = s.ops) (img : t.img = s.img) :
    t.stressing = s.stressing := by
  simp only [State.stressing, State.started, hold, stress, ops, img]

/-! ### Writes of the voltage and of the pacing (11 R446, R450) -/

theorem writePace_level {s : State} {i : Nat} {d : W64} (h : bits d.toNat 0 4 ≤ 8) :
    writePace s i d = some (s.setPace i { level := bits d.toNat 0 4, steps := 0 }) := if_pos h

theorem writePace_reserved {s : State} {i : Nat} {d : W64} (h : 8 < bits d.toNat 0 4) : writePace s i d = none :=
  if_neg (Nat.not_le.2 h)

theorem baseMvOk_iff (mv : Nat) : baseMvOk mv = true ↔ 600 ≤ mv ∧ mv ≤ 850 ∧ mv % 25 = 0 := by
  simp [baseMvOk, and_assoc]

theorem writeVengCtrl_reserved {s : State} {mv : Nat} (clear : Bool) (h : mv < 600 ∨ 850 < mv ∨ mv % 25 ≠ 0) :
    writeVengCtrl s mv clear = none := by
  have bad : ¬ baseMvOk mv = true := by rw [baseMvOk_iff]; omega
  exact if_neg bad

/-- A voltage that BASE_MV takes stands in it; the steps of the relief stay or go back to 0, and what is asked for stays. -/
theorem writeVengCtrl_form {s : State} {mv : Nat} (clear : Bool) (h : 600 ≤ mv ∧ mv ≤ 850 ∧ mv % 25 = 0) :
    ∃ w, writeVengCtrl s mv clear = some { s with warden := w } ∧
      WardenSt.SameTarget { s.warden with baseMv := mv, vsteps := if clear then 0 else s.warden.vsteps } w := by
  obtain ⟨w, eq, same⟩ := refreshVeng_form
    { s with warden := { s.warden with baseMv := mv, vsteps := if clear then 0 else s.warden.vsteps } }
  have taken : writeVengCtrl s mv clear = some (refreshVeng
      { s with warden := { s.warden with baseMv := mv, vsteps := if clear then 0 else s.warden.vsteps } }) :=
    if_pos ((baseMvOk_iff mv).2 h)
  exact ⟨w, by rw [taken, eq], same⟩

section
variable (s t : State) (m : Mgmt)

@[simp] theorem State.accepted_warden : (State.accepted s m t).warden = t.warden := by
  unfold State.accepted; split <;> rfl

@[simp] theorem State.accepted_img : (State.accepted s m t).img = t.img := by
  unfold State.accepted; split <;> rfl

@[simp] theorem State.accepted_ops : (State.accepted s m t).ops = t.ops := by
  unfold State.accepted; split <;> rfl

end

/-- A write of BASE_MV without relief, surge, cap and stress test gives the target. -/
theorem vengTarget_of_base {t : State} {mv : Nat} (base : t.warden.baseMv = mv) (steps : t.warden.vsteps = 0)
    (calm : t.warden.surging = false) (cold : t.warden.cap = false) (free : t.stressing = false) (top : mv ≤ 850) :
    t.vengTarget = (mv, 0) := by
  simp [vengTarget_unstressed free, WardenSt.plainTarget, WardenSt.baseTarget, base, steps, calm, cold, top]

theorem exec_baseMvWrite_accepted {s : State} {m : Mgmt} {mv : BitVec 10} (may : State.MayWrite s m)
    (h : 600 ≤ mv.toNat ∧ mv.toNat ≤ 850 ∧ mv.toNat % 25 = 0) : ∃ t, exec (.baseMvWrite m mv) s = .next t ∧
      t.warden.baseMv = mv.toNat ∧ t.warden.vsteps = s.warden.vsteps ∧ t.warden.vreqMv = s.warden.vreqMv ∧
      (s.warden.surging = false → s.warden.cap = false → s.stressing = false → s.warden.vsteps = 0 →
        t.vengTarget = (mv.toNat, 0)) := by
  obtain ⟨w, taken, same⟩ := writeVengCtrl_form (s := s) false h
  refine ⟨_, mgmtWrite_accepted may taken, ?_⟩
  rw [State.accepted_warden]
  refine ⟨same.baseMv, same.vsteps, same.vreqMv, fun calm cold free bare => ?_⟩
  have still : (State.accepted s m { s with warden := w }).stressing = s.stressing := by
    refine stressing_congr ?_ ?_ ?_ ?_
    · rw [State.accepted_warden]; exact same.testHold
    · rw [State.accepted_warden]; exact same.wholeStress
    · rw [State.accepted_ops]
    · rw [State.accepted_img]
  refine vengTarget_of_base ?_ ?_ ?_ ?_ (still.trans free) h.2.1 <;> rw [State.accepted_warden]
  · exact same.baseMv
  · exact same.vsteps.trans bare
  · exact same.surging.trans calm
  · exact same.cap.trans cold

theorem exec_clearRelief_accepted {s : State} {m : Mgmt} (may : State.MayWrite s m)
    (h : 600 ≤ s.warden.baseMv ∧ s.warden.baseMv ≤ 850 ∧ s.warden.baseMv % 25 = 0) : ∃ t,
      exec (.clearRelief m) s = .next t ∧ t.warden.vsteps = 0 ∧ t.warden.baseMv = s.warden.baseMv := by
  obtain ⟨w, taken, same⟩ := writeVengCtrl_form (s := s) true h
  refine ⟨_, mgmtWrite_accepted may taken, ?_⟩
  rw [State.accepted_warden]
  exact ⟨same.vsteps, same.baseMv⟩

/-! ### The requests toward the target (01 R48, R49; 12 R484) -/

/-- VREQ may be changed now: 5 µs have passed since it last was. -/
def State.vreqDue (s : State) : Prop := ∀ a, s.warden.vreqAt = some a → a + 5000 ≤ s.now

theorem stepVeng_due {s : State} (due : s.vreqDue) (off : s.warden.vreqMv ≠ s.vengTarget.1) :
    stepVeng s = { s with warden := { s.warden with
      vreqMv := if s.warden.vreqMv < s.vengTarget.1 then min s.vengTarget.1 (s.warden.vreqMv + 25)
        else max s.vengTarget.1 (s.warden.vreqMv - 25)
      vreqAt := some s.now } } := by
  unfold stepVeng
  dsimp only
  cases h : s.warden.vreqAt with
  | none => simp [off, State.updWarden]
  | some a => simp [off, due a h, State.updWarden]

theorem stepVeng_waits {s : State} (h : s.vengTarget.1 = s.warden.vreqMv ∨ ∃ a, s.warden.vreqAt = some a ∧ s.now < a + 5000) :
    stepVeng s = s := by
  unfold stepVeng
  rcases h with there | ⟨a, last, early⟩
  · simp [there]
  · simp [last, Nat.not_le.2 early]

/-! ### A rail that stays off target (11 R425) -/

theorem exec_vengSense_early {s : State} {a : Nat} (h : s.warden.offSince = some a)
    (early : s.now < a + 200 * s.warden.offBy + 100000) : exec .vengSense s = .next s := by
  show finishPlain s _ = _
  simp only [h, decide_eq_false (Nat.not_le.2 early), Bool.false_and, Bool.false_eq_true, if_false]
  rfl

/-- The episode off target is noted as recorded. -/
def senseNoted (s : State) : State := s.updWarden fun w => { w with senseRecorded := true }

theorem exec_vengSense_late {s : State} {a : Nat} (h : s.warden.offSince = some a)
    (late : a + 200 * s.warden.offBy + 100000 ≤ s.now) (first : s.warden.senseRecorded = false) (off : s.settledVeng = false) :
    exec .vengSense s = finishPlain s (engineRecord (senseNoted s) 0x12 s.vengTarget.1 s.warden.vengMv 0 0) := by
  show finishPlain s _ = _
  simp only [h, decide_eq_true late, first, off, Bool.not_false, Bool.and_self, if_true]
  rfl

theorem exec_vengSense_records {s : State} {a : Nat} (h : s.warden.offSince = some a)
    (late : a + 200 * s.warden.offBy + 100000 ≤ s.now) (first : s.warden.senseRecorded = false) (off : s.settledVeng = false) :
    ∃ t, exec .vengSense s = .next t ∧ t.warden.senseRecorded = true ∧
      (tabGet (fun _ => {}) t.warden.log (s.warden.seq % 256)).type = 0x12 ∧ t.ops = s.ops := by
  have run := exec_vengSense_late h late first off
  obtain ⟨p, ring, e, type, made⟩ := makeRecord_form (senseNoted s)
    { type := 0x12, action := 0, unit := 0xFFFF, operation := 0xFF, group := 0xFFFF, count := 0xFFFFFFFF
      s0 := s.vengTarget.1, s1 := s.warden.vengMv, s2 := 0 }
  rw [engineRecord, made] at run
  refine ⟨_, run, rfl, ?_, rfl⟩
  exact (congrArg FaultRecord.type (tabGet_tabSet_same _ _ _ _)).trans type

/-- Settles O51: the writes go through the gate, `refreshVeng` keeps what the target is made of, and the rest is the table of R424 and
the two commands of the rail. -/
theorem voltageFollowsItsTarget : Obligations.VoltageFollowsItsTarget := by
  unfold Obligations.VoltageFollowsItsTarget
  intro s
  refine ⟨fun m i d may => ⟨fun h => ?level, fun h => ?reserved⟩,
    fun m mv may => ⟨fun h => ?offRange, fun lo hi grid => ?base,
      fun lo hi grid => exec_clearRelief_accepted may ⟨lo, hi, grid⟩⟩,
    fun free => ?table, fun due low => ?up, fun due high => ?down,
    fun h => ?still, fun a h => ⟨exec_vengSense_early h, fun late first off => exec_vengSense_records h late first off⟩⟩
  case level => exact mgmtWrite_accepted may (writePace_level h)
  case reserved =>
    show finish s (mgmtWrite s m _) = _
    rw [mgmtWrite_rejected may (writePace_reserved h), finish_answered]
  case offRange =>
    show finish s (mgmtWrite s m _) = _
    rw [mgmtWrite_rejected may (writeVengCtrl_reserved false h), finish_answered]
  case base => exact exec_baseMvWrite_accepted may ⟨lo, hi, grid⟩
  case table => exact vengTarget_unstressed free
  case up =>
    show finishPlain s (stepVeng s) = _
    rw [stepVeng_due due (Nat.ne_of_lt low), if_pos low]
    rfl
  case down =>
    show finishPlain s (stepVeng s) = _
    rw [stepVeng_due due (Nat.ne_of_gt high), if_neg (Nat.lt_asymm high)]
    rfl
  case still =>
    show finishPlain s (stepVeng s) = _
    rw [stepVeng_waits h]
    rfl

end Sys2Proof.Machine
end
section
/-! PROOFS. Fencing a pump (01 R40, R41; 11 R427): the statement about it ranges over every state, also over one in which the spare
stands in for a pump that has not been fenced. -/

namespace Sys2Proof.Machine

/-- The spare stands in for pump 0, which is not fenced and is the whole allocation of group 0. No command leads here: `fencePump` alone
sets `spareIn`, to a pump that it fences. -/
def spareBeforeFence : State :=
  { groups := [(0, { gr := { valid := true, pumpMask := 1 } })], warden := { spareIn := some 0 } }

theorem spareBeforeFence_hypotheses : (0, spareBeforeFence.group 0) ∈ spareBeforeFence.groups ∧
    (spareBeforeFence.gr 0).valid = true ∧ (spareBeforeFence.group 0).halted = false ∧ (spareBeforeFence.gr 0).pumpMask ≠ 0 ∧
    spareBeforeFence.groupPumps 0 = [0] := by decide

/-- Fencing pump 0 there leaves it running, by the spare that stands in for it already: no group is left without a pump. -/
theorem fencePump_spareBeforeFence : (fencePump spareBeforeFence 0).2 = [4] := by decide

/-- Refutes O49: in `spareBeforeFence` the spare is not free and pump 0 is the last of group 0, but once fenced it is a pump that the
spare stands in for, so the group does not halt with NO_PUMP. The statement lacks that `spareIn` names a fenced pump. -/
theorem not_fencingAndWithdrawals : ¬ Obligations.FencingAndWithdrawals := by
  unfold Obligations.FencingAndWithdrawals
  intro h
  obtain ⟨-, lastPump, -⟩ := h spareBeforeFence
  obtain ⟨listed, valid, runs, allocated, last⟩ := spareBeforeFence_hypotheses
  obtain ⟨t, fenced, -⟩ := lastPump 0 0 (by decide) (by decide) (.inl (by decide)) listed valid runs allocated last
  have acts : [4] = [4, 5] := by rw [← fencePump_spareBeforeFence, fenced]
  exact absurd acts (by decide)

end Sys2Proof.Machine
end
section
/-! PROOFS. The commit point of a mark (01 R24, R41): the statement about it ranges over every table of groups, also over one that lists
a group twice, where the pumps of a group are looked for in each listed record. -/

namespace Sys2Proof.Machine

/-- Group 0 at its completed resume mark, with an allocation of no pump, listed before a second record of the same number with an
allocation of pump 0. The table is not in the form that every write keeps (`tabWf`). -/
def twiceListed : State :=
  { groups := [(0, { gr := { valid := true }, halted := true, marking := some { resume := true, complete := true } }),
      (0, { gr := { valid := true, pumpMask := 1 } })] }

theorem twiceListed_not_wf : tabWf (fun _ => {}) twiceListed.groups = false := by decide

theorem twiceListed_hypotheses : (twiceListed.group 0).marking = some { resume := true, complete := true } ∧
    (twiceListed.gr 0).valid = true ∧ twiceListed.img.staged = none ∧
    twiceListed.change 0 { resume := true, complete := true } = .keep ∧ twiceListed.ownAdmit 0 = false ∧
    (twiceListed.group 0).toks = [] ∧ (twiceListed.gr 0).pumpMask = 0 := by decide

/-- The commit point ends the halt, but the second record shows a running group with an allocation, and the allocation of group 0 has no
pump: the group halts again. -/
theorem commitMark_twiceListed : ((commitMark twiceListed 0).group 0).halted = true := by decide

/-- STEP_MARK leaves the groups as the commit point leaves them. -/
theorem exec_stepMark_groups {g : Fin 4096} {s t : State} (h : exec (.stepMark g) s = .next t) :
    t.groups = (commitMark s g).groups := by
  have run : exec (.stepMark g) s = .next (State.plain s (noteDrain s (commitMark s g))) := rfl
  obtain rfl := Host.Outcome.next.inj (run.symm.trans h)
  show (noteDrain s (commitMark s g)).groups = _
  unfold noteDrain
  split
  · rfl
  · obtain ⟨w, drained, -⟩ := refreshVeng_form (commitMark s g)
    rw [drained]

/-- Refutes O37: at the resume mark of `twiceListed` the halt does not end, since the halt of groups without a pump reads the allocation
in each listed record. The statement lacks that the table of groups lists a group once. -/
theorem not_stepMarkAdvancesTheStep : ¬ Obligations.StepMarkAdvancesTheStep := by
  unfold Obligations.StepMarkAdvancesTheStep
  intro h
  obtain ⟨marking, valid, unstaged, keep, present, quiet, free⟩ := twiceListed_hypotheses
  obtain ⟨-, -, commits, -⟩ := h 0 twiceListed _ marking
  obtain ⟨-, resumes⟩ := commits rfl rfl valid unstaged keep present
  obtain ⟨t, run, -, -, running, -⟩ := resumes rfl quiet (.inl free)
  have halts : (t.group 0).halted = true := by
    rw [State.group, exec_stepMark_groups run]
    exact commitMark_twiceListed
  exact Bool.noConfusion (halts.symm.trans running)

end Sys2Proof.Machine
end
section
/-! PROOFS. The scrubber (01 R34, R35; 11 R427): a pass as its upset words one after the other, and what each of them leaves. -/

namespace Sys2Proof.Machine

/-! ### What a message that is sent leaves -/

theorem giveCredit_form (s : State) (n vc k : Nat) : ∃ l, giveCredit s n vc k = { s with links := l } := by
  unfold giveCredit
  split
  · exact ⟨s.links, rfl⟩
  · exact ⟨_, rfl⟩

theorem creditsBack_form (s : State) (old new : LinkSt) : ∃ l, creditsBack s old new = { s with links := l } := by
  unfold creditsBack
  refine List.foldlRecOn (motive := fun t : State => ∃ l, t = { s with links := l }) _ _ ⟨s.links, rfl⟩ ?_
  rintro _ ⟨l, rfl⟩ y _
  exact giveCredit_form { s with links := l } y.1 y.2 _

theorem drainPort_form (s : State) (n : Nat) : ∃ l, drainPort s n = { s with links := l } :=
  creditsBack_form (s.setLink n _) _ _

/-- A message to a die concerns the link ports alone. -/
theorem sendTo_form (s : State) (dest : Nat) (b : Body) : ∃ l, sendTo s dest b = { s with links := l } := by
  unfold sendTo sendMsg
  split
  · exact ⟨s.links, rfl⟩
  split
  · exact drainPort_form (s.updLink _ _) _
  · exact ⟨_, rfl⟩

theorem sendAll_form (s : State) (dests : List Nat) (b : Body) : ∃ l, sendAll s dests b = { s with links := l } := by
  unfold sendAll
  refine List.foldlRecOn (motive := fun t : State => ∃ l, t = { s with links := l }) _ _ ⟨s.links, rfl⟩ ?_
  rintro _ ⟨l, rfl⟩ d _
  exact sendTo_form { s with links := l } d b

theorem answerParcel_form (s : State) (p : Parcel) (nack : Bool) (reason : Nat) :
    ∃ l, answerParcel s p nack reason = { s with links := l } := sendTo_form s _ _

/-! ### Groups after an update -/

theorem State.group_updGroup_same (s : State) (g : Nat) (f : GroupSt → GroupSt) : (s.updGroup g f).group g = f (s.group g) :=
  State.group_setGroup s g _

theorem State.group_updGroup_other (s : State) {g h : Nat} (f : GroupSt → GroupSt) (e : h ≠ g) :
    (s.updGroup g f).group h = s.group h := State.group_setGroup_other s _ e

/-- A fact that an update of a group keeps holds of every group afterwards. -/
theorem State.group_updGroup_keeps {β : Type} {s : State} {g : Nat} {f : GroupSt → GroupSt} {p : GroupSt → β}
    (keep : p (f (s.group g)) = p (s.group g)) (h : Nat) : p ((s.updGroup g f).group h) = p (s.group h) := by
  by_cases e : h = g
  · rw [e, State.group_updGroup_same, keep]
  · rw [State.group_updGroup_other s f e]

/-! ### A pass -/

/-- Where no group is owed a resume mark, none is raised. -/
theorem raiseDue_of_none {s : State} (h : ∀ g, (s.group g).resumeDue = false) : raiseDue s = s := by
  unfold raiseDue
  refine List.foldlRecOn (motive := fun t => t = s) _ _ rfl ?_
  rintro _ rfl g _
  simp [h g]

/-- The state in which a pass over some upset words reads them: its draw is counted, and of the words that it does not find upset only
those found stuck are remembered. -/
def startPass (s : State) (ups : List Upset) : State := { s with
  num := { s.num with draws := tabSet (fun _ => 0) s.num.draws 2 (tabGet (fun _ => 0) s.num.draws 2 + 1) }
  warden := { s.warden with
    stuck := s.warden.stuck.filter fun y => y.stuck || ups.any fun u => u.bank.val == y.bank && u.word == y.word } }

theorem scrub_none (s : State) : scrub s [] = startPass s [] := rfl

theorem scrub_one (s : State) (u : Upset) : scrub s [u] = scrubWord (startPass s [u]) s.warden.stuck u := rfl

/-- SCRUB_PASS where no resume mark is owed. -/
theorem exec_scrubPass {s : State} {ups : List Upset} (wf : ups.all Upset.wf = true)
    (h : ∀ g, ((scrub s ups).group g).resumeDue = false) : exec (.scrubPass ups) s = .next (State.plain s (scrub s ups)) := by
  show checked _ _ (finishPlain s (raiseDue (scrub s ups))) = _
  rw [wf, checked_true, raiseDue_of_none h, finishPlain_eq]

/-! ### One upset word -/

/-- The state after a single flipped bit has been corrected, counted and noted. -/
def corrected (s : State) (u : Upset) (k : Nat) (stuck : Bool) : State := s.updWarden fun w => { w with
  eccCount := w.eccCount + 1
  stuck := (w.stuck.filter fun y => !(y.bank == u.bank.val && y.word == u.word)) ++ [⟨u.bank, u.word, k, stuck⟩] }

/-- 11 R427: a bit that no earlier pass noted. -/
theorem scrubWord_first {s : State} {seen : List StuckWord} {u : Upset} {k : Nat} (bits : u.bits = [k])
    (new : seen.find? (fun y => y.bank == u.bank.val && y.word == u.word) = none) :
    scrubWord s seen u = corrected s u k false := by
  unfold scrubWord
  simp only [bits, new]
  rfl

/-- 11 R427: the same bit again makes the word stuck, and is recorded. -/
theorem scrubWord_again {s : State} {seen : List StuckWord} {u : Upset} {k : Nat} (bits : u.bits = [k])
    (noted : seen.find? (fun y => y.bank == u.bank.val && y.word == u.word) = some ⟨u.bank, u.word, k, false⟩)
    (manual : s.warden.autoFence = false) : ∃ full n,
      scrubWord s seen u = scrubRecord (corrected s u k true) 0x02 0 0 full u.bank 0xFFFF u.word k n := by
  unfold scrubWord
  simp only [bits, noted, Option.any_some, beq_self_eq_true, Bool.or_true, Bool.not_false, Bool.and_self, if_true,
    State.updWarden_warden, manual, Bool.and_false, Bool.false_eq_true, if_false]
  exact ⟨_, _, rfl⟩

/-- 01 R34: two flipped bits lose the word, and the loss is recorded. -/
theorem scrubWord_lost {s : State} {u : Upset} (seen : List StuckWord) (bits : 2 ≤ u.bits.length) : ∃ act syn,
    scrubWord s seen u = scrubRecord (wordLost s u.bank u.word).1 0x01 vNotRepeatable act false u.bank
      (wordLost s u.bank u.word).2.1 u.word syn 0 := by
  unfold scrubWord
  split
  next none => simp [none] at bits
  next one => simp [one] at bits
  next => exact ⟨_, _, rfl⟩

/-- What a record of the scrubber leaves. -/
theorem scrubRecord_form (s : State) (type verdict action : Nat) (capped : Bool) (bank g s0 s1 s2 : Nat) :
    ∃ p ring e, e.type = type ∧ scrubRecord s type verdict action capped bank g s0 s1 s2 = { s with
      siphons := p
      warden := { s.warden with
        seq := (s.warden.seq + 1) % 65536, log := tabSet (fun _ => {}) s.warden.log (s.warden.seq % 256) e
        newFault := true, ring } } :=
  makeRecord_form s
    { type, verdict, action, capped, unit := 0x300 + bank, operation := 0xF2, group := g
      step := if (s.gr g).valid then (s.group g).stepNow.1 else 0, count := 0xFFFFFFFF, s0, s1, s2 }

/-- A parcel that waited for its entry is there no longer. -/
def dropParcel (s : State) (p : Parcel) : State := s.updGroup p.h.group fun x => { x with early := x.early.erase p }

/-- 01 R34: a parcel that waits for its entry goes with its word, and is answered with a NACK. -/
theorem wordLost_parcel {s : State} {bank word : Nat} {r : CisternRec} {p : Parcel}
    (here : (s.image.cisterns.find? fun r => r.baseBank ≤ bank && decide (bank < r.baseBank + r.banks)) = some r)
    (working : r.kind = 0) (owner : s.wordOwner bank word = some (.parcel p)) :
    (wordLost s bank word).1 = answerParcel (dropParcel s p) p true 0 := by
  unfold wordLost
  simp [here, working, owner, dropParcel]

/-! ### The statement -/

theorem find?_at_place {pre post : List StuckWord} {u : Upset} {x : StuckWord} (at_ : x.bank = u.bank.val ∧ x.word = u.word)
    (before : ∀ y ∈ pre, ¬ (y.bank = u.bank.val ∧ y.word = u.word)) :
    (pre ++ x :: post).find? (fun y => y.bank == u.bank.val && y.word == u.word) = some x := by
  have absent : pre.find? (fun y => y.bank == u.bank.val && y.word == u.word) = none := by
    rw [List.find?_eq_none]
    intro y h
    simpa using before y h
  simp [List.find?_append, absent, at_.1, at_.2]

theorem scrub_clean {s : State} (owed : ∀ g, (s.group g).resumeDue = false) : exec (.scrubPass []) s = .next { s with
    num := { s.num with draws := tabSet (fun _ => 0) s.num.draws 2 (tabGet (fun _ => 0) s.num.draws 2 + 1) }
    warden := { s.warden with stuck := s.warden.stuck.filter (·.stuck) } } := by
  have forgets : ∀ y : StuckWord, (y.stuck || [].any fun u : Upset => u.bank.val == y.bank && u.word == y.word) = y.stuck :=
    fun y => Bool.or_false _
  have run := exec_scrubPass (s := s) (ups := []) rfl owed
  rw [scrub_none, startPass] at run
  simp only [forgets] at run
  exact run

theorem scrub_corrects {s : State} {u : Upset} {k : Nat} (owed : ∀ g, (s.group g).resumeDue = false) (wf : u.wf = true)
    (bits : u.bits = [k]) (new : ∀ y ∈ s.warden.stuck, ¬ (y.bank = u.bank.val ∧ y.word = u.word)) :
    ∃ t, exec (.scrubPass [u]) s = .next t ∧ t.warden.eccCount = s.warden.eccCount + 1 ∧
      ⟨u.bank, u.word, k, false⟩ ∈ t.warden.stuck ∧ t.warden.log = s.warden.log ∧ t.groups = s.groups ∧ t.ops = s.ops := by
  have unseen : s.warden.stuck.find? (fun y => y.bank == u.bank.val && y.word == u.word) = none := by
    rw [List.find?_eq_none]
    intro y h
    simpa using new y h
  have pass : scrub s [u] = corrected (startPass s [u]) u k false := by rw [scrub_one, scrubWord_first bits unseen]
  refine ⟨_, exec_scrubPass (by simpa using wf) (by rw [pass]; exact owed), ?_⟩
  rw [pass]
  exact ⟨rfl, List.mem_append_right _ (List.mem_singleton.2 rfl), rfl, rfl, rfl⟩

theorem scrub_finds_stuck {s : State} {u : Upset} {k : Nat} (owed : ∀ g, (s.group g).resumeDue = false) (wf : u.wf = true)
    (bits : u.bits = [k]) (noted : ∃ pre post, s.warden.stuck = pre ++ ⟨u.bank, u.word, k, false⟩ :: post ∧
      ∀ y ∈ pre, ¬ (y.bank = u.bank.val ∧ y.word = u.word)) (manual : s.warden.autoFence = false) :
    ∃ t, exec (.scrubPass [u]) s = .next t ∧
      ⟨u.bank, u.word, k, true⟩ ∈ t.warden.stuck ∧ t.warden.eccCount = s.warden.eccCount + 1 ∧ t.warden.newFault = true ∧
      (tabGet (fun _ => {}) t.warden.log (s.warden.seq % 256)).type = 2 ∧ t.ops = s.ops := by
  obtain ⟨pre, post, split, before⟩ := noted
  have found := split ▸ find?_at_place (post := post) (x := ⟨u.bank, u.word, k, false⟩) ⟨rfl, rfl⟩ before
  obtain ⟨full, n, word⟩ := scrubWord_again (s := startPass s [u]) bits found manual
  obtain ⟨p, ring, e, type, recorded⟩ :=
    scrubRecord_form (corrected (startPass s [u]) u k true) 0x02 0 0 full u.bank 0xFFFF u.word k n
  have pass := (scrub_one s u).trans (word.trans recorded)
  refine ⟨_, exec_scrubPass (by simpa using wf) (by rw [pass]; exact owed), ?_⟩
  rw [pass]
  exact ⟨List.mem_append_right _ (List.mem_singleton.2 rfl), rfl, rfl,
    (congrArg FaultRecord.type (tabGet_tabSet_same _ _ _ _)).trans type, rfl⟩

theorem scrub_loses_parcel {s : State} {u : Upset} {r : CisternRec} {p : Parcel} (owed : ∀ g, (s.group g).resumeDue = false)
    (wf : u.wf = true) (bits : 2 ≤ u.bits.length)
    (here : (s.image.cisterns.find? fun r => r.baseBank ≤ u.bank.val && decide (u.bank.val < r.baseBank + r.banks)) = some r)
    (working : r.kind = 0) (owner : s.wordOwner u.bank u.word = some (.parcel p)) :
    ∃ t, exec (.scrubPass [u]) s = .next t ∧
      (t.group p.h.group).early = (s.group p.h.group).early.erase p ∧ (t.group p.h.group).halted = (s.group p.h.group).halted ∧
      (tabGet (fun _ => {}) t.warden.log (s.warden.seq % 256)).type = 1 ∧ t.ops = s.ops := by
  obtain ⟨l, answered⟩ := answerParcel_form (dropParcel (startPass s [u]) p) p true 0
  have lost : (wordLost (startPass s [u]) u.bank u.word).1 = { dropParcel (startPass s [u]) p with links := l } :=
    (wordLost_parcel (s := startPass s [u]) here working owner).trans answered
  obtain ⟨act, syn, word⟩ := scrubWord_lost (s := startPass s [u]) s.warden.stuck bits
  rw [lost] at word
  obtain ⟨q, ring, e, type, recorded⟩ := scrubRecord_form { dropParcel (startPass s [u]) p with links := l } 0x01 vNotRepeatable
    act false u.bank (wordLost (startPass s [u]) u.bank u.word).2.1 u.word syn 0
  have pass := (scrub_one s u).trans (word.trans recorded)
  have groups : ∀ g, (scrub s [u]).group g = (dropParcel (startPass s [u]) p).group g := by rw [pass]; exact fun _ => rfl
  have due : ∀ g, ((scrub s [u]).group g).resumeDue = false := fun g => by
    rw [groups, dropParcel, State.group_updGroup_keeps (p := GroupSt.resumeDue) rfl]
    exact owed g
  refine ⟨_, exec_scrubPass (by simpa using wf) due, ?_⟩
  have left : (scrub s [u]).group p.h.group = { s.group p.h.group with early := (s.group p.h.group).early.erase p } :=
    (groups _).trans (State.group_updGroup_same _ _ _)
  have early := congrArg GroupSt.early left
  have halted := congrArg GroupSt.halted left
  refine ⟨early, halted, ?_⟩
  rw [pass]
  exact ⟨(congrArg FaultRecord.type (tabGet_tabSet_same _ _ _ _)).trans type, rfl⟩

/-- Settles O34: a pass is its upset words one after the other, and each clause is one kind of word. -/
theorem scrubberCorrectsAndWatches : Obligations.ScrubberCorrectsAndWatches := by
  unfold Obligations.ScrubberCorrectsAndWatches
  exact fun s u k owed => ⟨scrub_clean owed, scrub_corrects owed, scrub_finds_stuck owed,
    fun r p wf bits here working owner => scrub_loses_parcel owed wf bits here working owner⟩

end Sys2Proof.Machine
end
section
/-! PROOFS. Images that become active (01 R28; 02 R73, R75; 13 R495, R496): what an activation makes of the banks and of the staged
fields, and that nothing of what follows it in START and IMAGE_SWAP touches them again. -/

namespace Sys2Proof.Machine

/-! ### What the steps after an activation keep -/

/-- Two states of a group with the same record and the same staged fields. -/
structure GroupSt.SameStaged (x y : GroupSt) : Prop where
  gr : y.gr = x.gr
  fill : y.fillStaged = x.fillStaged
  replay : y.replayStaged = x.replayStaged

theorem GroupSt.SameStaged.refl (x : GroupSt) : x.SameStaged x := ⟨rfl, rfl, rfl⟩

theorem GroupSt.SameStaged.trans {x y z : GroupSt} (h : x.SameStaged y) (k : y.SameStaged z) : x.SameStaged z :=
  ⟨k.gr.trans h.gr, k.fill.trans h.fill, k.replay.trans h.replay⟩

/-- The banks, the port, the lines of the read cache, and everything that waits for a commit point stay as they are. -/
structure State.KeepsImage (s t : State) : Prop where
  img : t.img = s.img
  mgmt : t.mgmt = s.mgmt
  lines : t.cache.lines = s.cache.lines
  key : t.num.keyStaged = s.num.keyStaged
  rows : t.refiner.rowsStaged = s.refiner.rowsStaged
  scheds : t.refiner.schedsStaged = s.refiner.schedsStaged
  group : ∀ g, (s.group g).SameStaged (t.group g)

/-- The keeper stays as well. -/
structure State.KeepsPhase (s t : State) : Prop extends s.KeepsImage t where
  keeper : t.keeper = s.keeper

theorem State.KeepsImage.trans {s t u : State} (h : s.KeepsImage t) (k : t.KeepsImage u) : s.KeepsImage u :=
  ⟨k.img.trans h.img, k.mgmt.trans h.mgmt, k.lines.trans h.lines, k.key.trans h.key, k.rows.trans h.rows,
    k.scheds.trans h.scheds, fun g => (h.group g).trans (k.group g)⟩

theorem State.KeepsPhase.trans {s t u : State} (h : s.KeepsPhase t) (k : t.KeepsPhase u) : s.KeepsPhase u :=
  ⟨h.toKeepsImage.trans k.toKeepsImage, k.keeper.trans h.keeper⟩

/-- Units that none of this is held in. -/
theorem State.keeps_rest (s : State) (queues : Tab QueueSt) (ops : List Op) (siphons : Tab SiphonSt) (fills : List Fill)
    (sync : SyncSt) (warden : WardenSt) (links : Tab LinkSt) : s.KeepsPhase { s with
      queues, ops, siphons, cache := { s.cache with fills }, sync, warden, links } :=
  ⟨⟨rfl, rfl, rfl, rfl, rfl, rfl, fun _ => .refl _⟩, rfl⟩

theorem State.KeepsPhase.refl (s : State) : s.KeepsPhase s := s.keeps_rest _ _ _ _ _ _ _

theorem State.keeps_updGroup (s : State) (g : Nat) {f : GroupSt → GroupSt} (h : (s.group g).SameStaged (f (s.group g))) :
    s.KeepsPhase (s.updGroup g f) := by
  refine ⟨⟨rfl, rfl, rfl, rfl, rfl, rfl, fun k => ?_⟩, rfl⟩
  by_cases e : k = g
  · rw [e, State.group_updGroup_same]; exact h
  · rw [State.group_updGroup_other s f e]; exact .refl _

theorem State.keeps_foldl {α : Type} {f : State → α → State} (h : ∀ (s : State) a, s.KeepsPhase (f s a)) (l : List α)
    (s : State) : s.KeepsPhase (l.foldl f s) :=
  List.foldlRecOn (motive := fun t => s.KeepsPhase t) l f (.refl s) fun t k a _ => k.trans (h t a)

theorem State.keeps_ite {c : Prop} [Decidable c] {s t u : State} (yes : s.KeepsPhase t) (no : s.KeepsPhase u) :
    s.KeepsPhase (if c then t else u) := by
  split
  · exact yes
  · exact no

/-! ### Records, messages and dumps -/

theorem makeRecord_keeps (s : State) (r : FaultRecord) : s.KeepsPhase (makeRecord s r) := by
  obtain ⟨p, ring, e, -, made⟩ := makeRecord_form s r
  rw [made]
  exact s.keeps_rest _ _ _ _ _ _ _

theorem sendAll_keeps (s : State) (dests : List Nat) (b : Body) : s.KeepsPhase (sendAll s dests b) := by
  obtain ⟨l, sent⟩ := sendAll_form s dests b
  rw [sent]
  exact s.keeps_rest _ _ _ _ _ _ _

theorem writeDump_keeps (s : State) (reason group : Nat) : s.KeepsPhase (writeDump s reason group).1 := by
  unfold writeDump
  split
  · obtain ⟨p, written⟩ := enqueueWrite_form (s.updSync fun y => { y with dumpBusy := true }) 3 257 s.sync.dumpAddr
      (dumpBytes s reason group) siphonOf fun _ => .dump
    rw [written]
    exact s.keeps_rest _ _ _ _ _ _ _
  · exact s.keeps_rest _ _ _ _ _ _ _

/-! ### Early ends and halts -/

theorem refreshTimer_keeps (s : State) (g : Nat) : s.KeepsPhase (refreshTimer s g) :=
  s.keeps_updGroup g (by split <;> exact ⟨rfl, rfl, rfl⟩)

theorem updOp_keeps (s : State) (q c : Nat) (f : Op → Op) : s.KeepsPhase (s.updOp q c f) := s.keeps_rest _ _ _ _ _ _ _

theorem updSync_keeps (s : State) (f : SyncSt → SyncSt) : s.KeepsPhase (s.updSync f) := s.keeps_rest _ _ _ _ _ _ _

theorem updQueue_keeps (s : State) (q : Nat) (f : QueueSt → QueueSt) : s.KeepsPhase (s.updQueue q f) :=
  s.keeps_rest _ _ _ _ _ _ _

theorem dropTransfers_keeps (s : State) (q c : Nat) : s.KeepsPhase (dropTransfers s q c) := s.keeps_rest _ _ _ _ _ _ _

theorem refreshResume_keeps (s : State) (q : Nat) : s.KeepsPhase (refreshResume s q) := s.keeps_rest _ _ _ _ _ _ _

theorem endOp_keeps (s : State) (q c st : Nat) : s.KeepsPhase (endOp s q c st) := by
  unfold endOp
  split
  next => exact .refl s
  next o _ =>
    refine State.keeps_ite (.refl s) ?_
    split
    next => exact updOp_keeps s q c _
    next =>
      have ended : ∀ f h, s.KeepsPhase (((dropTransfers s q c).updSync f).updOp q c h) := fun f h =>
        ((dropTransfers_keeps s q c).trans (updSync_keeps _ f)).trans (updOp_keeps _ q c h)
      refine .trans (State.keeps_ite (.trans ?_ (refreshTimer_keeps _ _)) (ended _ _)) (refreshResume_keeps _ q)
      exact (ended _ _).trans (State.keeps_updGroup _ _ ⟨rfl, rfl, rfl⟩)

theorem endWhere_keeps (s : State) (p : Op → Bool) (st : Op → Nat) : s.KeepsPhase (endWhere s p st) :=
  State.keeps_foldl (fun s (o : Op) => endOp_keeps s o.q o.c (st o)) _ s

theorem haltGroup_keeps (s : State) (g cause : Nat) (st : Op → Nat) : s.KeepsPhase (haltGroup s g cause st) := by
  unfold haltGroup
  refine State.keeps_ite (.refl s) ?_
  refine .trans ?_ (State.keeps_ite (.refl _) (updQueue_keeps _ _ _))
  refine .trans (.trans ?_ (updQueue_keeps _ _ _)) (updQueue_keeps _ _ _)
  refine .trans (.trans ?_ (updSync_keeps _ _)) (endWhere_keeps _ _ _)
  exact s.keeps_updGroup g ⟨rfl, rfl, rfl⟩

theorem sendHalt_keeps (s : State) (g cause : Nat) (missing : List Nat) : s.KeepsPhase (sendHalt s g cause missing) := by
  unfold sendHalt
  split
  · exact sendAll_keeps s _ _
  · exact .refl s

theorem dropHeld_keeps (s : State) (g : Nat) : s.KeepsPhase (dropHeld s g) := s.keeps_rest _ _ _ _ _ _ _

theorem haltNaming_keeps (s : State) (g cause : Nat) (st : Op → Nat) (missing : List Nat) :
    s.KeepsPhase (haltNaming s g cause st missing) := by
  unfold haltNaming
  split
  · exact .refl s
  · exact (haltGroup_keeps s g cause st).trans ((sendHalt_keeps _ _ _ _).trans (dropHeld_keeps _ _))

theorem haltOnFault_keeps (s : State) (g cause : Nat) (st : Op → Nat) : s.KeepsPhase (haltOnFault s g cause st) := by
  unfold haltOnFault
  split
  · exact .refl s
  · exact (haltGroup_keeps s g cause st).trans
      ((sendHalt_keeps _ _ _ _).trans ((writeDump_keeps _ _ _).trans (dropHeld_keeps _ _)))

/-- 01 R41: what a halt of the groups without a pump keeps. -/
theorem haltPumpless_keeps (s : State) (unit : Option Nat) : s.KeepsPhase (haltPumpless s unit).1 :=
  State.keeps_foldl (fun s g => (haltOnFault_keeps s g haltNoPump endHalted).trans (makeRecord_keeps _ _)) _ s

/-! ### The end of a mark -/

theorem latchSchedule_keeps (s : State) (g : Nat) : s.KeepsPhase (latchSchedule s g) := by
  unfold latchSchedule
  exact s.keeps_updGroup g ⟨rfl, rfl, rfl⟩

theorem genMisuse_keeps (s : State) (g : Nat) : s.KeepsPhase (genMisuse s g) :=
  (s.keeps_updGroup g ⟨rfl, rfl, rfl⟩).trans ((State.keeps_rest _ _ _ _ _ _ _ _).trans (haltNaming_keeps _ _ _ _ _))

theorem setCounter_keeps (s : State) (n : Nat) (x : Counter) : s.KeepsPhase (s.setCounter n x) := s.keeps_rest _ _ _ _ _ _ _

theorem leaveAsFound_keeps (s : State) (g : Nat) : s.KeepsPhase (leaveAsFound s g) := by
  unfold leaveAsFound
  refine .trans ?_ (State.keeps_ite (.refl _) ((updSync_keeps _ _).trans (makeRecord_keeps _ _)))
  exact State.keeps_foldl (fun s (n : Nat) => setCounter_keeps s n _) _ s

theorem refreshPhase_form (s : State) : ∃ k, refreshPhase s = { s with keeper := k } := by
  unfold refreshPhase
  dsimp only
  split
  · exact ⟨_, rfl⟩
  · exact ⟨s.keeper, rfl⟩

theorem State.keeps_keeper (s : State) (k : KeeperSt) : s.KeepsImage { s with keeper := k } :=
  ⟨rfl, rfl, rfl, rfl, rfl, rfl, fun _ => .refl _⟩

theorem refreshPhase_keeps (s : State) : s.KeepsImage (refreshPhase s) := by
  obtain ⟨k, eq⟩ := refreshPhase_form s
  rw [eq]
  exact s.keeps_keeper k

theorem afterCommit_keeps (s : State) (g step run : Nat) (resume : Bool) : s.KeepsImage (afterCommit s g step run resume) := by
  unfold afterCommit
  refine .trans ?_ (State.keeps_ite (genMisuse_keeps _ g) (.refl _)).toKeepsImage
  refine .trans (.trans ?_ (latchSchedule_keeps _ g).toKeepsImage) (refreshPhase_keeps _)
  exact ((leaveAsFound_keeps s g).trans (State.keeps_updGroup _ g ⟨rfl, rfl, rfl⟩)).toKeepsImage

theorem endMark_keeps (s : State) (g : Nat) : s.KeepsPhase (endMark s g) := by
  unfold endMark
  split
  · exact (s.keeps_updGroup g ⟨rfl, rfl, rfl⟩).trans (State.keeps_rest _ _ _ _ _ _ _ _)
  · exact .refl s

theorem holdForTest_keeps (s : State) (g : Nat) : s.KeepsPhase (holdForTest s g) := by
  unfold holdForTest
  dsimp only
  split
  · exact s.keeps_rest _ _ _ _ _ _ _
  · exact .refl s

theorem finishMark_keeps (s : State) (g : Nat) (resume : Bool) (step run : Nat) :
    s.KeepsImage (finishMark s g resume step run) :=
  (afterCommit_keeps s g step run resume).trans
    ((endMark_keeps _ g).trans ((holdForTest_keeps _ g).trans (haltPumpless_keeps _ none))).toKeepsImage

theorem updLink_keeps (s : State) (n : Nat) (f : LinkSt → LinkSt) : s.KeepsPhase (s.updLink n f) := s.keeps_rest _ _ _ _ _ _ _

theorem wakePort_keeps (s : State) (n : Nat) : s.KeepsPhase (wakePort s n) := by
  unfold wakePort
  refine .trans ?_ (State.keeps_ite (updLink_keeps _ n _) (.refl _))
  exact State.keeps_ite (updLink_keeps s n _) (.refl s)

theorem wakePorts_keeps (s : State) : s.KeepsPhase (wakePorts s) := State.keeps_foldl wakePort_keeps _ s

theorem noteDrain_keeps (was s : State) : s.KeepsPhase (noteDrain was s) := by
  unfold noteDrain
  split
  · exact .refl s
  · obtain ⟨w, eq, -⟩ := refreshVeng_form s
    rw [eq]
    exact s.keeps_rest _ _ _ _ _ _ _

end Sys2Proof.Machine
end
section
/-! PROOFS. Images that become active: the activation itself (02 R75, R508; 13 R496), then START (02 R73) and IMAGE_SWAP (01 R28). -/

namespace Sys2Proof.Machine

/-! ### The groups under a new image -/

theorem tabGet_of_unlisted {α : Type} (d : Nat → α) {t : Tab α} {k : Nat} (h : k ∉ t.map (·.1)) : tabGet d t k = d k := by
  induction t with
  | nil => rfl
  | cons p t ih =>
    rw [List.map_cons, List.mem_cons, not_or] at h
    rw [tabGet, if_neg (Ne.symm h.1), ih h.2]

/-- The groups that an image does not make valid lose their records. -/
def withoutGone (s : State) (valid : List Nat) : State :=
  ((s.groups.filter fun x => !(valid.contains x.1)).map (·.1)).foldl (fun s g => s.updGroup g groupWithout) s

/-- The groups that an image makes valid take their records. -/
def withRecords (s : State) (old im : Image) (recs : List GroupRec) (full : Bool) : State :=
  recs.foldl (fun s r => s.setGroup r.group (groupUnder old im s r full)) s

/-- The groups and the queues under an image. -/
def regrouped (s : State) (im : Image) : State :=
  let recs := (buildTable im s.me).1
  let t := withRecords (withoutGone s (recs.map (·.group))) s.image im recs (s.img.active.isSome && s.fullReadyIn im)
  (((t.queues.map (·.1)) ++ (im.queues.map (·.queue))).eraseDups).foldl (fun s q => s.updQueue q (queueUnder im q)) t

theorem group_foldl_without_other {g : Nat} {l : List Nat} (h : g ∉ l) (s : State) :
    (l.foldl (fun s g => s.updGroup g groupWithout) s).group g = s.group g := by
  induction l generalizing s with
  | nil => rfl
  | cons a l ih =>
    rw [List.mem_cons, not_or] at h
    rw [List.foldl_cons, ih h.2, State.group_updGroup_other s _ h.1]

theorem gr_foldl_without {g : Nat} {l : List Nat} (h : g ∈ l) (s : State) :
    (l.foldl (fun s g => s.updGroup g groupWithout) s).gr g = {} := by
  induction l generalizing s with
  | nil => cases h
  | cons a l ih =>
    rw [List.foldl_cons]
    by_cases later : g ∈ l
    · exact ih later _
    · obtain rfl : g = a := (List.mem_cons.1 h).resolve_right later
      rw [State.gr, group_foldl_without_other later, State.group_updGroup_same]
      rfl

theorem withoutGone_valid {s : State} {valid : List Nat} {g : Nat} (h : g ∈ valid) :
    (withoutGone s valid).group g = s.group g := by
  refine group_foldl_without_other ?_ s
  simp [h]

theorem withoutGone_gone {s : State} {valid : List Nat} {g : Nat} (h : g ∉ valid) :
    ((withoutGone s valid).gr g).valid = false := by
  by_cases listed : g ∈ (s.groups.filter fun x => !(valid.contains x.1)).map (·.1)
  · rw [withoutGone, gr_foldl_without listed]
  · have unlisted : g ∉ s.groups.map (·.1) := by
      simpa [h] using listed
    rw [withoutGone, State.gr, group_foldl_without_other listed, State.group, tabGet_of_unlisted _ unlisted]

theorem groupUnder_staged (old im : Image) (s : State) (r : GroupRec) (full : Bool) :
    (groupUnder old im s r full).fillStaged = (s.group r.group).fillStaged ∧
      (groupUnder old im s r full).replayStaged = (s.group r.group).replayStaged := by
  unfold groupUnder
  dsimp only
  split <;> split <;> split <;> exact ⟨rfl, rfl⟩

/-- What is staged for a group stays staged under its new record (00 R13; 13 R496). -/
theorem withRecords_staged (s : State) (old im : Image) (recs : List GroupRec) (full : Bool) (g : Nat) :
    ((withRecords s old im recs full).group g).fillStaged = (s.group g).fillStaged ∧
      ((withRecords s old im recs full).group g).replayStaged = (s.group g).replayStaged := by
  refine List.foldlRecOn (motive := fun t : State => (t.group g).fillStaged = (s.group g).fillStaged ∧
    (t.group g).replayStaged = (s.group g).replayStaged) recs _ ⟨rfl, rfl⟩ fun t staged r _ => ?_
  by_cases e : g = r.group
  · obtain ⟨fill, replay⟩ := groupUnder_staged old im t r full
    rw [e, State.group_setGroup, fill, replay, ← e]
    exact staged
  · rw [State.group_setGroup_other t _ e]
    exact staged

theorem withRecords_other {s : State} {old im : Image} {recs : List GroupRec} {full : Bool} {g : Nat}
    (h : g ∉ recs.map (·.group)) : (withRecords s old im recs full).group g = s.group g := by
  refine List.foldlRecOn (motive := fun t : State => t.group g = s.group g) recs _ rfl fun t same r listed => ?_
  have other : g ≠ r.group := fun e => h (List.mem_map.2 ⟨r, listed, e.symm⟩)
  rw [State.group_setGroup_other t _ other, same]

/-- Only groups and queues change as an image rules them. -/
theorem regrouped_form (s : State) (im : Image) : ∃ groups queues, regrouped s im = { s with groups, queues } := by
  have gone : ∀ valid, ∃ groups, withoutGone s valid = { s with groups } := fun valid =>
    List.foldlRecOn (motive := fun t : State => ∃ groups, t = { s with groups }) _ _ ⟨s.groups, rfl⟩
      (by rintro _ ⟨groups, rfl⟩ g _; exact ⟨_, rfl⟩)
  have ruled : ∀ t recs full, ∃ groups, withRecords t s.image im recs full = { t with groups } := fun t recs full =>
    List.foldlRecOn (motive := fun u : State => ∃ groups, u = { t with groups }) _ _ ⟨t.groups, rfl⟩
      (by rintro _ ⟨groups, rfl⟩ r _; exact ⟨_, rfl⟩)
  have mapped : ∀ (l : List Nat) (t : State), ∃ queues,
      l.foldl (fun s q => s.updQueue q (queueUnder im q)) t = { t with queues } := fun l t =>
    List.foldlRecOn (motive := fun u : State => ∃ queues, u = { t with queues }) _ _ ⟨t.queues, rfl⟩
      (by rintro _ ⟨queues, rfl⟩ q _; exact ⟨_, rfl⟩)
  unfold regrouped
  obtain ⟨gs, e⟩ := gone ((buildTable im s.me).1.map (·.group))
  obtain ⟨gs', e'⟩ := ruled { s with groups := gs } (buildTable im s.me).1 (s.img.active.isSome && s.fullReadyIn im)
  dsimp only
  rw [e, e']
  obtain ⟨qs, e''⟩ := mapped _ { s with groups := gs' }
  exact ⟨gs', qs, e''⟩

theorem regrouped_group (s : State) (im : Image) (g : Nat) : (regrouped s im).group g =
    (withRecords (withoutGone s ((buildTable im s.me).1.map (·.group))) s.image im (buildTable im s.me).1
      (s.img.active.isSome && s.fullReadyIn im)).group g := by
  unfold regrouped
  exact List.foldlRecOn (motive := fun t : State => t.group g = State.group _ g) _ _ rfl fun t same q _ => same

/-- A group that the image makes valid keeps what is staged for it. -/
theorem regrouped_staged {s : State} {im : Image} {g : Nat} (h : ((regrouped s im).gr g).valid = true) :
    ((regrouped s im).group g).fillStaged = (s.group g).fillStaged ∧
      ((regrouped s im).group g).replayStaged = (s.group g).replayStaged := by
  rw [State.gr, regrouped_group] at h
  rw [regrouped_group]
  by_cases valid : g ∈ (buildTable im s.me).1.map (·.group)
  · rw [← withoutGone_valid (s := s) valid]
    exact withRecords_staged _ _ _ _ _ g
  · rw [withRecords_other valid] at h
    exact absurd (h.symm.trans (withoutGone_gone valid)) (by decide)

/-! ### An activation -/

/-- What an image that becomes active leaves, and what stays staged. -/
structure State.Activated (s : State) (im : Image) (t : State) : Prop where
  img : t.img = { s.img with active := some im, staged := none, swapping := none, loader := .idle }
  mgmt : t.mgmt = s.mgmt
  lines : t.cache.lines = []
  key : t.num.keyStaged = s.num.keyStaged
  rows : t.refiner.rowsStaged = s.refiner.rowsStaged
  scheds : t.refiner.schedsStaged = s.refiner.schedsStaged
  group : ∀ g, (t.gr g).valid = true →
    (t.group g).fillStaged = (s.group g).fillStaged ∧ (t.group g).replayStaged = (s.group g).replayStaged

theorem State.Activated.keeps {s t u : State} {im : Image} (h : s.Activated im t) (k : t.KeepsImage u) : s.Activated im u where
  img := k.img.trans h.img
  mgmt := k.mgmt.trans h.mgmt
  lines := k.lines.trans h.lines
  key := k.key.trans h.key
  rows := k.rows.trans h.rows
  scheds := k.scheds.trans h.scheds
  group g valid := by
    obtain ⟨gr, fill, replay⟩ := k.group g
    rw [fill, replay]
    exact h.group g (by rw [State.gr, ← gr]; exact valid)

theorem refreshQuarantine_keeps (s : State) : s.KeepsImage (refreshQuarantine s) :=
  (s.keeps_keeper _).trans (refreshPhase_keeps _)

theorem activate_activated (s : State) (im : Image) : s.Activated im (activate s im) := by
  obtain ⟨groups, queues, form⟩ := regrouped_form s im
  have banks : (regrouped s im).img = s.img := by rw [form]
  have mgmt : (regrouped s im).mgmt = s.mgmt := by rw [form]
  have key : (regrouped s im).num.keyStaged = s.num.keyStaged := by rw [form]
  have rows : (regrouped s im).refiner.rowsStaged = s.refiner.rowsStaged := by rw [form]
  have scheds : (regrouped s im).refiner.schedsStaged = s.refiner.schedsStaged := by rw [form]
  refine State.Activated.keeps ?_ (refreshQuarantine_keeps _)
  exact {
    img := congrArg (fun i : ImageSt => { i with active := some im, staged := none, swapping := none, loader := .idle }) banks
    mgmt := mgmt
    lines := rfl
    key := key
    rows := rows
    scheds := scheds
    group := fun g valid => regrouped_staged valid }

/-! ### START (02 R73) -/

/-- Where no group is to have full service, PHASE becomes FULL as soon as full service is available (02 R95). -/
theorem refreshPhase_unserved {s : State} (low : s.keeper.phase = .lowWater) (none : s.servedGroups = []) :
    refreshPhase s = if s.fullReady then s.updKeeper fun k => { k with phase := .full } else s := by
  simp [refreshPhase, low, none]

theorem refreshPhase_servedGroups (s : State) : (refreshPhase s).servedGroups = s.servedGroups := by
  obtain ⟨k, eq⟩ := refreshPhase_form s
  rw [eq]
  rfl

theorem refreshPhase_fullReady (s : State) : (refreshPhase s).fullReady = s.fullReady := by
  obtain ⟨k, eq⟩ := refreshPhase_form s
  rw [eq]
  rfl

/-- What START does once the image is active: the groups latch their schedules, ports begin to train, and groups without a pump halt. -/
theorem serviceBegins_keeps (im : Image) (s : State) : s.KeepsPhase (haltPumpless (wakePorts
    ((im.groups.filter (·.valid)).foldl (fun s r => latchSchedule s r.group) s)) none).1 :=
  (((State.keeps_foldl (fun s (r : GroupRec) => latchSchedule_keeps s r.group) _ s).trans (wakePorts_keeps _))).trans
    (haltPumpless_keeps _ none)

/-- Before START looks for groups to serve, the image is active, in low-water service. -/
theorem startImage_form (s : State) (im : Image) : ∃ u, (dropImageFields s).Activated im u ∧ u.keeper.phase = .lowWater ∧
    startImage s im = if u.servedGroups.isEmpty then refreshPhase u else u := by
  have low := (activate_activated (dropImageFields s) im).keeps (State.keeps_keeper _
    { (activate (dropImageFields s) im).keeper with phase := .lowWater })
  have begins := serviceBegins_keeps im
    { activate (dropImageFields s) im with keeper := { (activate (dropImageFields s) im).keeper with phase := .lowWater } }
  exact ⟨_, low.keeps begins.toKeepsImage, congrArg KeeperSt.phase begins.keeper, rfl⟩

theorem startImage_activated (s : State) (im : Image) : (dropImageFields s).Activated im (startImage s im) := by
  obtain ⟨u, act, -, eq⟩ := startImage_form s im
  rw [eq]
  split
  · exact act.keeps (refreshPhase_keeps u)
  · exact act

/-- 02 R73, R95: after START service is low-water, but where no group is to be served and full service is available (log entry 24). -/
theorem startImage_phase (s : State) (im : Image) : (startImage s im).keeper.phase =
    if (startImage s im).servedGroups = [] ∧ (startImage s im).fullReady = true then .full else .lowWater := by
  obtain ⟨u, -, low, eq⟩ := startImage_form s im
  rw [eq]
  by_cases none : u.servedGroups = []
  · rw [if_pos (by rw [none]; rfl), refreshPhase_servedGroups, refreshPhase_fullReady, refreshPhase_unserved low none]
    by_cases ready : u.fullReady = true
    · simp [none, ready]
    · simp [none, ready, low]
  · rw [if_neg (by simpa using none), if_neg (fun h => none h.1), low]

section
variable (s t : State) (m : Mgmt)

@[simp] theorem State.accepted_resp : (State.accepted s m t).mgmt.resp = some ⟨m.id, m.agent, 0, 0⟩ := rfl

theorem State.accepted_phase : (State.accepted s m t).keeper.phase = t.keeper.phase := by
  unfold State.accepted; split <;> rfl

theorem State.accepted_fullReady : (State.accepted s m t).fullReady = t.fullReady := by
  unfold State.accepted; split <;> rfl

/-- The groups to be served are those of the effect, whose port is the old one. -/
theorem State.accepted_servedGroups (h : t.mgmt = s.mgmt) : (State.accepted s m t).servedGroups = t.servedGroups := by
  unfold State.accepted
  rw [← h]
  split <;> rfl

end

theorem exec_start_accepted {s : State} {m : Mgmt} {im : Image} (may : State.MayWrite s m) (idle : s.img.active = none)
    (staged : s.img.staged = some im) (loaded : s.img.loader = .staged) (fit : s.warden.unfit = false) :
    exec (.start m) s = .next (State.accepted s m (startImage s im)) :=
  mgmtWrite_accepted may (by simp [startStaged, idle, staged, loaded, fit])

theorem exec_start_rejected {s : State} {m : Mgmt} (may : State.MayWrite s m)
    (h : s.img.active ≠ none ∨ s.img.loader ≠ .staged) : exec (.start m) s = .next (State.answered s m 1 0) := by
  have none : startStaged s = none := by
    unfold startStaged
    split
    next idle _ =>
      rcases h with active | loader
      · exact absurd idle active
      · simp [loader]
    next => rfl
  show finish s (mgmtWrite s m startStaged) = _
  rw [mgmtWrite_rejected may none, finish_answered]

/-! ### IMAGE_SWAP (01 R28; 02 R75) -/

/-- An operation other than the MARK is still started: the swap waits. -/
theorem swapImage_waits {s : State} {im : Image} (swapping : s.img.swapping = some im)
    (h : ∃ o ∈ s.started, some (o.q, o.c) ≠ (s.group im.anchor).markOp) : swapImage s = s := by
  have busy : (s.started.any fun o => some (o.q, o.c) != (s.group im.anchor).markOp) = true := by
    simpa [List.any_eq_true] using h
  simp only [swapImage, swapping, busy, if_true]

theorem unmark_keeps (s : State) (g : Nat) : s.KeepsPhase (s.updGroup g fun x => { x with marking := none }) :=
  s.keeps_updGroup g ⟨rfl, rfl, rfl⟩

theorem swapImage_activated {s : State} {im : Image} {m : MarkSt} (swapping : s.img.swapping = some im)
    (marking : (s.group im.anchor).marking = some m) (committed : m.committed.isSome = true)
    (drained : ∀ o ∈ s.started, some (o.q, o.c) = (s.group im.anchor).markOp) : s.Activated im (swapImage s) := by
  obtain ⟨c, point⟩ := Option.isSome_iff_exists.1 committed
  have free : (s.started.any fun o => some (o.q, o.c) != (s.group im.anchor).markOp) = false := by
    simpa [List.any_eq_false] using drained
  have awake : s.Activated im (wakePorts (activate s im)) := (activate_activated s im).keeps (wakePorts_keeps _).toKeepsImage
  simp only [swapImage, swapping, free, marking, point, Option.bind_some, Option.map_some, Bool.false_eq_true, if_false]
  split
  · exact awake.keeps (finishMark_keeps _ _ _ _ _)
  · refine awake.keeps (.trans ?_ (haltPumpless_keeps _ none).toKeepsImage)
    refine .trans ?_ (refreshPhase_keeps _)
    exact (((unmark_keeps _ _).trans (endMark_keeps _ _)).trans (holdForTest_keeps _ _)).toKeepsImage

theorem exec_imageSwap (s : State) : exec .imageSwap s = .next (State.plain s (noteDrain s (swapImage s))) := rfl

theorem noteDrain_same (s : State) : noteDrain s s = s := if_pos (beq_self_eq_true _)

/-- Settles O15: START and IMAGE_SWAP activate the image, and nothing of what follows touches the banks or what is staged. -/
theorem imagesBecomeActive : Obligations.ImagesBecomeActive := by
  unfold Obligations.ImagesBecomeActive
  refine ⟨fun m s may => ⟨fun im idle staged loaded fit => ?start, exec_start_rejected may⟩,
    fun s im m swapping marking committed => ⟨fun drained => ?swap, fun busy => ?waits⟩⟩
  case start =>
    have act := startImage_activated s im
    have mgmt : (startImage s im).mgmt = s.mgmt := act.mgmt
    refine ⟨_, exec_start_accepted may idle staged loaded fit, ?_⟩
    rw [State.accepted_img, act.img, State.accepted_phase, State.accepted_fullReady, State.accepted_servedGroups _ _ _ mgmt]
    exact ⟨rfl, rfl, rfl, startImage_phase s im, State.accepted_resp _ _ _⟩
  case swap =>
    have act := (swapImage_activated swapping marking committed drained).keeps (noteDrain_keeps s _).toKeepsImage
    have img := act.img
    refine ⟨_, exec_imageSwap s, congrArg ImageSt.active img, congrArg ImageSt.staged img, congrArg ImageSt.swapping img,
      congrArg ImageSt.loader img, act.lines, act.key, act.rows, act.scheds, act.group⟩
  case waits =>
    rw [exec_imageSwap, swapImage_waits swapping busy, noteDrain_same]
    rfl

end Sys2Proof.Machine
end
section
/-! PROOFS. The management plane (02 R88, R90, R94, R95; 13 R499, R500): what a command can make of it, in eight forms, from which the
invariant, the frozen agent, the resets and the bring-up follow. -/

namespace Sys2Proof.Machine

/-! ### Access by a frozen agent (02 R88) -/

theorem mgmtRead_frozen {s : State} {m : Mgmt} (v : State → W64) (f : State → State) (r : s.mgmt.portReady = true)
    (h : s.isFrozen m.agent = true) : mgmtRead s m v f = State.answered s m 2 0 := by
  simp [mgmtRead, r, h, respond_eq, respFrozen]

/-- Settles O7: a write and a read meet the same gate, which answers a frozen agent before the command has any effect. -/
theorem frozenAgentChangesNothing : Obligations.FrozenAgentChangesNothing := by
  unfold Obligations.FrozenAgentChangesNothing
  intro i m s h r frozen
  cases w : Instr.writes i
  · obtain ⟨v, f, e, -⟩ := exec_read_form s h w
    rw [e, mgmtRead_frozen v f r frozen, finish_answered]
  · obtain ⟨f, e⟩ := exec_write_form s h w
    rw [e, ownerWrite_frozen f r frozen, finish_answered]

/-! ### What a command makes of the management plane -/

/-- The registers of the port and of the identity after a command: kept, with the answer to an access, or as one of the commands of
reset and bring-up leaves them (02 R90, R94, R95; 12 R482). -/
inductive MgmtSt.Becomes (x : MgmtSt) (now : Nat) : Instr → MgmtSt → Prop
  | kept (i : Instr) : x.Becomes now i x
  | answered {i : Instr} {m : Mgmt} (asked : Instr.requester i = some m) (status : Nat) (data : W64) (code : status ≤ 2)
      (error : status ≠ 0 → data = 0) : x.Becomes now i { x with resp := some ⟨m.id, m.agent, status, data⟩ }
  | warm {i : Instr} {m : Mgmt} (asked : Instr.requester i = some m) : x.Becomes now i { x with
      portReady := false, releasedAt := now, selfTestDone := false, resp := some ⟨m.id, m.agent, 0, 0⟩ }
  | cold : x.Becomes now .coldReset { dieAddr := x.dieAddr }
  | released (a : BitVec 18) : x.Becomes now (.resetRelease a) { x with released := true, releasedAt := now, dieAddr := a.toNat }
  | derived (r1 r2 r3 id : BitVec 128) (released : x.released = true) : x.Becomes now (.identityDerivation r1 r2 r3)
      { x with idLo := id.setWidth 64, idHi := (id >>> 64).setWidth 64, idDerived := true }
  | ready (released : x.released = true) : x.Becomes now .managementPortReady { x with portReady := true }
  | tested (fails : List TestFail) : x.Becomes now (.builtInSelfTest fails) { x with selfTestDone := true }

theorem finish_mgmt {s u t : State} (h : finish s u = .next t) : t.mgmt = u.mgmt := by rw [finish_next h]

theorem finishPlain_mgmt {s u t : State} (h : finishPlain s u = .next t) : t.mgmt = s.mgmt := by rw [finish_next h]

/-- A checked command that leaves the plane alone. -/
theorem checkedPlain_mgmt {ok : Bool} {what : String} {s u t : State} (h : checked ok what (finishPlain s u) = .next t) :
    t.mgmt = s.mgmt := finishPlain_mgmt (checked_next h).2

/-- A write of the window is a write behind the gate, or one of GLOBAL_CTRL. -/
theorem writeRegister_cases (s : State) (m : Mgmt) (off : BitVec 21) (d : W64) :
    (∃ f, writeRegister s m off d = mgmtWrite s m f) ∨ writeRegister s m off d = writeGlobalCtrl s m d := by
  unfold writeRegister
  split
  · exact .inr rfl
  · exact .inl ⟨_, rfl⟩

/-- A command of the port that writes is a write behind the gate, or one of GLOBAL_CTRL. -/
theorem exec_write_cases {i : Instr} {m : Mgmt} (s : State) (h : Instr.requester i = some m) (w : Instr.writes i = true) :
    (∃ f, exec i s = finish s (mgmtWrite s m f)) ∨ ∃ d, exec i s = finish s (writeGlobalCtrl s m d) := by
  cases i
  case registerWrite | writeWithoutOwnership =>
    cases h
    obtain ⟨f, e⟩ | e := writeRegister_cases s m _ _
    · exact .inl ⟨f, congrArg (finish s) e⟩
    · exact .inr ⟨_, congrArg (finish s) e⟩
  case keeperClaim | rcRead => cases w
  case warmReset => cases h; exact .inr ⟨1, rfl⟩
  case load | discard | start | keeperLease | keeperHandover | keeperFreeze | keeperThaw | memberEntryWrite | enable
      | queueDisable | cancel | kick | queueHead | resume | flush | cacheWindowWrite | groupResume | groupHalt | dump
      | syncValueWrite | force | twinCtrlWrite | go | paceWrite | baseMvWrite | clearRelief | request | restore | retrain
      | linkEnWrite =>
    cases h
    exact .inl ⟨_, rfl⟩
  all_goals cases h

theorem claim_mgmt (s : State) (a : Nat) : (claim s a).mgmt = s.mgmt := by
  unfold claim
  split
  case h_1 | h_3 => rfl
  case h_2 | h_4 => split <;> rfl

theorem regClear_mgmt (s : State) (r : Reg) : (regClear s r).mgmt = s.mgmt := by cases r <;> rfl

/-- A read of the window goes through the gate of reads, and what it does leaves the plane alone. -/
theorem readRegister_mgmt_form (s : State) (m : Mgmt) (off : BitVec 21) :
    ∃ v f, readRegister s m off = mgmtRead s m v f ∧ (f s).mgmt = s.mgmt := by
  unfold readRegister
  split
  · exact ⟨_, _, rfl, rfl⟩
  · exact ⟨_, _, readClaim_eq_mgmtRead s m, claim_mgmt s m.agent⟩
  · refine ⟨_, _, rfl, ?_⟩
    split
    · exact regClear_mgmt s _
    · rfl

theorem exec_read_mgmt_form {i : Instr} {m : Mgmt} (s : State) (h : Instr.requester i = some m) (w : Instr.writes i = false) :
    ∃ v f, exec i s = finish s (mgmtRead s m v f) ∧ (f s).mgmt = s.mgmt := by
  obtain rfl | ⟨off, rfl⟩ := eq_read_of_not_writes h w
  · exact ⟨_, _, congrArg (finish s) (readClaim_eq_mgmtRead s m), claim_mgmt s m.agent⟩
  · obtain ⟨v, f, e, kept⟩ := readRegister_mgmt_form s m off
    exact ⟨v, f, congrArg (finish s) e, kept⟩

section
variable {i : Instr} {m : Mgmt}

theorem mgmtWrite_becomes (s : State) (f : State → Option State) (asked : Instr.requester i = some m) :
    s.mgmt.Becomes s.now i (mgmtWrite s m f).mgmt := by
  obtain ⟨⟨id, agent, status, data⟩, e, rfl, rfl, code, error⟩ := mgmtWrite_mgmt s m f
  rw [e]
  exact .answered asked status data code error

theorem writeGlobalCtrl_becomes (s : State) (d : W64) (asked : Instr.requester i = some m) :
    s.mgmt.Becomes s.now i (writeGlobalCtrl s m d).mgmt := by
  unfold writeGlobalCtrl ownerWrite
  split
  · exact .answered asked 1 0 (by decide) fun _ => rfl
  split
  · exact .answered asked 2 0 (by decide) fun _ => rfl
  split
  · rw [foreignWrite_mgmt]
    exact .answered asked _ 0 (by split <;> decide) fun _ => rfl
  split
  · exact .warm asked
  · exact .answered asked 0 0 (by decide) fun _ => rfl

theorem mgmtRead_becomes (s : State) (v : State → W64) {f : State → State} (kept : (f s).mgmt = s.mgmt)
    (asked : Instr.requester i = some m) : s.mgmt.Becomes s.now i (mgmtRead s m v f).mgmt := by
  unfold mgmtRead
  split
  · exact .answered asked 1 0 (by decide) fun _ => rfl
  split
  · exact .answered asked 2 0 (by decide) fun _ => rfl
  · show MgmtSt.Becomes _ _ _ { (f s).mgmt with resp := _ }
    rw [kept]
    exact .answered asked 0 (v s) (by decide) fun h => absurd rfl h

/-- A command of the port only leaves its answer there, but for a warm reset. -/
theorem exec_access_becomes {s t : State} (asked : Instr.requester i = some m) (h : exec i s = .next t) :
    s.mgmt.Becomes s.now i t.mgmt := by
  cases w : Instr.writes i
  · obtain ⟨v, f, e, kept⟩ := exec_read_mgmt_form s asked w
    rw [finish_mgmt (e.symm.trans h)]
    exact mgmtRead_becomes s v kept asked
  · obtain ⟨f, e⟩ | ⟨d, e⟩ := exec_write_cases s asked w
    · rw [finish_mgmt (e.symm.trans h)]
      exact mgmtWrite_becomes s f asked
    · rw [finish_mgmt (e.symm.trans h)]
      exact writeGlobalCtrl_becomes s d asked

end

theorem makeRecord_mgmt (s : State) (r : FaultRecord) : (makeRecord s r).mgmt = s.mgmt := (makeRecord_keeps s r).mgmt

theorem releaseReset_becomes (s : State) (a : BitVec 18) :
    s.mgmt.Becomes s.now (.resetRelease a) (releaseReset s a.toNat).mgmt := by
  unfold releaseReset
  split
  · exact .kept _
  · exact .released a

theorem deriveIdentity_becomes (s : State) (r1 r2 r3 : BitVec 128) :
    s.mgmt.Becomes s.now (.identityDerivation r1 r2 r3) (deriveIdentity s r1 r2 r3).mgmt := by
  unfold deriveIdentity
  split
  · exact .kept _
  next open_ =>
    have released : s.mgmt.released = true := by
      simp only [Bool.or_eq_true, not_or, Bool.not_eq_true', Bool.not_eq_false] at open_
      exact open_.1.1
    split
    next id _ => exact .derived r1 r2 r3 id released
    next => rw [makeRecord_mgmt]; exact .kept _

theorem readyPort_becomes (s : State) : s.mgmt.Becomes s.now .managementPortReady (readyPort s).mgmt := by
  unfold readyPort
  split
  next due =>
    simp only [Bool.and_eq_true] at due
    exact .ready due.1.1
  next => exact .kept _

theorem exec_builtInSelfTest_becomes {fails : List TestFail} {s t : State} (h : exec (.builtInSelfTest fails) s = .next t) :
    s.mgmt.Becomes s.now (.builtInSelfTest fails) t.mgmt := by
  rw [finish_mgmt (checked_next h).2]
  split
  · exact .tested fails
  · exact .kept _

/-- Everything that a command can make of the management plane. -/
theorem exec_becomes {i : Instr} {s t : State} (h : exec i s = .next t) : s.mgmt.Becomes s.now i t.mgmt := by
  cases asked : Instr.requester i with
  | some m => exact exec_access_becomes asked h
  | none =>
    cases i
    case coldReset => rw [finish_mgmt h]; exact .cold
    case resetRelease a => rw [finish_mgmt h]; exact releaseReset_becomes s a
    case identityDerivation r1 r2 r3 => rw [finish_mgmt h]; exact deriveIdentity_becomes s r1 r2 r3
    case managementPortReady => rw [finish_mgmt h]; exact readyPort_becomes s
    case builtInSelfTest fails => exact exec_builtInSelfTest_becomes h
    case fabricResponse | scrubPass | token | halt | parcel | answer | levelMark | recallMsg | remoteSignal | signalAck
        | landingCredit | twinPair | twinRecord | faultReport | withdraw | wholeEngineTest | testAuto | testComplete | thermal
        | senseStrobe | train | flit | status | linkState =>
      rw [checkedPlain_mgmt h]; exact .kept _
    case nop | allreduce | reduceScatter | allgather | broadcast | alltoall | exchange | rotate | update | digest | barrier
        | signal | wait | copy | mark | stepMark | imageSwap | imageCheck | claimWindowClose | leaseLapse | handoverWindowClose
        | poll | fetchBatch | grant | launchAtCount | stagingPairGrant | transferIssue | fabricTimeout | entryComplete
        | headWriteback | stepTimeout | heldSignalApply | busyResend | signalRequest | wakePulse | hostMirrorWrite
        | barrierAndRise | lendOffer | lendGrant | lendReclaim | tallyLock | tallyLoss | cadenceAlign | twinDivergeLatch
        | twinAlone | vengStep | vengSense | senseStale | surgeBegin | surgeWindowSpent | drawGrantFall | ledgerSpent
        | ledgerRecord | phyReady | trainAttemptFail | trainBackoff | calibrationComplete | phyLost | linkSilence | nack
        | replayBackoff | statusSend | budgetReturned | reclaimLimit | flushDone | capRelease =>
      rw [finishPlain_mgmt h]; exact .kept _
    all_goals cases asked

/-! ### The invariant -/

/-- Settles O5: at reset nothing is released, derived or answered. -/
theorem resetManagementSound : Obligations.ResetManagementSound := by
  unfold Obligations.ResetManagementSound
  exact ⟨{ ready := nofun, derived := nofun, blank := fun _ => ⟨rfl, rfl⟩, address := by decide, answer := nofun }, rfl⟩

/-- Each form keeps the plane sound. -/
theorem MgmtSt.Becomes.sound {x y : MgmtSt} {now : Nat} {i : Instr} (h : x.Becomes now i y) (sound : x.Sound) : y.Sound := by
  obtain ⟨ready, derived, blank, address, answer⟩ := sound
  cases h with
  | kept => exact ⟨ready, derived, blank, address, answer⟩
  | @answered _ m _ status data code error =>
    exact ⟨ready, derived, blank, address, fun r e => by cases e; exact ⟨code, m.agent.isLt, m.id.isLt, error⟩⟩
  | @warm _ m asked =>
    exact ⟨nofun, derived, blank, address, fun r e => by cases e; exact ⟨Nat.zero_le 2, m.agent.isLt, m.id.isLt, fun h => absurd rfl h⟩⟩
  | cold => exact ⟨nofun, nofun, fun _ => ⟨rfl, rfl⟩, address, nofun⟩
  | released a => exact ⟨fun _ => rfl, fun _ => rfl, blank, a.isLt, answer⟩
  | derived r1 r2 r3 id released => exact ⟨ready, fun _ => released, nofun, address, answer⟩
  | ready released => exact ⟨fun _ => released, derived, blank, address, answer⟩
  | tested => exact ⟨ready, derived, blank, address, answer⟩

theorem endRound_mgmt (s : State) : (endRound s).mgmt = s.mgmt := by
  unfold endRound
  split <;> rfl

theorem refreshVeng_mgmt (s : State) : (refreshVeng s).mgmt = s.mgmt := by
  obtain ⟨w, e, -⟩ := refreshVeng_form s
  rw [e]

theorem endSurge_mgmt (s : State) (s0 : Nat) : (endSurge s s0).mgmt = s.mgmt := by
  unfold endSurge
  split
  · rw [refreshVeng_mgmt, engineRecord, makeRecord_mgmt]; rfl
  · rfl

theorem quietSurge_mgmt (s : State) : (quietSurge s).mgmt = s.mgmt := by
  have ends : ∀ due : Bool, (if due then endSurge s 2 else s).mgmt = s.mgmt := fun due => by
    cases due
    · rfl
    · exact endSurge_mgmt s 2
  exact ends _

theorem afterLock_mgmt (was s : State) : (afterLock was s).mgmt = s.mgmt := by
  unfold afterLock
  split
  · exact (refreshPhase_keeps s).mgmt
  · rfl

/-- A nanosecond without a command does not touch the management plane. -/
theorem idleTick_mgmt (s : State) : (idleTick s).mgmt = s.mgmt := by
  have quiet : (quietSurge (noteQuiet (endRound (endPulses (tickSurge s))))).mgmt = s.mgmt :=
    (quietSurge_mgmt _).trans (endRound_mgmt (endPulses (tickSurge s)))
  exact (afterLock_mgmt _ _).trans quiet

/-- Settles O6: a command makes of the plane one of eight forms, each of which keeps it sound, and a nanosecond leaves it alone. -/
theorem stepKeepsManagementSound : Obligations.StepKeepsManagementSound := by
  unfold Obligations.StepKeepsManagementSound
  intro s t sound h
  unfold step at h
  split at h
  next c rest _ => exact (exec_becomes h).sound sound
  next =>
    cases h
    rw [idleTick_mgmt]
    exact sound

/-! ### Resets (02 R94; 13 R498) -/

theorem exec_warmReset_accepted {s : State} {m : Mgmt} (may : State.MayWrite s m) :
    exec (.warmReset m) s = finish s (State.answered (warmReset s) m 0 0) := by
  show finish s (writeGlobalCtrl s m 1) = _
  rw [writeGlobalCtrl, ownerWrite_owner _ may]
  rfl

/-- Settles O9: a cold reset is the reset state but for the inputs, and so is an owner's warm reset but for the identity and the log. -/
theorem resetsReturnEveryRegister : Obligations.ResetsReturnEveryRegister := by
  unfold Obligations.ResetsReturnEveryRegister
  exact ⟨fun s => ⟨_, rfl, rfl, rfl, rfl, fun _ => rfl, rfl⟩,
    fun m s may => ⟨_, exec_warmReset_accepted may, rfl, rfl, rfl, fun _ => rfl, rfl⟩⟩

/-! ### Bring-up (02 R90, R95; 13 R499, R500) -/

theorem exec_resetRelease_released {s : State} (a : BitVec 18) (low : s.mgmt.released = false) : ∃ t,
    exec (.resetRelease a) s = .next t ∧ t.mgmt = { s.mgmt with released := true, releasedAt := s.now, dieAddr := a.toNat } := by
  refine ⟨_, rfl, ?_⟩
  simp [releaseReset, low]

theorem exec_managementPortReady_due {s : State} (released : s.mgmt.released = true)
    (settled : s.mgmt.idDerived = true ∨ s.keeper.idFail = true) (late : s.mgmt.releasedAt + 200000 ≤ s.now) :
    exec .managementPortReady s = .next { s with mgmt := { s.mgmt with portReady := true } } := by
  have due : (s.mgmt.released && (s.mgmt.idDerived || s.keeper.idFail) && s.mgmt.releasedAt + 200000 ≤ s.now) = true := by
    simp [released, settled, late]
  show finish s (readyPort s) = _
  rw [readyPort, if_pos due]
  rfl

/-- The built-in test may run: the port is ready, no image is there, and it has not run since the reset (log entry 31). -/
def State.selfTestDue (s : State) : Bool := s.mgmt.portReady && s.keeper.phase == .noImage && !s.mgmt.selfTestDone

theorem exec_builtInSelfTest {s : State} {fails : List TestFail} (wf : fails.all TestFail.wf = true) :
    exec (.builtInSelfTest fails) s = finish s (if s.selfTestDue then
      { fails.foldl takeBuiltIn (timingDraw s 3).1 with mgmt := { s.mgmt with selfTestDone := true } } else s) := by
  show checked _ _ _ = _
  rw [wf, checked_true]
  rfl

theorem exec_builtInSelfTest_runs {s : State} {fails : List TestFail} (wf : fails.all TestFail.wf = true)
    (due : s.selfTestDue = true) : ∃ t, exec (.builtInSelfTest fails) s = .next t ∧
      t.mgmt = { s.mgmt with selfTestDone := true } ∧ (fails = [] → t.warden = s.warden) := by
  rw [exec_builtInSelfTest wf, if_pos due]
  exact ⟨_, rfl, rfl, fun none => by subst none; rfl⟩

theorem exec_builtInSelfTest_not_due {s : State} {fails : List TestFail} (wf : fails.all TestFail.wf = true)
    (idle : s.selfTestDue = false) : exec (.builtInSelfTest fails) s = .next s := by
  rw [exec_builtInSelfTest wf, idle]
  rfl

theorem agreed_of_successive {r1 r2 r3 : BitVec 128} (h : r1 = r2 ∨ r2 = r3) : agreed r1 r2 r3 = some r2 := by
  unfold agreed
  split
  · rfl
  next other =>
    rw [if_pos (h.resolve_left other), h.resolve_left other]

theorem agreed_of_none {r1 r2 r3 : BitVec 128} (h : r1 ≠ r2 ∧ r2 ≠ r3) : agreed r1 r2 r3 = none := by
  simp [agreed, h.1, h.2]

section
variable {s : State} {r1 r2 r3 : BitVec 128} (released : s.mgmt.released = true) (blank : s.mgmt.idDerived = false)
  (whole : s.keeper.idFail = false)
include released blank whole

theorem deriveIdentity_agreed {id : BitVec 128} (h : agreed r1 r2 r3 = some id) : deriveIdentity s r1 r2 r3 =
    { s with mgmt := { s.mgmt with idLo := id.setWidth 64, idHi := (id >>> 64).setWidth 64, idDerived := true } } := by
  simp [deriveIdentity, released, blank, whole, h]

theorem exec_identityDerivation_agreed (h : r1 = r2 ∨ r2 = r3) : ∃ t, exec (.identityDerivation r1 r2 r3) s = .next t ∧
    t.mgmt.idDerived = true ∧ t.mgmt.idLo = r2.setWidth 64 ∧ t.mgmt.idHi = (r2 >>> 64).setWidth 64 ∧ t.keeper = s.keeper ∧
    t.idCheck = crc64 (leBytes 8 t.mgmt.idLo.toNat ++ leBytes 8 t.mgmt.idHi.toNat) := by
  refine ⟨_, rfl, ?_⟩
  rw [deriveIdentity_agreed released blank whole (agreed_of_successive h)]
  exact ⟨rfl, rfl, rfl, rfl, if_neg (by simp [whole])⟩

/-- The engine is quarantined, and ID_FAIL is set. -/
theorem exec_identityDerivation_failed (h : r1 ≠ r2 ∧ r2 ≠ r3) : ∃ t, exec (.identityDerivation r1 r2 r3) s = .next t ∧
    t.keeper = { s.keeper with idFail := true, quarantine := true } ∧ t.mgmt = s.mgmt := by
  refine ⟨_, rfl, ?_⟩
  simp only [deriveIdentity, released, blank, whole, agreed_of_none h, Bool.not_true, Bool.or_self, Bool.false_eq_true, if_false]
  exact ⟨(makeRecord_keeps _ _).keeper, makeRecord_mgmt _ _⟩

end

/-- While ID_FAIL is set the identity registers read 0. -/
theorem identity_of_idFail {t : State} (h : t.keeper.idFail = true) : t.idLo = 0 ∧ t.idHi = 0 ∧ t.idCheck = 0 := by
  simp [State.idLo, State.idHi, State.idCheck, h]

/-- The identity changes only by the derivation and by a cold reset. -/
theorem MgmtSt.Becomes.identity {x y : MgmtSt} {now : Nat} {i : Instr} (h : x.Becomes now i y) (warm : i ≠ .coldReset)
    (derived : ∀ a b c, i ≠ .identityDerivation a b c) : y.idLo = x.idLo ∧ y.idHi = x.idHi ∧ y.idDerived = x.idDerived := by
  cases h with
  | cold => exact absurd rfl warm
  | derived r1 r2 r3 => exact absurd rfl (derived r1 r2 r3)
  | kept | answered | warm | released | ready | tested => exact ⟨rfl, rfl, rfl⟩

/-- The die address changes only at the release of reset. -/
theorem MgmtSt.Becomes.dieAddr {x y : MgmtSt} {now : Nat} {i : Instr} (h : x.Becomes now i y)
    (held : ∀ a, i ≠ .resetRelease a) : y.dieAddr = x.dieAddr := by
  cases h with
  | released a => exact absurd rfl (held a)
  | kept | answered | warm | cold | derived | ready | tested => rfl

/-- Settles O10: the commands of bring-up by their cases, and the rest from the eight forms of `exec_becomes`. -/
theorem bringUpDerivesTheIdentity : Obligations.BringUpDerivesTheIdentity := by
  unfold Obligations.BringUpDerivesTheIdentity
  refine ⟨fun s => ⟨fun a low => ?release, exec_managementPortReady_due, fun fails wf => ⟨fun ready bare first => ?runs, fun h => ?idle⟩⟩,
    fun s r1 r2 r3 released blank whole => ⟨exec_identityDerivation_agreed released blank whole, fun h => ?failed⟩,
    fun i s t h => ⟨fun ⟨warm, derived⟩ => (exec_becomes h).identity warm derived, (exec_becomes h).dieAddr⟩⟩
  case release =>
    obtain ⟨t, run, e⟩ := exec_resetRelease_released a low
    exact ⟨t, run, by rw [e], by rw [e], by rw [e], by rw [e]⟩
  case runs => exact exec_builtInSelfTest_runs wf (by simp [State.selfTestDue, ready, bare, first])
  case idle =>
    refine exec_builtInSelfTest_not_due wf ?_
    rcases h with h | h | h <;> simp [State.selfTestDue, h]
  case failed =>
    obtain ⟨t, run, keeper, mgmt⟩ := exec_identityDerivation_failed released blank whole h
    have fail : t.keeper.idFail = true := by rw [keeper]
    exact ⟨t, run, fail, by rw [keeper], mgmt, identity_of_idFail fail⟩

end Sys2Proof.Machine
end
section
/-! PROOFS. The keeper's election (02 R85-R88; 13 R504, R505): claims and their window, the lease and the handover, freezes and thaws. -/

namespace Sys2Proof.Machine

/-! ### Claims (02 R85) -/

theorem mem_addTo {α : Type} [DecidableEq α] {x a : α} {l : List α} : a ∈ addTo x l ↔ a = x ∨ a ∈ l := by
  unfold addTo
  split
  next listed => exact ⟨.inr, fun h => h.elim (fun e => e ▸ listed) id⟩
  next => rw [List.mem_append, List.mem_singleton, or_comm]

/-- A read of KEEPER_CLAIM by an agent that may read shows the keeper after its claim. -/
theorem exec_keeperClaim_claimed {s : State} {m : Mgmt} {k : KeeperSt} (r : s.mgmt.portReady = true)
    (thawed : s.isFrozen m.agent = false) (h : claim s m.agent = { s with keeper := k }) :
    exec (.keeperClaim m) s = .next (State.claimed s m k) := by
  show finish s (readClaim s m) = _
  simp only [readClaim, r, thawed, h, Bool.not_true, Bool.false_eq_true, if_false]
  rfl

theorem claim_unowned {s : State} (a : Nat) (h : s.keeper.ownership = .unowned) : claim s a =
    { s with keeper := { s.keeper with ownership := .contest, claimants := [a], claimAt := s.now } } := by
  simp [claim, h, State.updKeeper]

theorem claim_contest {s : State} (a : Nat) (h : s.keeper.ownership = .contest) (early : s.now ≤ s.keeper.claimAt + 1000) :
    claim s a = { s with keeper := { s.keeper with claimants := addTo a s.keeper.claimants } } := by
  simp [claim, h, early, State.updKeeper]

theorem claim_owned {s : State} (a : Nat) (h : s.keeper.ownership = .owned) : claim s a = s := by simp [claim, h]

theorem claim_successor {s : State} {a : Nat} (h : s.keeper.ownership = .handover) (named : s.keeper.successor = a)
    (early : s.now ≤ s.keeper.handoverAt + 1000000) : claim s a = { s with keeper :=
      { s.keeper with ownership := .owned, owner := a, claimants := [], leaseAt := s.now } } := by
  simp [claim, h, named, early, ownBy, restartLease, State.updKeeper]

theorem claim_not_successor {s : State} {a : Nat} (h : s.keeper.ownership = .handover) (other : s.keeper.successor ≠ a) :
    claim s a = s := by simp [claim, h, other]

/-! ### The close of the claim window (02 R85) -/

/-- A claimant that may win the election. -/
theorem freeClaimant_iff (s : State) (a : Nat) : (s.keeper.claimants.contains a && !s.isFrozen a) = true ↔
    a ∈ s.keeper.claimants ∧ s.isFrozen a = false := by simp

/-- The lowest claimant that is not frozen comes first. -/
theorem freeClaimants_lowest {s : State} {a : Nat} (agent : a < 8) (claims : a ∈ s.keeper.claimants)
    (thawed : s.isFrozen a = false) (lower : ∀ b, b < a → b ∈ s.keeper.claimants → s.isFrozen b = true) :
    s.freeClaimants.head? = some a := by
  rw [State.freeClaimants, List.head?_filter, List.find?_range_eq_some]
  refine ⟨(freeClaimant_iff s a).2 ⟨claims, thawed⟩, List.mem_range.2 agent, fun b below => ?_⟩
  rw [Bool.not_eq_true', ← Bool.not_eq_true, freeClaimant_iff]
  exact fun ⟨claims, thawed⟩ => Bool.noConfusion (thawed.symm.trans (lower b below claims))

theorem freeClaimants_none {s : State} (h : ∀ a, a < 8 → a ∈ s.keeper.claimants → s.isFrozen a = true) :
    s.freeClaimants = [] := by
  rw [State.freeClaimants, List.filter_eq_nil_iff]
  intro a agent
  rw [freeClaimant_iff]
  exact fun ⟨claims, thawed⟩ => Bool.noConfusion (thawed.symm.trans (h a (List.mem_range.1 agent) claims))

section
variable {s : State} (contest : s.keeper.ownership = .contest) (late : s.keeper.claimAt + 1000 ≤ s.now)
include contest late

theorem closeClaim_won {a : Nat} (h : s.freeClaimants.head? = some a) : closeClaim s = ownBy s a := by
  obtain ⟨rest, first⟩ := List.head?_eq_some_iff.1 h
  simp [closeClaim, contest, late, first]

theorem closeClaim_lost (h : s.freeClaimants = []) : closeClaim s = unown s := by
  simp [closeClaim, contest, late, h]

end

/-- Settles O11: a claim by the state of the election, and the close of the window by the first free claimant. -/
theorem electionGivesOneOwner : Obligations.ElectionGivesOneOwner := by
  unfold Obligations.ElectionGivesOneOwner
  refine ⟨fun m s r thawed => ⟨fun unowned => ?unowned, fun contest early => ?contest, fun owned => ?owned,
    fun handover named early => ?successor, fun handover other => ?other⟩,
    fun s contest late => ⟨fun a agent claims thawed lower => ?won, fun none => ?lost⟩⟩
  case unowned => exact exec_keeperClaim_claimed r thawed (claim_unowned _ unowned)
  case contest => exact ⟨_, exec_keeperClaim_claimed r thawed (claim_contest _ contest early), fun a => mem_addTo⟩
  case owned => exact exec_keeperClaim_claimed r thawed (claim_owned _ owned)
  case successor => exact exec_keeperClaim_claimed r thawed (claim_successor handover named early)
  case other => exact exec_keeperClaim_claimed r thawed (claim_not_successor handover other)
  case won =>
    show finishPlain s (closeClaim s) = _
    rw [closeClaim_won contest late (freeClaimants_lowest agent claims thawed lower)]
    rfl
  case lost =>
    show finishPlain s (closeClaim s) = _
    rw [closeClaim_lost contest late (freeClaimants_none none)]
    rfl

/-! ### The lease and the handover (02 R85, R86; 13 R504) -/

/-- An accepted write that leaves the writer the owner restarts the lease. -/
theorem State.accepted_owned {s t : State} {m : Mgmt} (h : t.owns m.agent = true) : State.accepted s m t =
    State.answered { t with keeper := { t.keeper with leaseAt := t.now }, pending := s.pending, now := s.now, mgmt := s.mgmt }
      m 0 0 := by
  rw [State.accepted, if_pos h]

theorem leaseLength_locked {s : State} (h : s.tally.everLocked = true) : s.leaseLength = 10000000 := if_pos h

/-- A lease is of 8 to 12 ms, whatever the tally (02 R86). -/
theorem leaseLength_bounds (s : State) : 8000000 ≤ s.leaseLength ∧ s.leaseLength ≤ 12000000 := by
  unfold State.leaseLength
  split <;> omega

theorem exec_leaseLapse_lapses {s : State} (owned : s.keeper.hasOwner = true) (late : s.keeper.leaseAt + s.leaseLength ≤ s.now) :
    exec .leaseLapse s = .next { s with keeper := { s.keeper with ownership := .unowned, claimants := [] } } := by
  show finishPlain s (lapseLease s) = _
  rw [lapseLease, if_pos (by simp [owned, late])]
  rfl

theorem exec_leaseLapse_holds {s : State} (early : s.now < s.keeper.leaseAt + s.leaseLength) :
    exec .leaseLapse s = .next s := by
  show finishPlain s (lapseLease s) = _
  rw [lapseLease, if_neg (by simp [early])]
  rfl

theorem owns_hasOwner {s : State} {a : Nat} (h : s.owns a = true) : s.keeper.hasOwner = true ∧ s.keeper.owner = a := by
  simpa [State.owns] using h

theorem writeHandover_frozen {s : State} (a : Nat) {d : W64} (go : bit d.toNat 3 = true)
    (frozen : s.isFrozen (bits d.toNat 0 3) = true) : writeHandover s a d = none := by
  simp [writeHandover, go, frozen]

theorem writeHandover_offered {s : State} {a : Nat} {d : W64} (owned : s.keeper.ownership = .owned) (go : bit d.toNat 3 = true)
    (other : bits d.toNat 0 3 ≠ a) (thawed : s.isFrozen (bits d.toNat 0 3) = false) : writeHandover s a d = some
      { s with keeper := { s.keeper with ownership := .handover, successor := bits d.toNat 0 3, handoverAt := s.now } } := by
  simp [writeHandover, go, other, thawed, owned, State.updKeeper]

theorem closeHandover_late {s : State} (handover : s.keeper.ownership = .handover)
    (late : s.keeper.handoverAt + 1000000 ≤ s.now) :
    closeHandover s = { s with keeper := { s.keeper with ownership := .owned } } := by
  simp [closeHandover, handover, late, State.updKeeper]

/-- Settles O12: writes by the gate, and the lapse by the bounds of a lease. -/
theorem leaseAndHandoverWindows : Obligations.LeaseAndHandoverWindows := by
  unfold Obligations.LeaseAndHandoverWindows
  refine fun m s => ⟨fun d may => ?lease, fun owned locked late => ?lapse, fun owned late => ?unlocked, fun _ early => ?holds,
    fun d may owned go other thawed => ?offer, fun d may go frozen => ?refused, fun handover late => ?close⟩
  case lease =>
    have ⟨_, _, owner⟩ := may
    have kept : (writeLease s d).owns m.agent = true := owner
    have written : exec (.keeperLease m d) s = .next (State.accepted s m (writeLease s d)) := mgmtWrite_accepted may rfl
    exact written.trans (congrArg _ (State.accepted_owned kept))
  case lapse => exact exec_leaseLapse_lapses owned (by rw [leaseLength_locked locked]; exact late)
  case unlocked =>
    have bounds := leaseLength_bounds s
    exact exec_leaseLapse_lapses owned (by omega)
  case holds =>
    have bounds := leaseLength_bounds s
    exact exec_leaseLapse_holds (by omega)
  case offer =>
    refine (mgmtWrite_accepted may (writeHandover_offered owned go other thawed)).trans (congrArg _ (State.accepted_owned ?_))
    obtain ⟨-, -, owner⟩ := may
    simp [State.owns, KeeperSt.hasOwner, (owns_hasOwner owner).2]
  case refused =>
    show finish s (mgmtWrite s m _) = _
    rw [mgmtWrite_rejected may (writeHandover_frozen _ go frozen), finish_answered]
  case close =>
    show finishPlain s (closeHandover s) = _
    rw [closeHandover_late handover late]
    rfl

/-! ### Freezes and thaws (02 R85, R87; 13 R505) -/

theorem isFrozen_eq_false_iff (s : State) (a : Nat) : s.isFrozen a = false ↔ s.cause a = 0 := by simp [State.isFrozen]

theorem cause_updKeeper_same (s : State) (a cause : Nat) :
    (s.updKeeper fun k => { k with causes := tabSet (fun _ => 0) k.causes a cause }).cause a = cause :=
  tabGet_tabSet_same _ _ _ _

theorem cause_updKeeper_other (s : State) {a b : Nat} (cause : Nat) (h : b ≠ a) :
    (s.updKeeper fun k => { k with causes := tabSet (fun _ => 0) k.causes a cause }).cause b = s.cause b :=
  tabGet_tabSet_other _ _ _ h

/-- Freezing an agent that is not frozen writes its cause; an owner's engine is UNOWNED besides. -/
theorem freezeAgent_thawed {s : State} {a : Nat} (cause : Nat) (thawed : s.isFrozen a = false) : freezeAgent s a cause =
    if s.owns a then unown (s.updKeeper fun k => { k with causes := tabSet (fun _ => 0) k.causes a cause })
    else s.updKeeper fun k => { k with causes := tabSet (fun _ => 0) k.causes a cause } := by
  simp [freezeAgent, thawed]

theorem freezeAgent_frozen {s : State} {a : Nat} (cause : Nat) (frozen : s.isFrozen a = true) : freezeAgent s a cause = s :=
  if_pos frozen

theorem cause_freezeAgent_same {s : State} {a : Nat} (cause : Nat) (thawed : s.isFrozen a = false) :
    (freezeAgent s a cause).cause a = cause := by
  rw [freezeAgent_thawed cause thawed]
  split <;> exact cause_updKeeper_same s a cause

theorem cause_freezeAgent_other (s : State) {a b : Nat} (cause : Nat) (h : b ≠ a) :
    (freezeAgent s a cause).cause b = s.cause b := by
  cases frozen : s.isFrozen a
  · rw [freezeAgent_thawed cause frozen]
    split <;> exact cause_updKeeper_other s cause h
  · rw [freezeAgent_frozen cause frozen]

/-- Freezing an agent that does not own the engine leaves the ownership alone. -/
theorem freezeAgent_ownership {s : State} {a : Nat} (cause : Nat) (n : s.owns a = false) :
    (freezeAgent s a cause).keeper.ownership = s.keeper.ownership ∧ (freezeAgent s a cause).keeper.owner = s.keeper.owner := by
  cases frozen : s.isFrozen a
  · rw [freezeAgent_stranger cause frozen n]
    exact ⟨rfl, rfl⟩
  · rw [freezeAgent_frozen cause frozen]
    exact ⟨rfl, rfl⟩

/-- Freezing an owner that is not frozen leaves the engine UNOWNED. -/
theorem freezeAgent_owner {s : State} {a : Nat} (cause : Nat) (thawed : s.isFrozen a = false) (o : s.owns a = true) :
    (freezeAgent s a cause).keeper.ownership = .unowned := by
  rw [freezeAgent_thawed cause thawed, if_pos o]
  rfl

/-- The agents of a list are frozen one after the other. -/
def freezeAll (s : State) (l : List Nat) : State := l.foldl (fun s a => freezeAgent s a causeOwner) s

theorem cause_freezeAll_frozen {s : State} {b : Nat} (l : List Nat) (frozen : s.isFrozen b = true) :
    (freezeAll s l).cause b = s.cause b := by
  induction l generalizing s with
  | nil => rfl
  | cons a l ih =>
    have same : (freezeAgent s a causeOwner).cause b = s.cause b := by
      by_cases e : b = a
      · rw [freezeAgent_frozen causeOwner (e ▸ frozen)]
      · exact cause_freezeAgent_other s causeOwner e
    have still : (freezeAgent s a causeOwner).isFrozen b = true := by rw [State.isFrozen, same]; exact frozen
    exact (ih still).trans same

theorem cause_freezeAll_thawed {s : State} {b : Nat} (l : List Nat) (thawed : s.isFrozen b = false) :
    (freezeAll s l).cause b = if b ∈ l then causeOwner else 0 := by
  induction l generalizing s with
  | nil => exact (isFrozen_eq_false_iff s b).1 thawed
  | cons a l ih =>
    by_cases e : b = a
    · subst e
      have cause := cause_freezeAgent_same causeOwner thawed
      have frozen : (freezeAgent s b causeOwner).isFrozen b = true := by rw [State.isFrozen, cause]; rfl
      rw [if_pos List.mem_cons_self]
      exact (cause_freezeAll_frozen l frozen).trans cause
    · have still : (freezeAgent s a causeOwner).isFrozen b = false := by
        rw [State.isFrozen, cause_freezeAgent_other s causeOwner e]
        exact thawed
      refine (ih still).trans ?_
      simp [e]

theorem freezeAll_unowned {s : State} (l : List Nat) (h : s.keeper.ownership = .unowned) :
    (freezeAll s l).keeper.ownership = .unowned := by
  induction l generalizing s with
  | nil => exact h
  | cons a l ih =>
    have stranger : s.owns a = false := by simp [State.owns, KeeperSt.hasOwner, h]
    exact ih ((freezeAgent_ownership causeOwner stranger).1.trans h)

/-- The engine becomes UNOWNED where its owner is among those frozen. -/
theorem freezeAll_ownership {s : State} {o : Nat} (l : List Nat) (thawed : s.isFrozen o = false) (owner : s.owns o = true) :
    (freezeAll s l).keeper.ownership = if o ∈ l then .unowned else s.keeper.ownership := by
  induction l generalizing s with
  | nil => rfl
  | cons a l ih =>
    by_cases e : o = a
    · subst e
      rw [if_pos List.mem_cons_self]
      exact freezeAll_unowned l (freezeAgent_owner causeOwner thawed owner)
    · have stranger : s.owns a = false := by
        obtain ⟨-, named⟩ := owns_hasOwner owner
        simp [State.owns, named, e]
      obtain ⟨kept, same⟩ := freezeAgent_ownership causeOwner stranger
      have still : (freezeAgent s a causeOwner).isFrozen o = false := by
        rw [State.isFrozen, cause_freezeAgent_other s causeOwner e]
        exact thawed
      have owns : (freezeAgent s a causeOwner).owns o = true := by
        rw [State.owns, KeeperSt.hasOwner, kept, same]
        exact owner
      refine (ih still owns).trans ?_
      simp [e, kept]

/-- The agents of a list are thawed one after the other. -/
def thawAll (s : State) (l : List Nat) : State := l.foldl thawAgent s

theorem cause_thawAll (s : State) (l : List Nat) (b : Nat) : (thawAll s l).cause b = if b ∈ l then 0 else s.cause b := by
  induction l generalizing s with
  | nil => rfl
  | cons a l ih =>
    refine (ih (thawAgent s a)).trans ?_
    by_cases e : b = a
    · subst e
      simp [thawAgent, cause_updKeeper_same]
    · simp [thawAgent, cause_updKeeper_other s 0 e, e]

theorem thawAll_ownership (s : State) (l : List Nat) : (thawAll s l).keeper.ownership = s.keeper.ownership :=
  List.foldlRecOn (motive := fun t : State => t.keeper.ownership = s.keeper.ownership) l thawAgent rfl fun _ kept _ _ => kept

/-- The agents that a word names, one bit each. -/
def namedAgents (d : W64) : List Nat := (List.range 8).filter (bit d.toNat)

theorem mem_namedAgents {d : W64} {a : Nat} (agent : a < 8) : a ∈ namedAgents d ↔ bit d.toNat a = true := by
  simp [namedAgents, agent]

theorem writeFreeze_eq (s : State) (d : W64) : writeFreeze s d = freezeAll s (namedAgents d) := rfl

theorem writeThaw_eq (s : State) (d : W64) : writeThaw s d = thawAll s (namedAgents d) := rfl

theorem State.accepted_cause (s t : State) (m : Mgmt) (a : Nat) : (State.accepted s m t).cause a = t.cause a := by
  unfold State.accepted; split <;> rfl

theorem State.accepted_ownership (s t : State) (m : Mgmt) :
    (State.accepted s m t).keeper.ownership = t.keeper.ownership := by
  unfold State.accepted; split <;> rfl

/-- Settles O13: both writes act on the agents named, one after the other, and each step concerns one agent alone. -/
theorem freezeAndThawNameAgents : Obligations.FreezeAndThawNameAgents := by
  unfold Obligations.FreezeAndThawNameAgents
  intro m d s may
  have freeze : exec (.keeperFreeze m d) s = .next (State.accepted s m (writeFreeze s d)) := mgmtWrite_accepted may rfl
  have thaw : exec (.keeperThaw m d) s = .next (State.accepted s m (writeThaw s d)) := mgmtWrite_accepted may rfl
  obtain ⟨-, thawed, owner⟩ := may
  refine ⟨⟨_, freeze, State.accepted_resp _ _ _, fun a agent => ?frozen, ?unowned⟩,
    ⟨_, thaw, State.accepted_resp _ _ _, fun a agent => ?thawed, ?kept⟩⟩
  case frozen =>
    rw [State.accepted_cause, writeFreeze_eq]
    cases frozen : s.isFrozen a
    · rw [cause_freezeAll_thawed _ frozen]
      simp only [mem_namedAgents agent]
      rfl
    · exact cause_freezeAll_frozen _ frozen
  case unowned =>
    rw [State.accepted_ownership, writeFreeze_eq, freezeAll_ownership _ thawed owner]
    simp only [mem_namedAgents m.agent.isLt]
  case thawed =>
    rw [State.accepted_cause, writeThaw_eq, cause_thawAll]
    simp only [mem_namedAgents agent]
  case kept => rw [State.accepted_ownership, writeThaw_eq, thawAll_ownership]

end Sys2Proof.Machine
end
section
/-! PROOFS. The image loader (02 R67-R69; 13 R507) and the owner's writes of member entries (02 R62, R78; 13 R502). -/

namespace Sys2Proof.Machine

/-! ### LOAD and DISCARD -/

/-- A read of bytes only puts transfers at the siphons. -/
theorem enqueueRead_form (s : State) (queue addr len : Nat) (via : Nat → Nat) (pur : Nat → Purpose) :
    ∃ p, enqueueRead s queue addr len via pur = { s with siphons := p } := by
  unfold enqueueRead
  refine List.foldlRecOn (motive := fun t : State => ∃ p, t = { s with siphons := p }) _ _ ⟨s.siphons, rfl⟩ ?_
  rintro _ ⟨p, rfl⟩ y _
  exact ⟨_, rfl⟩

theorem lengthBad_iff (len : Nat) : lengthBad len = true ↔ len < 64 ∨ 67108864 < len ∨ len % 64 ≠ 0 := by
  simp only [lengthBad, Bool.or_eq_true, decide_eq_true_eq, bne_iff_ne]
  omega

/-- The state in which LOAD checks the length: the staged image is gone, and what the loader has reported (02 R67). -/
def loadBegun (s : State) : State := s.updImg fun i => { i with
  loader := .loading, staged := none, hashMismatch := false, unparked := false, deferrals := 0, refusal := 0
  section_ := 0, index := 0, bytes := [], headerDone := false, fetchId := s.img.fetchId + 1 }

theorem loadImage_rejected {s : State} (h : s.img.loader = .loading ∨ s.img.swapping ≠ none) : loadImage s = none := by
  rcases h with loading | swapping
  · simp [loadImage, loading]
  · simp [loadImage, Option.isSome_iff_ne_none.2 swapping]

section
variable {s : State} (free : s.img.loader ≠ .loading) (settled : s.img.swapping = none)
include free settled

/-- 02 R68: a bad length is refused before anything is fetched. -/
theorem loadImage_badLength (bad : lengthBad s.img.len = true) :
    loadImage s = some (refuseImage (loadBegun s) refLength 0 0) := by
  simp only [loadImage, beq_eq_false_iff_ne.2 free, settled, bad, Option.isSome_none, Bool.or_self, Bool.false_eq_true, if_false,
    if_true]
  rfl

/-- 02 R68: the header of an image of a good length is asked for. -/
theorem loadImage_goodLength (good : lengthBad s.img.len = false) :
    ∃ p, loadImage s = some { loadBegun s with siphons := p } := by
  obtain ⟨p, asked⟩ := enqueueRead_form (loadBegun s) 256 s.img.base 64 siphonOf fun k => .image (s.img.fetchId + 1) k
  refine ⟨p, ?_⟩
  rw [← asked]
  simp only [loadImage, beq_eq_false_iff_ne.2 free, settled, good, Option.isSome_none, Bool.or_self, Bool.false_eq_true, if_false]
  rfl

end

/-- 13 R507: DISCARD leaves the loader idle and nothing staged. -/
theorem discardImage_form {s : State} (settled : s.img.swapping = none) : ∃ p, discardImage s = some { s with
    siphons := p
    img := { s.img with
      loader := .idle, staged := none, hashMismatch := false, unparked := false, deferrals := 0, bytes := []
      headerDone := false } } := by
  have free : s.img.swapping.isSome = false := by rw [settled]; rfl
  simp only [discardImage, free, Bool.false_eq_true, if_false]
  split <;> exact ⟨_, rfl⟩

theorem State.accepted_siphons (s t : State) (m : Mgmt) : (State.accepted s m t).siphons = t.siphons := by
  unfold State.accepted; split <;> rfl

section
variable {s : State} {m : Mgmt} (may : State.MayWrite s m)
include may

theorem exec_load_badLength (free : s.img.loader ≠ .loading) (settled : s.img.swapping = none)
    (bad : lengthBad s.img.len = true) : exec (.load m) s =
      .next (State.accepted s m (refuseImage (loadBegun s) refLength 0 0)) :=
  mgmtWrite_accepted may (loadImage_badLength free settled bad)

theorem exec_load_goodLength (free : s.img.loader ≠ .loading) (settled : s.img.swapping = none)
    (good : lengthBad s.img.len = false) : ∃ p, exec (.load m) s =
      .next (State.accepted s m { loadBegun s with siphons := p }) := by
  obtain ⟨p, e⟩ := loadImage_goodLength free settled good
  exact ⟨p, mgmtWrite_accepted may e⟩

theorem exec_load_rejected (h : s.img.loader = .loading ∨ s.img.swapping ≠ none) :
    exec (.load m) s = .next (State.answered s m 1 0) := by
  show finish s (mgmtWrite s m loadImage) = _
  rw [mgmtWrite_rejected may (loadImage_rejected h), finish_answered]

end

/-! ### The checks of a fetched image (02 R68, R69) -/

/-- The fetch of an image is complete: its checks are due. -/
structure State.Fetched (s : State) : Prop where
  loading : s.img.loader = .loading
  header : s.img.headerDone = true
  back : s.imageXfers = []

/-- What the checks of the fetched image give: the first failure, if any, and the image. -/
def State.imageCheck (s : State) : Option Check × Image :=
  checkImage (bytesOf s.img.len s.img.bytes) s.img.len s.me s.ownStates

theorem checkFetched_refused {s : State} {e : Check} {im : Image} (h : s.Fetched) (fails : s.imageCheck = (some e, im)) :
    checkFetched s = refuseImage s e.code e.sec e.idx := by
  rw [State.imageCheck] at fails
  simp [checkFetched, h.loading, h.header, h.back, fails]

theorem checkFetched_staged {s : State} {im : Image} (h : s.Fetched) (passes : s.imageCheck = (none, im)) :
    checkFetched s = s.updImg fun i => { i with loader := .staged, staged := some im, bytes := [], headerDone := false } := by
  rw [State.imageCheck] at passes
  simp [checkFetched, h.loading, h.header, h.back, passes]

theorem exec_imageCheck (s : State) : exec .imageCheck s = .next (State.plain s (checkFetched s)) := rfl

/-- Settles O14: LOAD by the length, DISCARD, and the checks by whether one fails. -/
theorem imagesLoadAndStage : Obligations.ImagesLoadAndStage := by
  unfold Obligations.ImagesLoadAndStage
  refine ⟨fun m s may => ⟨fun free settled => ?load, exec_load_rejected may, fun settled => ?discard⟩,
    fun s loading header back => ?check⟩
  case load =>
    cases bad : lengthBad s.img.len
    · obtain ⟨p, run⟩ := exec_load_goodLength may free settled bad
      refine ⟨_, run, ?_⟩
      rw [State.accepted_img]
      exact ⟨rfl, rfl, rfl, rfl, rfl, fun _ => rfl, fun h => absurd ((lengthBad_iff _).2 h) (by simp [bad])⟩
    · refine ⟨_, exec_load_badLength may free settled bad, ?_⟩
      rw [State.accepted_img, State.accepted_siphons]
      have range := (lengthBad_iff _).1 bad
      exact ⟨rfl, rfl, rfl, rfl, rfl, fun h => by omega, fun _ => ⟨rfl, rfl, rfl⟩⟩
  case discard =>
    obtain ⟨p, taken⟩ := discardImage_form settled
    refine ⟨_, mgmtWrite_accepted may taken, ?_⟩
    rw [State.accepted_img, State.accepted_groups]
    exact ⟨rfl, rfl, rfl, rfl⟩
  case check =>
    have fetched : s.Fetched := ⟨loading, header, back⟩
    refine ⟨_, exec_imageCheck s, ?_⟩
    show _ ∧ (∀ e im, s.imageCheck = (some e, im) → _) ∧ (∀ im, s.imageCheck = (none, im) → _) ∧ _
    cases found : s.imageCheck with
    | mk failure im =>
      cases failure with
      | some e =>
        rw [checkFetched_refused fetched found]
        refine ⟨rfl, fun e' im' same => ?_, nofun, rfl, rfl, rfl⟩
        cases same
        exact ⟨rfl, rfl, rfl, rfl, rfl⟩
      | none =>
        rw [checkFetched_staged fetched found]
        refine ⟨rfl, nofun, fun im' same => ?_, rfl, rfl, rfl⟩
        cases same
        exact ⟨rfl, rfl⟩

/-! ### Member entries (02 R62, R78; 13 R502) -/

theorem State.member_setMember_other (s : State) {i j : Nat} (x : Member) (h : j ≠ i) :
    (s.setMember i x).member j = s.member j := tabGet_tabSet_other _ _ _ h

/-- The entry of another die has no copies. -/
theorem setEntry_other {s : State} {i : Nat} (g : Nat) (m : Member) (h : (s.member i).dieAddr ≠ s.me) :
    s.setEntry g i m = s.setMember i m := if_neg (by simpa using h)

theorem openState_iff (st : Nat) : openState st = true ↔ st = 0 ∨ st = 4 ∨ st = 5 := by
  simp [openState, stVacant, stQuarantine, stEvicted, or_assoc]

/-- 02 R78: the transitions that an owner may make. -/
theorem ownerMay_iff (old new : Nat) : ownerMay old new = true ↔ old = new ∨ ((old = 0 ∨ old = 4 ∨ old = 5) ∧ new = 2) ∨
    (old = 2 ∧ new = 0) ∨ (old = 1 ∧ new = 3) ∨ (old = 3 ∧ new = 1) := by
  simp [ownerMay, openState_iff, stVacant, stActive, stAdmit, stEvict, or_assoc]

theorem refreshQuarantine_form (s : State) : ∃ k, refreshQuarantine s = { s with keeper := k } := by
  obtain ⟨k, e⟩ := refreshPhase_form (s.updKeeper fun k => { k with quarantine := s.quarantined })
  exact ⟨k, e⟩

theorem refreshQuarantine_member (s : State) (i : Nat) : (refreshQuarantine s).member i = s.member i := by
  obtain ⟨k, e⟩ := refreshQuarantine_form s
  rw [e]
  rfl

/-- The entry after a write of word 0. -/
def Member.write0 (m : Member) (d : W64) : Member :=
  { m with
    dieAddr := bits d.toNat 0 18, state := bits d.toNat 21 3
    afterQ := bits d.toNat 21 3 == stAdmit && (m.state == stQuarantine || (m.state == stAdmit && m.afterQ)) }

section
variable {s : State} {i g : Nat} {d : W64}

theorem writeMember0_rejected (bad : ownerMay (s.member i).state (bits d.toNat 21 3) = false) : writeMember0 s g i d = none := by
  simp [writeMember0, bad]

/-- A write that keeps DIE_ADDR takes every transition that an owner may make. -/
theorem writeMember0_kept (same : bits d.toNat 0 18 = (s.member i).dieAddr)
    (allowed : ownerMay (s.member i).state (bits d.toNat 21 3) = true) : writeMember0 s g i d =
      some (refreshQuarantine (s.setEntry g i ((s.member i).write0 d))) := by
  simp [writeMember0, same, allowed, Member.write0]

theorem writeMember_word0 (owned : s.groupOf i = some g) : writeMember s i 0 d = writeMember0 s g i d := by
  simp [writeMember, owned]

theorem writeMember_word1 (owned : s.groupOf i = some g) : writeMember s i 1 d =
    if openState (s.member i).state then some (s.setEntry g i { s.member i with idCheck := d }) else none := by
  simp [writeMember, owned]

end

theorem State.accepted_member (s t : State) (m : Mgmt) (i : Nat) : (State.accepted s m t).member i = t.member i := by
  unfold State.accepted; split <;> rfl

section
variable {s t : State} {m : Mgmt} {i : Fin 131072} {w : Fin 2} {d : W64} (may : State.MayWrite s m)
include may

theorem exec_memberEntryWrite_accepted (e : writeMember s i w d = some t) :
    exec (.memberEntryWrite m i w d) s = .next (State.accepted s m t) := mgmtWrite_accepted may e

theorem exec_memberEntryWrite_rejected (e : writeMember s i w d = none) :
    exec (.memberEntryWrite m i w d) s = .next (State.answered s m 1 0) := by
  show finish s (mgmtWrite s m _) = _
  rw [mgmtWrite_rejected may e, finish_answered]

end

/-- Settles O16: word 1 by the state alone, and word 0 by the transitions of an owner; an entry of another die has one copy. -/
theorem memberEntryWritesFollowState : Obligations.MemberEntryWritesFollowState := by
  unfold Obligations.MemberEntryWritesFollowState
  refine fun m i d g s may owned => ⟨fun closed => ?closed, fun opened other => ?opened, fun same old new => ?word0⟩
  case closed =>
    refine exec_memberEntryWrite_rejected may ((writeMember_word1 owned).trans (if_neg ?_))
    rw [openState_iff]
    omega
  case opened =>
    have taken := (writeMember_word1 (d := d) owned).trans (if_pos ((openState_iff _).2 opened))
    refine ⟨_, exec_memberEntryWrite_accepted may taken, ?_⟩
    rw [setEntry_other g _ other, State.accepted_groups]
    refine ⟨?_, fun j apart => ?_, rfl⟩ <;> rw [State.accepted_member]
    · exact State.member_setMember _ _ _
    · exact State.member_setMember_other s _ apart
  case word0 =>
    rintro rfl rfl
    rw [← ownerMay_iff]
    refine ⟨fun barred => ?_, fun allowed other => ?_⟩
    · exact exec_memberEntryWrite_rejected may ((writeMember_word0 owned).trans (writeMember0_rejected (Bool.eq_false_iff.2 barred)))
    · have taken := (writeMember_word0 owned).trans (writeMember0_kept (g := g) same allowed)
      refine ⟨_, exec_memberEntryWrite_accepted may taken, ?_⟩
      simp only [State.accepted_member, refreshQuarantine_member, setEntry_other g _ other, State.member_setMember]
      exact ⟨rfl, same, rfl, rfl, rfl, fun j apart => State.member_setMember_other s _ apart⟩

end Sys2Proof.Machine
end
section
/-! PROOFS. The start of BARRIER and MARK (02 R77; 08 R326, R329-R331): an entry that is taken, the tokens that came before it, the die
wire or the group phase of a BARRIER, and the weir of a MARK. -/

namespace Sys2Proof.Machine

/-! ### An entry that is taken -/

section
variable {s : State} {q c opcode : Nat} {o : Op}

/-- An entry that waits with its opcode is taken: it runs. -/
theorem takeEntry_dispatchable (go : State → Op → State) (h : State.dispatchable s q c opcode o) :
    takeEntry s q c opcode go = go (s.updOp q c fun _ => { o with running := true }) { o with running := true } := by
  obtain ⟨found, opc, idle, open_⟩ := h
  simp [takeEntry, found, opc, idle, open_]

/-- The taken entry is found under its queue and count. -/
theorem op?_taken (h : State.dispatchable s q c opcode o) :
    (s.updOp q c fun _ => { o with running := true }).op? q c = some { o with running := true } := by
  obtain ⟨found, -⟩ := h
  have named : Op.is { o with running := true } q c = true := (Op.is_iff _ q c).2 (State.op?_is (o := o) found)
  have found' := find?_mapIf_same (fun o => Op.is o q c) (fun _ => { o with running := true }) s.ops fun _ _ => named
  exact found'.trans (congrArg (Option.map _) found)

end

theorem exec_barrier_dispatchable {s : State} {q : Fin 256} {c : Nat} {o : Op} (h : State.dispatchable s q c 0x0A o) :
    exec (.barrier q c) s = .next (State.plain s (startBarrier (s.updOp q c fun _ => { o with running := true })
      { o with running := true })) :=
  congrArg (finishPlain s) (takeEntry_dispatchable startBarrier h)

theorem exec_mark_dispatchable {s : State} {q : Fin 256} {c : Nat} {o : Op} (h : State.dispatchable s q c 0x0E o) :
    exec (.mark q c) s = .next (State.plain s (startMark (s.updOp q c fun _ => { o with running := true })
      { o with running := true })) :=
  congrArg (finishPlain s) (takeEntry_dispatchable startMark h)

/-! ### The step timer -/

/-- Starting or stopping the step timer of a group changes nothing else. -/
theorem refreshTimer_form (s : State) (g : Nat) : ∃ at_, refreshTimer s g = s.updGroup g fun x => { x with timerAt := at_ } := by
  unfold refreshTimer
  split
  · exact ⟨some ((s.group g).timerAt.getD s.now), rfl⟩
  · exact ⟨none, rfl⟩

/-- A fact of a group that does not speak of its step timer. -/
theorem group_refreshTimer {β : Type} (p : GroupSt → β) (free : ∀ x at_, p { x with timerAt := at_ } = p x) (s : State) (g h : Nat) :
    p ((refreshTimer s g).group h) = p (s.group h) := by
  obtain ⟨at_, e⟩ := refreshTimer_form s g
  rw [e]
  exact State.group_updGroup_keeps (free _ _) h

/-! ### What a halt leaves of the die wires and of the groups -/

/-- The die wires stay as they are, and every group is halted, for its cause, or is not, as before. -/
structure State.SameStanding (s t : State) : Prop where
  weirs : t.sync.weirs = s.sync.weirs
  misuse : t.sync.weirMisuse = s.sync.weirMisuse
  halted : ∀ g, (t.group g).halted = (s.group g).halted
  cause : ∀ g, (t.group g).haltCause = (s.group g).haltCause

theorem State.SameStanding.refl (s : State) : s.SameStanding s := ⟨rfl, rfl, fun _ => rfl, fun _ => rfl⟩

theorem State.SameStanding.trans {s t u : State} (h : s.SameStanding t) (k : t.SameStanding u) : s.SameStanding u :=
  ⟨k.weirs.trans h.weirs, k.misuse.trans h.misuse, fun g => (k.halted g).trans (h.halted g), fun g => (k.cause g).trans (h.cause g)⟩

/-- An update of a group that leaves it halted or running, and its cause. -/
theorem State.sameStanding_updGroup (s : State) (g : Nat) {f : GroupSt → GroupSt} (halted : (f (s.group g)).halted = (s.group g).halted)
    (cause : (f (s.group g)).haltCause = (s.group g).haltCause) : s.SameStanding (s.updGroup g f) :=
  ⟨rfl, rfl, State.group_updGroup_keeps halted, State.group_updGroup_keeps cause⟩

theorem refreshTimer_sameStanding (s : State) (g : Nat) : s.SameStanding (refreshTimer s g) :=
  ⟨rfl, rfl, group_refreshTimer GroupSt.halted (fun _ _ => rfl) s g, group_refreshTimer GroupSt.haltCause (fun _ _ => rfl) s g⟩

theorem State.sameStanding_ite {c : Prop} [Decidable c] {s t u : State} (yes : s.SameStanding t) (no : s.SameStanding u) :
    s.SameStanding (if c then t else u) := by
  split
  · exact yes
  · exact no

theorem endOp_sameStanding (s : State) (q c st : Nat) : s.SameStanding (endOp s q c st) := by
  unfold endOp
  split
  next => exact .refl s
  next o _ =>
    refine State.sameStanding_ite (.refl s) ?_
    split
    next => exact ⟨rfl, rfl, fun _ => rfl, fun _ => rfl⟩
    next =>
      have ended : ∀ f, s.SameStanding (((dropTransfers s q c).updSync fun y =>
          { y with waiters := y.waiters.filter fun w => !(w.q == q && w.c == c) }).updOp q c f) :=
        fun _ => ⟨rfl, rfl, fun _ => rfl, fun _ => rfl⟩
      refine .trans (State.sameStanding_ite (.trans ?_ (refreshTimer_sameStanding _ _)) (ended _))
        ⟨rfl, rfl, fun _ => rfl, fun _ => rfl⟩
      exact (ended _).trans (State.sameStanding_updGroup _ _ rfl rfl)

theorem endWhere_sameStanding (s : State) (p : Op → Bool) (st : Op → Nat) : s.SameStanding (endWhere s p st) :=
  List.foldlRecOn (motive := fun t => s.SameStanding t) _ _ (.refl s) fun t k o _ => k.trans (endOp_sameStanding t o.q o.c (st o))

theorem sendHalt_sameStanding (s : State) (g cause : Nat) (missing : List Nat) : s.SameStanding (sendHalt s g cause missing) := by
  unfold sendHalt
  split
  · obtain ⟨l, e⟩ := sendAll_form s (s.allPeers g)
      (.halt { src := s.me, c := commonNow s g, cause, missing := missing.take 8 })
    rw [e]
    exact ⟨rfl, rfl, fun _ => rfl, fun _ => rfl⟩
  · exact .refl s

/-- The group is halted for a cause, and the die wires stay as they are. -/
structure State.HaltedFor (s t : State) (g cause : Nat) : Prop where
  weirs : t.sync.weirs = s.sync.weirs
  misuse : t.sync.weirMisuse = s.sync.weirMisuse
  halted : (t.group g).halted = true
  cause : (t.group g).haltCause = cause

theorem State.HaltedFor.trans {s t u : State} {g cause : Nat} (h : s.HaltedFor t g cause) (k : t.SameStanding u) :
    s.HaltedFor u g cause :=
  ⟨k.weirs.trans h.weirs, k.misuse.trans h.misuse, (k.halted g).trans h.halted, (k.cause g).trans h.cause⟩

theorem State.haltedFor_updGroup {s : State} {g cause : Nat} {f : GroupSt → GroupSt} (halted : (f (s.group g)).halted = true)
    (for_ : (f (s.group g)).haltCause = cause) : s.HaltedFor (s.updGroup g f) g cause :=
  ⟨rfl, rfl, by rw [State.group_updGroup_same, halted], by rw [State.group_updGroup_same, for_]⟩

section
variable {s : State} {g : Nat}

/-- A halt of a group that runs (03 R130). -/
theorem haltGroup_haltedFor (cause : Nat) (st : Op → Nat) (valid : (s.gr g).valid = true) (runs : (s.group g).halted = false) :
    s.HaltedFor (haltGroup s g cause st) g cause := by
  have queue : ∀ (t : State) q f, t.SameStanding (t.updQueue q f) := fun _ _ _ => ⟨rfl, rfl, fun _ => rfl, fun _ => rfl⟩
  unfold haltGroup
  rw [if_neg (by simp [valid, runs])]
  refine .trans ?_ (State.sameStanding_ite (.refl _) (queue _ _ _))
  refine .trans (.trans ?_ (queue _ _ _)) (queue _ _ _)
  have quiet : ∀ t : State, t.SameStanding (t.updSync fun y => { y with quietSince := none }) :=
    fun _ => ⟨rfl, rfl, fun _ => rfl, fun _ => rfl⟩
  refine .trans (.trans ?_ (quiet _)) (endWhere_sameStanding _ _ _)
  exact State.haltedFor_updGroup rfl rfl

/-- A halt that is told to the peers. -/
theorem haltNaming_haltedFor (cause : Nat) (st : Op → Nat) (missing : List Nat) (valid : (s.gr g).valid = true)
    (runs : (s.group g).halted = false) : s.HaltedFor (haltNaming s g cause st missing) g cause := by
  rw [haltNaming, if_neg (by simp [valid, runs])]
  refine .trans (.trans (haltGroup_haltedFor cause st valid runs) (sendHalt_sameStanding _ g cause missing)) ?_
  exact ⟨rfl, rfl, fun _ => rfl, fun _ => rfl⟩

/-- A halt concerns no die wire, whether it comes to be or not. -/
theorem haltMismatched_weirs : (haltMismatched s g).sync.weirs = s.sync.weirs ∧
    (haltMismatched s g).sync.weirMisuse = s.sync.weirMisuse := by
  by_cases running : (s.gr g).valid = true ∧ (s.group g).halted = false
  · obtain ⟨valid, runs⟩ := running
    have halted := haltNaming_haltedFor haltMismatch endMismatch [] valid runs
    exact ⟨halted.weirs, halted.misuse⟩
  · have stays : haltMismatched s g = s := if_pos (by simpa [Classical.or_iff_not_imp_right] using running)
    rw [stays]
    exact ⟨rfl, rfl⟩

end

end Sys2Proof.Machine
end
section
/-! PROOFS. The start of a BARRIER (08 R326, R329-R331): its die entry, the misuse of a wire that is entered already, and its group
phase, in which the entry keeps running until the release. -/

namespace Sys2Proof.Machine

/-- Where no token came before it, a BARRIER begins at once. -/
theorem startBarrier_eq {t : State} {r : Op} (found : t.op? r.q r.c = some r) (fresh : t.toksOf r = []) (open_ : r.ended = none)
    (grouped : r.desc.noGroup = false) : startBarrier t r = refreshTimer (barrierStart t r) r.desc.group := by
  have none : replayTokens t r.q r.c = t := by simp [replayTokens, found, fresh]
  simp [startBarrier, none, found, open_, timeEntry, grouped]

/-- The generation of a group's weir is entered. -/
def genOpened (s : State) (g : Nat) : State := s.updGroup g fun x => { x with genActive := true }

theorem genOpened_genActive (s : State) (g : Nat) : ((genOpened s g).group g).genActive = true := by
  rw [genOpened, State.group_updGroup_same]

theorem genOpened_group {β : Type} (p : GroupSt → β) (free : ∀ x, p { x with genActive := true } = p x) (s : State) (g h : Nat) :
    p ((genOpened s g).group h) = p (s.group h) := State.group_updGroup_keeps (free _) h

theorem State.weir_setWeir_other (s : State) {v w : Nat} (x : Weir) (h : v ≠ w) : (s.setWeir w x).weir v = s.weir v :=
  tabGet_tabSet_other _ _ _ h

/-! ### The die wire (08 R326, R331) -/

section
variable {t : State} {r : Op} (wired : bit r.desc.aux16 6 = true)
include wired

theorem barrierStart_enters (out : (t.weir (bits r.desc.aux16 0 6)).entered = false) :
    barrierStart t r = invertInput (genOpened t r.desc.group) (bits r.desc.aux16 0 6) := by
  have out' : ((genOpened t r.desc.group).weir (bits r.desc.aux16 0 6)).entered = false := out
  unfold barrierStart
  dsimp only
  rw [if_pos wired, ← genOpened, out']
  rfl

/-- The state in which a wire entered twice halts the group. -/
def wireMisused (t : State) (g n : Nat) : State :=
  ((genOpened t g).setWeir n { t.weir n with misuse := true }).updSync fun y => { y with weirMisuse := true }

theorem barrierStart_misuse (entered : (t.weir (bits r.desc.aux16 0 6)).entered = true) :
    barrierStart t r = haltMismatched (wireMisused t r.desc.group (bits r.desc.aux16 0 6)) r.desc.group := by
  have entered' : ((genOpened t r.desc.group).weir (bits r.desc.aux16 0 6)).entered = true := entered
  unfold barrierStart
  dsimp only
  rw [if_pos wired, ← genOpened, if_pos entered']
  rfl

end

/-! ### The group phase (08 R329, R330) -/

/-- A BARRIER in its group phase or past it, which has reached some stages. -/
structure Op.InGroupPhase (y : Op) (reached : List Nat) : Prop where
  opcode : y.desc.opcode = opBarrier
  running : y.running = true
  open_ : y.ended = none
  bar : y.bar = 1 ∨ (y.bar = 3 ∧ y.ready = true)
  stages : ∀ i ∈ reached, i ∈ y.coll.reached

/-- The BARRIER of a queue and count is in its group phase, in an entered generation, and the die wires are as given. -/
structure State.InGroupPhase (weirs : Tab Weir) (o : Op) (reached : List Nat) (s : State) : Prop where
  weirs : s.sync.weirs = weirs
  active : (s.group o.desc.group).genActive = true
  entry : ∃ y, s.op? o.q o.c = some y ∧ y.InGroupPhase reached

section
variable {weirs : Tab Weir} {o : Op} {reached : List Nat} {s : State}

theorem State.InGroupPhase.mono {reached' : List Nat} (h : s.InGroupPhase weirs o reached) (sub : ∀ i ∈ reached', i ∈ reached) :
    s.InGroupPhase weirs o reached' := by
  obtain ⟨same, active, y, found, opcode, running, open_, bar, stages⟩ := h
  exact ⟨same, active, y, found, opcode, running, open_, bar, fun i listed => stages i (sub i listed)⟩

/-- An update of the entry that keeps it in its group phase. -/
theorem State.InGroupPhase.updOp {reached' : List Nat} (h : s.InGroupPhase weirs o reached) (f : Op → Op)
    (named : ∀ y : Op, (f y).q = y.q ∧ (f y).c = y.c) (keeps : ∀ y, y.InGroupPhase reached → (f y).InGroupPhase reached') :
    (s.updOp o.q o.c f).InGroupPhase weirs o reached' := by
  obtain ⟨same, active, y, found, phase⟩ := h
  exact ⟨same, active, f y, by rw [State.op?_updOp s _ _ f named, found]; rfl, keeps y phase⟩

theorem State.InGroupPhase.sendAll (h : s.InGroupPhase weirs o reached) (dests : List Nat) (b : Body) :
    (sendAll s dests b).InGroupPhase weirs o reached := by
  obtain ⟨l, e⟩ := sendAll_form s dests b
  rw [e]
  exact ⟨h.weirs, h.active, h.entry⟩

theorem State.InGroupPhase.settleOp (h : s.InGroupPhase weirs o reached) :
    (settleOp s o.q o.c).InGroupPhase weirs o reached := by
  have ⟨_, _, y, found, phase⟩ := h
  have opcode : (y.desc.opcode == opBarrier) = true := beq_iff_eq.2 phase.opcode
  unfold Machine.settleOp
  rw [found]
  dsimp only
  split
  · exact h
  rw [if_pos (by simp [opcode])]
  exact h.updOp _ (fun _ => ⟨rfl, rfl⟩) fun y phase =>
    ⟨phase.opcode, phase.running, phase.open_, phase.bar, phase.stages⟩

theorem State.InGroupPhase.refreshTimer (h : s.InGroupPhase weirs o reached) (g : Nat) :
    (refreshTimer s g).InGroupPhase weirs o reached :=
  ⟨h.weirs, (group_refreshTimer GroupSt.genActive (fun _ _ => rfl) s g _).trans h.active, h.entry⟩

/-- A BARRIER reaches a stage, and sends its tokens there. -/
def barrierReach (o : Op) (i st : Nat) (s : State) : State :=
  if o.coll.reached.contains i then s
  else
    let s := s.updOp o.q o.c fun o => { o with coll := { o.coll with reached := addTo i o.coll.reached } }
    if s.mayTradeIn o.desc.group then sendAll s (s.peers o.desc.group st) (.token (tokenOf s o st)) else s

theorem barrierWalk_cons (o : Op) (i st : Nat) (rest : List (Nat × Nat)) (s : State) :
    barrierWalk o ((i, st) :: rest) s = if ((barrierReach o i st s).peers o.desc.group st).all fun d =>
      ((barrierReach o i st s).toksOf o).any fun t =>
        t.2.src == d && t.2.c.stage == st && t.2.gen == ((barrierReach o i st s).group o.desc.group).gen
    then barrierWalk o rest (barrierReach o i st s) else barrierReach o i st s := rfl

theorem State.InGroupPhase.barrierReach (h : s.InGroupPhase weirs o reached) (from_ : ∀ i ∈ o.coll.reached, i ∈ reached) (i st : Nat) :
    (barrierReach o i st s).InGroupPhase weirs o (i :: reached) := by
  unfold Machine.barrierReach
  split
  next known =>
    refine h.mono fun j listed => ?_
    rcases List.mem_cons.1 listed with rfl | listed
    · exact from_ j (by simpa using known)
    · exact listed
  next =>
    have reaches : (s.updOp o.q o.c fun o => { o with coll := { o.coll with reached := addTo i o.coll.reached } }).InGroupPhase
        weirs o (i :: reached) := h.updOp _ (fun _ => ⟨rfl, rfl⟩) fun y phase =>
      ⟨phase.opcode, phase.running, phase.open_, phase.bar, fun j listed =>
        mem_addTo.2 ((List.mem_cons.1 listed).imp_right (phase.stages j))⟩
    dsimp only
    split
    · exact reaches.sendAll _ _
    · exact reaches

/-- The release of a BARRIER that uses no wire ends its group phase. -/
theorem State.InGroupPhase.barrierRelease (h : s.InGroupPhase weirs o reached) (unwired : bit o.desc.aux16 6 = false) :
    (barrierRelease s o).InGroupPhase weirs o reached := by
  rw [Machine.barrierRelease, if_neg (by simp [unwired])]
  exact (h.updOp (fun o => { o with bar := 3, ready := true }) (fun _ => ⟨rfl, rfl⟩) fun y phase =>
    ⟨phase.opcode, phase.running, phase.open_, .inr ⟨rfl, rfl⟩, phase.stages⟩).settleOp

theorem State.InGroupPhase.barrierWalk (l : List (Nat × Nat)) (h : s.InGroupPhase weirs o reached)
    (from_ : ∀ i ∈ o.coll.reached, i ∈ reached) (unwired : bit o.desc.aux16 6 = false) :
    (barrierWalk o l s).InGroupPhase weirs o (l.head?.toList.map (·.1) ++ reached) := by
  induction l generalizing s reached with
  | nil => exact h.barrierRelease unwired
  | cons p rest ih =>
    obtain ⟨i, st⟩ := p
    have reaches := h.barrierReach from_ i st
    rw [barrierWalk_cons]
    split
    · exact (ih reaches fun j listed => List.mem_cons_of_mem _ (from_ j listed)).mono fun j => List.mem_append_right _
    · exact reaches

end

/-- The first stage, as an index, of a list of stages. -/
theorem zip_range_head? {α : Type} {l : List α} (h : l ≠ []) :
    ((List.range l.length).zip l).head?.toList.map (·.1) = [0] := by
  cases l with
  | nil => exact absurd rfl h
  | cons a l => simp [List.range_succ_eq_map]

section
variable {t : State} {r : Op}

theorem barrierStart_group (unwired : bit r.desc.aux16 6 = false) : barrierStart t r =
    barrierStep ((genOpened t r.desc.group).updOp r.q r.c fun o => { o with bar := 1 }) r.q r.c := by
  unfold barrierStart
  dsimp only
  rw [if_neg (by simp [unwired])]
  rfl

/-- The BARRIER of an entry has entered its group phase. -/
def phaseEntered (t : State) (r : Op) : State := (genOpened t r.desc.group).updOp r.q r.c fun o => { o with bar := 1 }

theorem op?_phaseEntered (found : t.op? r.q r.c = some r) :
    (phaseEntered t r).op? r.q r.c = some { r with bar := 1 } :=
  (State.op?_updOp _ r.q r.c (fun o => { o with bar := 1 }) fun _ => ⟨rfl, rfl⟩).trans (congrArg (Option.map _) found)

theorem gr_phaseEntered : (phaseEntered t r).gr r.desc.group = t.gr r.desc.group :=
  genOpened_group GroupSt.gr (fun _ => rfl) t _ _

/-- 08 R329: without a wire a BARRIER enters its group phase at once, and reaches its first stage. -/
theorem barrierStart_inGroupPhase (unwired : bit r.desc.aux16 6 = false) (found : t.op? r.q r.c = some r)
    (opcode : r.desc.opcode = opBarrier) (running : r.running = true) (open_ : r.ended = none) : ∃ reached, (barrierStart t r).InGroupPhase t.sync.weirs r reached ∧
      (enabled (t.gr r.desc.group).stageMask ≠ [] → 0 ∈ reached) := by
  have entry := op?_phaseEntered found
  have phase : (phaseEntered t r).InGroupPhase t.sync.weirs { r with bar := 1 } r.coll.reached :=
    ⟨rfl, genOpened_genActive t r.desc.group, _, entry, opcode, running, open_, .inl rfl, fun _ => id⟩
  have step : barrierStart t r = barrierWalk { r with bar := 1 }
      ((List.range (enabled (t.gr r.desc.group).stageMask).length).zip (enabled (t.gr r.desc.group).stageMask))
      (phaseEntered t r) := by
    rw [barrierStart_group unwired, ← phaseEntered, barrierStep, entry, ← gr_phaseEntered]
    simp only [opcode, running, open_, beq_self_eq_true, Option.isNone_none, Bool.and_self, if_true]
  obtain ⟨same, active, entry'⟩ := phase.barrierWalk ((List.range (enabled (t.gr r.desc.group).stageMask).length).zip
    (enabled (t.gr r.desc.group).stageMask)) (fun _ => id) unwired
  rw [step]
  exact ⟨_, ⟨same, active, entry'⟩, fun some => List.mem_append_left _ (by rw [zip_range_head? some]; exact List.mem_singleton.2 rfl)⟩

end

end Sys2Proof.Machine
end
section
/-! PROOFS. The start of a MARK (02 R77, R79): the tokens that came before it change nothing but its own entry, its weir carries the
hash and the pending changes of that moment to the end, and the statement about both operations. -/

namespace Sys2Proof.Machine

/-! ### What the weir reads of the member table -/

/-- Two states with the same member table, group records, image and die address. -/
structure State.SameTable (s t : State) : Prop where
  members : t.members = s.members
  img : t.img = s.img
  me : t.me = s.me
  gr : ∀ g, t.gr g = s.gr g

section
variable {s t : State} (h : s.SameTable t)
include h

theorem State.SameTable.slots (g st : Nat) : t.slots g st = s.slots g st := by
  simp only [State.slots, State.member, h.gr, h.members]

theorem State.SameTable.groupEntries (g : Nat) : t.groupEntries g = s.groupEntries g := by
  simp only [State.groupEntries, h.gr, h.slots]

theorem State.SameTable.pending_ (g : Nat) : t.pending_ g = s.pending_ g := by
  simp only [State.pending_, h.groupEntries]

theorem State.SameTable.stagedHash : t.stagedHash = s.stagedHash := by
  simp only [State.stagedHash, h.img]

theorem State.SameTable.ownEntry (g : Nat) : t.ownEntry g = s.ownEntry g := by
  simp only [State.ownEntry, h.groupEntries, h.me, State.image, h.img]

theorem State.SameTable.admitTok (x : Token) : t.admitTok x = s.admitTok x := by
  simp only [State.admitTok, State.ownAdmit, State.peerAdmit, h.ownEntry, h.slots]

end

/-! ### The tokens that came before -/

/-- The state in which a MARK has become the one of its group. -/
def markNamed (s : State) (o : Op) : State := s.updGroup o.desc.group fun x => { x with markOp := some (o.q, o.c) }

theorem markNamed_markOp (s : State) (o : Op) : ((markNamed s o).group o.desc.group).markOp = some (o.q, o.c) := by
  rw [markNamed, State.group_updGroup_same]

/-- A fact of a group that does not speak of its MARK. -/
theorem markNamed_group {β : Type} (p : GroupSt → β) (free : ∀ x op, p { x with markOp := op } = p x) (s : State) (o : Op) (g : Nat) :
    p ((markNamed s o).group g) = p (s.group g) := State.group_updGroup_keeps (free _ _) g

theorem markNamed_sameTable (s : State) (o : Op) : s.SameTable (markNamed s o) :=
  ⟨rfl, rfl, rfl, markNamed_group GroupSt.gr (fun _ _ => rfl) s o⟩

theorem markNamed_toksOf (s : State) (o : Op) : (markNamed s o).toksOf o = s.toksOf o := by
  simp only [State.toksOf, markNamed_group GroupSt.toks (fun _ _ => rfl)]

theorem markNamed_tokenDiffers (s : State) (o p : Op) (x : Token) : tokenDiffers (markNamed s o) p x = tokenDiffers s p x := by
  simp only [tokenDiffers, tokenOf, commonOf, markNamed_group GroupSt.run (fun _ _ => rfl),
    markNamed_group GroupSt.step (fun _ _ => rfl), markNamed_group GroupSt.digestStep (fun _ _ => rfl),
    markNamed_group GroupSt.digestValid (fun _ _ => rfl), markNamed_group GroupSt.gen (fun _ _ => rfl)]
  rfl

/-- Tokens that do not differ from the entry change nothing but the arrivals it notes (05 R209, R210). -/
theorem replayTokens_agrees {s : State} {q c : Nat} {o : Op} (found : s.op? q c = some o)
    (runs : (s.group o.desc.group).halted = false)
    (agree : ∀ x ∈ s.toksOf o, s.admitTok x.2 = true ∨ tokenDiffers s o x.2 = false) :
    ∃ ops, replayTokens s q c = { s with ops } := by
  unfold replayTokens
  rw [found]
  refine List.foldlRecOn (motive := fun t : State => ∃ ops, t = { s with ops }) _ _ ⟨s.ops, rfl⟩ ?_
  rintro _ ⟨ops, rfl⟩ x listed
  have running : ({ s with ops }.group o.desc.group).halted = false := runs
  rw [running]
  split
  · contradiction
  split
  · exact ⟨ops, rfl⟩
  next compared =>
    have same : tokenDiffers { s with ops } o x.2 = false := by
      refine (agree x listed).resolve_left fun admitted => compared ?_
      have admitted' : { s with ops }.admitTok x.2 = true := admitted
      rw [admitted', Bool.true_or]
    rw [meetToken, same]
    exact ⟨_, rfl⟩

/-! ### The weir -/

/-- What a weir carries from its start on is the same (02 R77, R79). -/
structure MarkSt.SameMark (m w : MarkSt) : Prop where
  resume : w.resume = m.resume
  hash : w.hash = m.hash
  pend : w.pend = m.pend
  committed : w.committed = m.committed

/-- The weir of a mark runs in a group for a MARK, or for none. -/
structure State.WeirRuns (s : State) (g : Nat) (m : MarkSt) (op : Option (Nat × Nat)) : Prop where
  markOp : (s.group g).markOp = op
  marking : ∃ w, (s.group g).marking = some w ∧ m.SameMark w

theorem State.WeirRuns.of_groups {s t : State} {g : Nat} {m : MarkSt} {op : Option (Nat × Nat)} (h : s.WeirRuns g m op)
    (groups : t.groups = s.groups) : t.WeirRuns g m op := by
  have same : t.group g = s.group g := by rw [State.group, groups]; rfl
  exact ⟨same ▸ h.markOp, same ▸ h.marking⟩

theorem State.WeirRuns.refreshTimer {s : State} {g : Nat} {m : MarkSt} {op : Option (Nat × Nat)} (h : s.WeirRuns g m op) (k : Nat) :
    (refreshTimer s k).WeirRuns g m op := by
  obtain ⟨w, marking, same⟩ := h.marking
  exact ⟨(group_refreshTimer GroupSt.markOp (fun _ _ => rfl) s k g).trans h.markOp,
    w, (group_refreshTimer GroupSt.marking (fun _ _ => rfl) s k g).trans marking, same⟩

/-- Sending a weir's tokens changes no group. -/
theorem sendMarkTokens_groups (s : State) (g : Nat) (m : MarkSt) (stages : List Nat) (i : Nat) :
    (sendMarkTokens s g m stages i).groups = s.groups := by
  have sent : ∀ (send : Bool) (t : State) dests b, (if send then sendAll t dests b else t).groups = t.groups :=
    fun send t dests b => by
      obtain ⟨l, e⟩ := sendAll_form t dests b
      rw [e]
      cases send <;> rfl
  unfold sendMarkTokens
  split
  · rfl
  · refine (sent _ _ _ _).trans ?_
    split
    · split <;> rfl
    · rfl

/-- The weir goes on carrying what it began with. -/
theorem State.WeirRuns.markWalk {s : State} {g : Nat} {m : MarkSt} {op : Option (Nat × Nat)} (stages : List Nat) (fuel : Nat)
    (h : s.WeirRuns g m op) : (markWalk g stages fuel s).WeirRuns g m op := by
  induction fuel generalizing s with
  | zero => exact h
  | succ fuel ih =>
    obtain ⟨markOp, w, marking, same⟩ := h
    have goes : ∀ w', m.SameMark w' → (s.updGroup g fun x => { x with marking := some w' }).WeirRuns g m op := fun w' same' =>
      ⟨by rw [State.group_updGroup_same]; exact markOp, w', by rw [State.group_updGroup_same], same'⟩
    obtain ⟨resume, hash, pend, committed⟩ := same
    unfold Machine.markWalk
    rw [marking]
    dsimp only
    split
    · refine State.WeirRuns.refreshTimer ?_ g
      exact goes _ ⟨resume, hash, pend, committed⟩
    split
    · refine ih (State.WeirRuns.of_groups ?_ (sendMarkTokens_groups _ _ _ _ _))
      exact goes _ ⟨resume, hash, pend, committed⟩
    · exact ⟨markOp, w, marking, resume, hash, pend, committed⟩

/-- A weir with no stage is complete at once. -/
theorem markWalk_no_stage {s : State} {g : Nat} {m : MarkSt} (fuel : Nat) (marking : (s.group g).marking = some m) :
    ((markWalk g [] (fuel + 1) s).group g).marking = some { m with complete := true } := by
  unfold markWalk
  rw [marking]
  exact (group_refreshTimer GroupSt.marking (fun _ _ => rfl) _ g g).trans (by rw [State.group_updGroup_same])

theorem State.WeirRuns.markStep {s : State} {g : Nat} {m : MarkSt} {op : Option (Nat × Nat)} (h : s.WeirRuns g m op) :
    (markStep s g).WeirRuns g m op := by
  have ⟨_, w, marking, _⟩ := h
  unfold Machine.markStep
  rw [marking]
  dsimp only
  split
  · exact h
  · exact h.markWalk _ _

theorem markStep_no_stage {s : State} {g : Nat} {m : MarkSt} (marking : (s.group g).marking = some m) (bare : (s.gr g).stageMask = 0) :
    ∃ w, ((markStep s g).group g).marking = some w ∧ w.complete = true := by
  have none : enabled (s.gr g).stageMask = [] := by rw [bare]; rfl
  unfold markStep
  rw [marking, none]
  dsimp only
  split
  next complete => exact ⟨m, marking, complete⟩
  next => exact ⟨_, markWalk_no_stage _ marking, rfl⟩

/-- What the tokens of a weir carry as it begins (02 R77, R79). -/
def weirOf (s : State) (g : Nat) (resume : Bool) : MarkSt :=
  { resume, hash := s.stagedHash, pend := s.pending_ g
    here := (s.ownEntry g).any fun m => m.state == stActive || m.state == stQuarantine || m.state == stAdmit }

/-- The weir of a group has begun, and no token is sent yet. -/
def weirBegun (s : State) (g : Nat) (resume : Bool) : State := s.updGroup g fun x => { x with marking := some (weirOf s g resume) }

theorem markStart_eq (s : State) (g : Nat) (resume : Bool) : markStart s g resume = refreshTimer (markStep
    (sendMarkTokens (weirBegun s g resume) g (weirOf s g resume) (enabled ((weirBegun s g resume).gr g).stageMask) 0) g) g := rfl

theorem weirBegun_runs (s : State) (g : Nat) (resume : Bool) :
    (weirBegun s g resume).WeirRuns g (weirOf s g resume) (s.group g).markOp :=
  ⟨by rw [weirBegun, State.group_updGroup_same], _, by rw [weirBegun, State.group_updGroup_same], rfl, rfl, rfl, rfl⟩

/-- A weir that begins carries the hash and the pending changes of that moment. -/
theorem markStart_runs (s : State) (g : Nat) (resume : Bool) :
    (markStart s g resume).WeirRuns g (weirOf s g resume) (s.group g).markOp := by
  rw [markStart_eq]
  exact (((weirBegun_runs s g resume).of_groups (sendMarkTokens_groups _ _ _ _ _)).markStep).refreshTimer g

/-- Without a stage it is complete as it begins. -/
theorem markStart_no_stage {s : State} {g : Nat} (resume : Bool) (bare : (s.gr g).stageMask = 0) :
    ∃ w, ((markStart s g resume).group g).marking = some w ∧ w.complete = true := by
  have begun : ((weirBegun s g resume).group g).marking = some (weirOf s g resume) := by
    rw [weirBegun, State.group_updGroup_same]
  have gr : (weirBegun s g resume).gr g = s.gr g := State.group_updGroup_keeps (p := GroupSt.gr) rfl g
  have sent := sendMarkTokens_groups (weirBegun s g resume) g (weirOf s g resume)
    (enabled ((weirBegun s g resume).gr g).stageMask) 0
  rw [markStart_eq, group_refreshTimer GroupSt.marking (fun _ _ => rfl)]
  refine markStep_no_stage (m := weirOf s g resume) ?_ ?_
  · rw [State.group, sent]; exact begun
  · rw [State.gr, State.group, sent]; exact (congrArg GroupRec.stageMask gr).trans bare

/-- A MARK whose early tokens agree with it begins its weir, in a state with the same member table. -/
theorem startMark_begins {t : State} {r : Op} (found : t.op? r.q r.c = some r) (runs : (t.group r.desc.group).halted = false)
    (grouped : r.desc.noGroup = false)
    (agree : ∀ x ∈ t.toksOf r, t.admitTok x.2 = true ∨ tokenDiffers t r x.2 = false) : ∃ u : State, t.SameTable u ∧
      (u.group r.desc.group).markOp = some (r.q, r.c) ∧
      startMark t r = refreshTimer (markStart u r.desc.group false) r.desc.group := by
  have named : ((markNamed t r).group r.desc.group).halted = false :=
    (markNamed_group GroupSt.halted (fun _ _ => rfl) t r _).trans runs
  obtain ⟨ops, replayed⟩ := replayTokens_agrees (s := markNamed t r) found named fun x listed => by
    rw [markNamed_toksOf] at listed
    rw [(markNamed_sameTable t r).admitTok, markNamed_tokenDiffers]
    exact agree x listed
  obtain ⟨members, img, me, gr⟩ := markNamed_sameTable t r
  refine ⟨{ markNamed t r with ops }, ⟨members, img, me, gr⟩, markNamed_markOp t r, ?_⟩
  have still : ({ markNamed t r with ops }.group r.desc.group).halted = false := named
  unfold startMark
  dsimp only
  rw [← markNamed, replayed, still]
  simp only [timeEntry, grouped, Bool.false_eq_true, if_false]

/-! ### The statement -/

theorem State.weir_congr {s t : State} (h : t.sync.weirs = s.sync.weirs) (w : Nat) : t.weir w = s.weir w := by
  rw [State.weir, h, ← State.weir]

section
variable {t : State} {q c : Nat} {r : Op} (found : t.op? q c = some r) (grouped : r.desc.noGroup = false)
include found grouped

section
variable (fresh : t.toksOf r = []) (open_ : r.ended = none)
include fresh open_

/-- 08 R326: the engine inverts its input on the wire, and the entry runs on. -/
theorem startBarrier_enters (wired : bit r.desc.aux16 6 = true) (out : (t.weir (bits r.desc.aux16 0 6)).entered = false) :
    ((startBarrier t r).weir (bits r.desc.aux16 0 6)).input = !(t.weir (bits r.desc.aux16 0 6)).input ∧
      ((startBarrier t r).group r.desc.group).genActive = true ∧ (startBarrier t r).op? q c = some r ∧
      (∀ w, w ≠ bits r.desc.aux16 0 6 → (startBarrier t r).weir w = t.weir w) ∧ (startBarrier t r).queues = t.queues := by
  obtain ⟨rfl, rfl⟩ := State.op?_is found
  rw [startBarrier_eq found fresh open_ grouped, barrierStart_enters wired out, group_refreshTimer GroupSt.genActive (fun _ _ => rfl)]
  exact ⟨congrArg Weir.input (State.weir_setWeir (genOpened t r.desc.group) _ _), genOpened_genActive t _, found,
    fun w other => State.weir_setWeir_other (genOpened t r.desc.group) _ other, rfl⟩

/-- 08 R331: a wire that the engine has entered already is misused, and the group, if it runs, halts with MISMATCH. -/
theorem startBarrier_misuse (wired : bit r.desc.aux16 6 = true) (entered : (t.weir (bits r.desc.aux16 0 6)).entered = true) :
    (startBarrier t r).weir (bits r.desc.aux16 0 6) = { t.weir (bits r.desc.aux16 0 6) with misuse := true } ∧
      (startBarrier t r).sync.weirMisuse = true ∧
      ((t.gr r.desc.group).valid = true → (t.group r.desc.group).halted = false →
        ((startBarrier t r).group r.desc.group).halted = true ∧ ((startBarrier t r).group r.desc.group).haltCause = 3) ∧
      ∀ w, w ≠ bits r.desc.aux16 0 6 → (startBarrier t r).weir w = t.weir w := by
  obtain ⟨rfl, rfl⟩ := State.op?_is found
  rw [startBarrier_eq found fresh open_ grouped, barrierStart_misuse wired entered, group_refreshTimer GroupSt.halted (fun _ _ => rfl),
    group_refreshTimer GroupSt.haltCause (fun _ _ => rfl)]
  obtain ⟨weirs, misuse⟩ :=
    haltMismatched_weirs (s := wireMisused t r.desc.group (bits r.desc.aux16 0 6)) (g := r.desc.group)
  refine ⟨(State.weir_congr weirs _).trans (State.weir_setWeir (genOpened t r.desc.group) _ _), misuse, fun valid runs => ?_,
    fun w other => (State.weir_congr weirs w).trans (State.weir_setWeir_other (genOpened t r.desc.group) _ other)⟩
  have halted := haltNaming_haltedFor (s := wireMisused t r.desc.group (bits r.desc.aux16 0 6)) (g := r.desc.group) haltMismatch
    endMismatch []
    ((congrArg GroupRec.valid (genOpened_group GroupSt.gr (fun _ => rfl) t r.desc.group r.desc.group)).trans valid)
    ((genOpened_group GroupSt.halted (fun _ => rfl) t r.desc.group r.desc.group).trans runs)
  exact ⟨halted.halted, halted.cause⟩

/-- 08 R329: without a wire the group phase begins. -/
theorem startBarrier_phase (unwired : bit r.desc.aux16 6 = false) (opcode : r.desc.opcode = opBarrier) (running : r.running = true) :
    ∃ y, (startBarrier t r).op? q c = some y ∧ y.running = true ∧ y.ended = none ∧ (y.bar = 1 ∨ (y.bar = 3 ∧ y.ready = true)) ∧
      ((startBarrier t r).group r.desc.group).genActive = true ∧
      (enabled (t.gr r.desc.group).stageMask ≠ [] → 0 ∈ y.coll.reached) ∧ (startBarrier t r).sync.weirs = t.sync.weirs := by
  obtain ⟨rfl, rfl⟩ := State.op?_is found
  obtain ⟨reached, phase, first⟩ := barrierStart_inGroupPhase unwired found opcode running open_
  rw [startBarrier_eq found fresh open_ grouped]
  obtain ⟨weirs, active, y, entry, -, runs, unended, bar, stages⟩ := phase.refreshTimer r.desc.group
  exact ⟨y, entry, runs, unended, bar, active, fun some => stages 0 (first some), weirs⟩

end

/-- 02 R77: the weir of a MARK carries the staged hash and the pending changes of the moment in which the MARK starts. -/
theorem startMark_weir (runs : (t.group r.desc.group).halted = false)
    (agree : ∀ x ∈ t.toksOf r, t.admitTok x.2 = true ∨ tokenDiffers t r x.2 = false) :
    ∃ w, ((startMark t r).group r.desc.group).markOp = some (q, c) ∧
      ((startMark t r).group r.desc.group).marking = some w ∧ w.resume = false ∧ w.hash = t.stagedHash ∧
      w.pend = t.pending_ r.desc.group ∧ w.committed = none ∧ ((t.gr r.desc.group).stageMask = 0 → w.complete = true) := by
  obtain ⟨rfl, rfl⟩ := State.op?_is found
  obtain ⟨u, table, named, begins⟩ := startMark_begins found runs grouped agree
  obtain ⟨markOp, w, marking, resume, hash, pend, committed⟩ := (markStart_runs u r.desc.group false).refreshTimer r.desc.group
  rw [begins]
  refine ⟨w, markOp.trans named, marking, resume, hash.trans table.stagedHash, pend.trans (table.pending_ _), committed, fun bare => ?_⟩
  obtain ⟨v, complete, done⟩ := markStart_no_stage (s := u) (g := r.desc.group) false (by rw [table.gr]; exact bare)
  rw [group_refreshTimer GroupSt.marking (fun _ _ => rfl), complete] at marking
  cases marking
  exact done

end

/-- Settles O30: the entry that is taken begins at once where no token came before it; a BARRIER by its wire or its group phase, and a
MARK with the hash and the pending changes of that moment, which its weir keeps. -/
theorem barrierAndMarkBeginTheirWeirs : Obligations.BarrierAndMarkBeginTheirWeirs := by
  unfold Obligations.BarrierAndMarkBeginTheirWeirs
  rintro q c s t o r rfl rfl
  refine ⟨exec_barrier_dispatchable, exec_mark_dispatchable, fun h fresh wired grouped _ _ out => ?enters,
    fun h fresh wired grouped _ _ entered => ?misuse, fun h fresh unwired grouped => ?phase, fun h agree runs grouped => ?mark⟩
  case enters =>
    have ⟨_, _, _, open_⟩ := h
    exact ⟨_, exec_barrier_dispatchable h, startBarrier_enters (op?_taken h) grouped fresh open_ wired out⟩
  case misuse =>
    have ⟨_, _, _, open_⟩ := h
    exact ⟨_, exec_barrier_dispatchable h, startBarrier_misuse (op?_taken h) grouped fresh open_ wired entered⟩
  case phase =>
    have ⟨_, opcode, _, open_⟩ := h
    obtain ⟨y, phase⟩ := startBarrier_phase (op?_taken h) grouped fresh open_ unwired opcode rfl
    exact ⟨_, y, exec_barrier_dispatchable h, phase⟩
  case mark =>
    obtain ⟨w, weir⟩ := startMark_weir (op?_taken h) grouped runs agree
    exact ⟨_, w, exec_mark_dispatchable h, weir⟩

end Sys2Proof.Machine
end
section
/-! PROOFS. GROUP_CTRL (05 R224; 02 R83): the statement about it ranges over every list of started entries, also over one with two
entries of the same queue and count, of which an early end looks at the first alone. -/

namespace Sys2Proof.Machine

/-- GROUP_CTRL.HALT of a group that runs. -/
theorem exec_groupHalt_running {s : State} {m : Mgmt} {g : Fin 4096} (may : State.MayWrite s m) (valid : (s.gr g).valid = true)
    (runs : (s.group g).halted = false) : exec (.groupHalt m g) s = .next (State.accepted s m
      (raiseDue (haltNaming s g haltManual endHalted (missingNames (s.missing g))))) := by
  have valid' : (s.group g).gr.valid = true := valid
  have halts : writeGroupCtrl s g 2#64 = some (raiseDue (haltNaming s g haltManual endHalted (missingNames (s.missing g)))) := by
    have bits : bit (2#64).toNat 0 = false ∧ bit (2#64).toNat 1 = true := by decide
    obtain ⟨resume, halt⟩ := bits
    simp only [writeGroupCtrl, valid', runs, resume, halt, Bool.not_true, Bool.false_and, Bool.or_self, Bool.not_false, Bool.and_self,
      Bool.false_eq_true, if_false, if_true]
  exact mgmtWrite_accepted may halts

/-- Agent 0, the owner, at a ready port, and group 0, which runs on queue 0. A SIGNAL that has been applied and an ALLREDUCE stand as
started entries of queue 0, both under count 0, where `op?` finds the first of them alone. -/
def twiceStarted : State :=
  { mgmt := { portReady := true }, keeper := { ownership := .owned }, groups := [(0, { gr := { valid := true } })]
    ops := [{ q := 0, c := 0, desc := { opcode := opSignal }, ready := true }, { q := 0, c := 0, desc := { opcode := opAllreduce } }] }

theorem twiceStarted_mayWrite : State.MayWrite twiceStarted ⟨0, 0⟩ := by unfold State.MayWrite; decide

theorem twiceStarted_group : (twiceStarted.gr 0).valid = true ∧ (twiceStarted.group 0).halted = false ∧
    (twiceStarted.group 0).marking = none := by decide

theorem twiceStarted_not_due (g : Nat) : (twiceStarted.group g).resumeDue = false := by
  by_cases e : 0 = g <;> simp [State.group, twiceStarted, tabGet, e]

/-- An entry of queue 0 that goes on as if nothing had happened: it has not ended, and was not past its end. -/
def goesOn (o : Op) : Bool := o.q == 0 && o.ended.isNone && !twiceStarted.past o

/-- The halt finds the SIGNAL, which no longer ends early, under queue 0 and count 0, and the ALLREDUCE does not end. -/
theorem haltNaming_twiceStarted : (raiseDue (haltNaming twiceStarted 0 haltManual endHalted
    (missingNames (twiceStarted.missing 0)))).ops.any goesOn = true := by decide

/-- Refutes O35: in `twiceStarted` GROUP_CTRL.HALT leaves the ALLREDUCE of the halted group's queue unended, since its queue and count
find the SIGNAL before it. The statement lacks that no two started entries have the same queue and count. -/
theorem not_groupControlHaltsAndResumes : ¬ Obligations.GroupControlHaltsAndResumes := by
  unfold Obligations.GroupControlHaltsAndResumes
  intro h
  obtain ⟨valid, runs, unmarked⟩ := twiceStarted_group
  obtain ⟨-, -, -, halts⟩ := h ⟨0, 0⟩ 0 twiceStarted twiceStarted_mayWrite twiceStarted_not_due
  obtain ⟨t, run, -, -, -, -, -, -, -, ended, -⟩ := halts valid runs fun w marking => nomatch unmarked.symm.trans marking
  obtain rfl := Host.Outcome.next.inj ((exec_groupHalt_running (g := 0) twiceStarted_mayWrite valid runs).symm.trans run)
  obtain ⟨o, started, on⟩ := List.any_eq_true.1 haltNaming_twiceStarted
  simp only [goesOn, Bool.and_eq_true, beq_iff_eq, Bool.not_eq_true', Option.isNone_iff_eq_none] at on
  obtain ⟨⟨queue, unended⟩, notPast⟩ := on
  rw [State.accepted_ops] at ended
  rcases ended o started queue with finished | past
  · rw [unended] at finished; cases finished
  · rw [notPast] at past; cases past

end Sys2Proof.Machine
end
section
/-! PROOFS. The work queues and their rings (03 R106, R116, R117, R128-R131): what a fetch of descriptors changes, ENABLE, KICK and POLL,
the batch that returns, QUEUE_HEAD, and the head word in memory. -/

namespace Sys2Proof.Machine

/-! ### What an accepted write leaves of the queues -/

section
variable (s t : State) (m : Mgmt)

@[simp] theorem State.accepted_queue (q : Nat) : (State.accepted s m t).queue q = t.queue q := by
  unfold State.accepted; split <;> rfl

@[simp] theorem State.accepted_op? (q c : Nat) : (State.accepted s m t).op? q c = t.op? q c := by
  unfold State.accepted; split <;> rfl

@[simp] theorem State.accepted_members : (State.accepted s m t).members = t.members := by
  unfold State.accepted; split <;> rfl

@[simp] theorem State.accepted_sync : (State.accepted s m t).sync = t.sync := by
  unfold State.accepted; split <;> rfl

end

theorem State.queue_updQueue_same (s : State) (q : Nat) (f : QueueSt → QueueSt) : (s.updQueue q f).queue q = f (s.queue q) :=
  State.queue_setQueue s q _

theorem State.queue_updQueue_other (s : State) {q p : Nat} (f : QueueSt → QueueSt) (h : p ≠ q) :
    (s.updQueue q f).queue p = s.queue p := State.queue_setQueue_other s _ h

/-! ### What a fetch of descriptors changes (03 R116, R117) -/

/-- Some queues may ask for a batch; nothing else changes but the transfers that wait at the siphons. -/
structure State.OnlyFetches (s t : State) : Prop where
  rest : ∃ queues siphons, t = { s with queues, siphons }
  queue : ∀ p, ∃ batch batchId, t.queue p = { s.queue p with batch, batchId }

theorem State.OnlyFetches.refl (s : State) : s.OnlyFetches s := ⟨⟨s.queues, s.siphons, rfl⟩, fun _ => ⟨_, _, rfl⟩⟩

theorem State.OnlyFetches.trans {s t u : State} (h : s.OnlyFetches t) (k : t.OnlyFetches u) : s.OnlyFetches u := by
  obtain ⟨⟨queues, siphons, rfl⟩, first⟩ := h
  obtain ⟨⟨queues', siphons', rfl⟩, second⟩ := k
  refine ⟨⟨queues', siphons', rfl⟩, fun p => ?_⟩
  obtain ⟨b, id, eq⟩ := first p
  obtain ⟨b', id', eq'⟩ := second p
  exact ⟨b', id', by rw [eq', eq]⟩

/-- The entries that a queue may ask for: at most 16, within its buffer, the ring's end and HEAD + 2^k (03 R116). -/
def QueueSt.askable (x : QueueSt) : Nat :=
  min (min 16 x.room) (min (2 ^ x.log2 - x.fetch % 2 ^ x.log2) (2 ^ x.log2 - diff32 x.fetch x.head))

/-- The batch that a queue asks for. -/
def QueueSt.nextBatch (x : QueueSt) : Batch where
  id := x.batchId + 1
  start := x.fetch
  entries := x.askable
  left := (blocks (x.base + 64 * (x.fetch % 2 ^ x.log2)) (64 * x.askable)).length

/-- The queue once it has asked for a batch. -/
def QueueSt.asking (x : QueueSt) : QueueSt := { x with batchId := x.batchId + 1, batch := some x.nextBatch }

/-- A RUNNING queue without an outstanding batch asks for what it may. -/
theorem startFetch_asks {s : State} {q : Nat} (running : (s.queue q).state = .running) (free : (s.queue q).batch = none)
    (some_ : 0 < (s.queue q).askable) : startFetch s q = enqueueRead (s.setQueue q (s.queue q).asking) q
      ((s.queue q).base + 64 * ((s.queue q).fetch % 2 ^ (s.queue q).log2)) (64 * (s.queue q).askable) (fun _ => q % 8)
      (fun o => .fetch q ((s.queue q).batchId + 1) o) := by
  have asks : ((s.queue q).state == .running && (s.queue q).batch.isNone && decide (0 < (s.queue q).askable)) = true := by
    simp [running, free, some_]
  exact if_pos asks

/-- Any other queue asks for nothing. -/
theorem startFetch_idle {s : State} {q : Nat}
    (h : (s.queue q).state ≠ .running ∨ (s.queue q).batch ≠ none ∨ (s.queue q).askable = 0) :
    startFetch s q = s := by
  have idle : ¬ ((s.queue q).state == .running && (s.queue q).batch.isNone && decide (0 < (s.queue q).askable)) = true := by
    simp only [Bool.and_eq_true, beq_iff_eq, Option.isNone_iff_eq_none, decide_eq_true_eq]
    rintro ⟨⟨running, free⟩, some_⟩
    rcases h with h | h | h
    · exact h running
    · exact h free
    · omega
  exact if_neg idle

theorem startFetch_cases (s : State) (q : Nat) : startFetch s q = s ∨
    ∃ p, startFetch s q = { s.setQueue q (s.queue q).asking with siphons := p } := by
  by_cases h : (s.queue q).state = .running ∧ (s.queue q).batch = none ∧ 0 < (s.queue q).askable
  · obtain ⟨running, free, some_⟩ := h
    rw [startFetch_asks running free some_]
    exact .inr (enqueueRead_form _ _ _ _ _ _)
  · refine .inl (startFetch_idle ?_)
    by_contra no
    push Not at no
    exact h ⟨no.1, no.2.1, Nat.pos_of_ne_zero no.2.2⟩

theorem startFetch_onlyFetches (s : State) (q : Nat) : s.OnlyFetches (startFetch s q) := by
  rcases startFetch_cases s q with e | ⟨p, e⟩ <;> rw [e]
  · exact .refl s
  refine ⟨⟨_, p, rfl⟩, fun r => ?_⟩
  by_cases h : r = q
  · subst h
    exact ⟨_, _, State.queue_setQueue s r _⟩
  · exact ⟨_, _, State.queue_setQueue_other s _ h⟩

theorem startFetch_queue_other (s : State) {q p : Nat} (h : p ≠ q) : (startFetch s q).queue p = s.queue p := by
  rcases startFetch_cases s q with e | ⟨_, e⟩ <;> rw [e]
  exact State.queue_setQueue_other s _ h

theorem refill_onlyFetches (s : State) (q : Nat) : s.OnlyFetches (refill s q) := by
  unfold refill
  split
  · exact startFetch_onlyFetches s q
  · exact .refl s

theorem refill_queue_other (s : State) {q p : Nat} (h : p ≠ q) : (refill s q).queue p = s.queue p := by
  unfold refill
  split
  · exact startFetch_queue_other s h
  · rfl

/-! ### ENABLE (03 R130, R131) -/

theorem queueIdle_iff (s : State) (q : Nat) : s.queueIdle q = true ↔ (s.queue q).enable = false ∧ s.inFlight q = 0 ∧
    ((s.queue q).state = .disabled ∨ (s.queue q).state = .error ∨ (s.queue q).state = .halted) := by
  simp [State.queueIdle, and_assoc, or_assoc]

/-- The queue that ENABLE has taken to RUNNING. -/
def QueueSt.enabled (x : QueueSt) : QueueSt := { x with
  enable := true, state := .running, cause := 0, errIndex := 0, fetch := x.head, lastFilled := true
  finished := [], failedWb := [], wbDirty := true }

theorem enableQueue_running {s : State} {q : Nat} (h : (s.queue q).state = .running) : enableQueue s q = some s := by
  simp [enableQueue, h]

/-- A queue that is not RUNNING. -/
theorem enableQueue_stopped {s : State} {q : Nat} (h : (s.queue q).state ≠ .running) : enableQueue s q =
    if s.queueIdle q && !((s.queue q).state == .halted && (s.group (s.queue q).map.group).halted) then
      some (startFetch (s.setQueue q (s.queue q).enabled) q) else none := by
  simp only [enableQueue, beq_eq_false_iff_ne.2 h, Bool.false_eq_true, if_false]
  rfl

theorem enableQueue_idle {s : State} {q : Nat} (h : (s.queue q).state = .disabled ∨ (s.queue q).state = .error ∨
      ((s.queue q).state = .halted ∧ (s.group (s.queue q).map.group).halted = false))
    (off : (s.queue q).enable = false) (empty : s.inFlight q = 0) :
    enableQueue s q = some (startFetch (s.setQueue q (s.queue q).enabled) q) := by
  have idle : s.queueIdle q = true := (queueIdle_iff s q).2 ⟨off, empty, h.imp_right (Or.imp_right And.left)⟩
  rcases h with d | e | ⟨halted, runs⟩
  · rw [enableQueue_stopped (by simp [d]), idle]; simp [d]
  · rw [enableQueue_stopped (by simp [e]), idle]; simp [e]
  · rw [enableQueue_stopped (by simp [halted]), idle]; simp [runs]

theorem enableQueue_refused {s : State} {q : Nat} (stopped : (s.queue q).state ≠ .running)
    (h : s.inFlight q ≠ 0 ∨ (s.queue q).state = .absent ∨ (s.queue q).state = .draining ∨
      ((s.queue q).state = .halted ∧ (s.group (s.queue q).map.group).halted = true)) : enableQueue s q = none := by
  rw [enableQueue_stopped stopped]
  refine if_neg ?_
  rw [Bool.and_eq_true, queueIdle_iff]
  rintro ⟨⟨-, empty, idle⟩, runs⟩
  rcases h with busy | absent | draining | ⟨halted, group⟩
  · exact busy empty
  · simp [absent] at idle
  · simp [draining] at idle
  · simp [halted, group] at runs

theorem exec_enable_idle {s : State} {m : Mgmt} {q : Fin 256} (may : State.MayWrite s m)
    (run : enableQueue s q = some (startFetch (s.setQueue q (s.queue q).enabled) q)) :
    ∃ t, exec (.enable m q) s = .next t ∧ (t.queue q).state = .running ∧ (t.queue q).enable = true ∧
      (t.queue q).head = (s.queue q).head ∧ (t.queue q).fetch = (s.queue q).head ∧ (t.queue q).cause = 0 ∧
      (t.queue q).errIndex = 0 ∧ (∀ p, p ≠ q.val → t.queue p = s.queue p) ∧ t.ops = s.ops ∧ t.groups = s.groups ∧
      t.members = s.members ∧ t.sync = s.sync ∧ t.warden = s.warden ∧ t.mgmt.resp = some ⟨m.id, m.agent, 0, 0⟩ := by
  obtain ⟨⟨queues, siphons, rest⟩, queue⟩ := startFetch_onlyFetches (s.setQueue q (s.queue q).enabled) q
  obtain ⟨batch, id, own⟩ := queue q
  rw [State.queue_setQueue] at own
  have others : ∀ p, p ≠ q.val → (startFetch (s.setQueue q (s.queue q).enabled) q).queue p = s.queue p := fun p h =>
    (startFetch_queue_other _ h).trans (State.queue_setQueue_other s _ h)
  refine ⟨_, mgmtWrite_accepted may run, ?_⟩
  simp only [State.accepted_queue, State.accepted_ops, State.accepted_groups, State.accepted_members, State.accepted_sync,
    State.accepted_warden, State.accepted_resp, own]
  exact ⟨rfl, rfl, rfl, rfl, rfl, rfl, others, by rw [rest]; rfl, by rw [rest]; rfl, by rw [rest]; rfl, by rw [rest]; rfl,
    by rw [rest]; rfl, trivial⟩

/-- Settles O21: the three answers of `enableQueue`, and what the fetch that follows leaves. -/
theorem enableStartsAnIdleQueue : Obligations.EnableStartsAnIdleQueue := by
  unfold Obligations.EnableStartsAnIdleQueue
  intro m q s may
  refine ⟨fun h off empty => exec_enable_idle may (enableQueue_idle h off empty),
    fun running => mgmtWrite_accepted may (enableQueue_running running), fun stopped h => ?_⟩
  show finish s (mgmtWrite s m _) = _
  rw [mgmtWrite_rejected may (enableQueue_refused stopped h), finish_answered]

/-! ### KICK and POLL (03 R117) -/

/-- A fetch leaves the time, the commands that wait and the management plane. -/
theorem plain_startFetch (s : State) (q : Nat) : State.plain s (startFetch s q) = startFetch s q := by
  obtain ⟨⟨queues, siphons, rest⟩, -⟩ := startFetch_onlyFetches s q
  rw [rest]
  rfl

theorem exec_poll_due {s : State} {q : Fin 256} (unfilled : (s.queue q).lastFilled = false)
    (due : (s.queue q).pollAt + 64 * (s.queue q).poll ≤ s.now) : exec (.poll q) s = .next (startFetch s q) := by
  show finishPlain s (if _ then _ else _) = _
  rw [if_pos (by simp [unfilled, due]), finishPlain_eq, plain_startFetch]

theorem exec_poll_waits {s : State} {q : Fin 256}
    (h : (s.queue q).lastFilled = true ∨ s.now < (s.queue q).pollAt + 64 * (s.queue q).poll) : exec (.poll q) s = .next s := by
  show finishPlain s (if _ then _ else _) = _
  rw [if_neg (by
    simp only [Bool.and_eq_true, Bool.not_eq_true', decide_eq_true_eq]
    rintro ⟨unfilled, due⟩
    rcases h with filled | early
    · rw [filled] at unfilled; cases unfilled
    · omega)]
  rfl

/-- The batch that is asked for, and its reads. -/
theorem startFetch_batch {s : State} {q : Nat} (running : (s.queue q).state = .running) (free : (s.queue q).batch = none)
    (some_ : 0 < (s.queue q).askable) : ∃ b, ((startFetch s q).queue q).batch = some b ∧ b.start = (s.queue q).fetch ∧
      b.entries = (s.queue q).askable ∧ b.data = [] ∧
      (∀ y ∈ blocks ((s.queue q).base + 64 * ((s.queue q).fetch % 2 ^ (s.queue q).log2)) (64 * (s.queue q).askable),
        ∃ z ∈ ((startFetch s q).siphon (q % 8)).waiting, z.cls = 0 ∧ z.addr = y.1 ∧ z.len = y.2.2 ∧ z.queue = q) := by
  rw [startFetch_asks running free some_]
  refine ⟨(s.queue q).nextBatch, ?_, rfl, rfl, rfl, fun y hy =>
    ⟨_, waiting_enqueueRead _ q _ _ (fun _ => q % 8) (fun o => .fetch q ((s.queue q).batchId + 1) o) y hy, rfl, rfl, rfl, rfl⟩⟩
  obtain ⟨p, e⟩ := enqueueRead_form (s.setQueue q (s.queue q).asking) q
    ((s.queue q).base + 64 * ((s.queue q).fetch % 2 ^ (s.queue q).log2)) (64 * (s.queue q).askable) (fun _ => q % 8)
    (fun o => .fetch q ((s.queue q).batchId + 1) o)
  rw [e]
  exact congrArg QueueSt.batch (State.queue_setQueue s q _)

/-! ### The batch that returns (03 R116) -/

/-- A queue whose oldest unstarted entry has been checked, or that has none, has nothing to check. -/
theorem checkQueue_checked {s : State} {q : Nat} (h : ∀ e ∈ (s.queue q).buffered.head?, e.checked = true) : checkQueue s q = s := by
  unfold checkQueue checkHead
  cases e : (s.queue q).buffered with
  | nil => rfl
  | cons b rest =>
    rw [e] at h
    have checked : b.checked = true := h b rfl
    simp [checked]

/-- The queue once the owned entries of its batch are in the buffer. -/
def QueueSt.taken (x : QueueSt) (b : Batch) (es : List Buffered) (now : Nat) : QueueSt := { x with
  buffered := x.buffered ++ es, fetch := (b.start + es.length) % 2 ^ 32, batch := none, lastFilled := es.length == b.entries
  pollAt := if es.length == b.entries then x.pollAt else now }

section
variable {s : State} {q : Nat} {b : Batch} (out : (s.queue q).batch = some b)
include out

theorem takeBatch_waits (left : b.left ≠ 0) : takeBatch s q = s := by
  simp [takeBatch, out, left]

theorem takeBatch_whole (left : b.left = 0) : takeBatch s q =
    checkQueue (refill (s.setQueue q ((s.queue q).taken b (takeOwned b.data b.start b.entries 0) s.now)) q) q := by
  simp only [takeBatch, out, left, bne_self_eq_false, Bool.false_eq_true, if_false]
  rfl

/-- With the oldest entry checked before, taking the batch only fills the buffer and may ask for the next one. -/
theorem takeBatch_fetches (left : b.left = 0) (checked : ∀ e ∈ (s.queue q).buffered.head?, e.checked = true)
    (more : (s.queue q).buffered ≠ [] ∨ takeOwned b.data b.start b.entries 0 = []) : takeBatch s q =
      refill (s.setQueue q ((s.queue q).taken b (takeOwned b.data b.start b.entries 0) s.now)) q := by
  rw [takeBatch_whole out left]
  refine checkQueue_checked fun e he => checked e ?_
  obtain ⟨batch, id, own⟩ :=
    (refill_onlyFetches (s.setQueue q ((s.queue q).taken b (takeOwned b.data b.start b.entries 0) s.now)) q).queue q
  rw [own, State.queue_setQueue] at he
  rcases more with old | none
  · obtain ⟨e', rest, eq⟩ := List.exists_cons_of_ne_nil old
    simpa [QueueSt.taken, eq] using he
  · simpa [QueueSt.taken, none] using he

end

theorem exec_fetchBatch_taken {s : State} {q : Fin 256} {b : Batch} (out : (s.queue q).batch = some b) (left : b.left = 0)
    (checked : ∀ e ∈ (s.queue q).buffered.head?, e.checked = true)
    (more : (s.queue q).buffered ≠ [] ∨ takeOwned b.data b.start b.entries 0 = []) :
    ∃ t, exec (.fetchBatch q) s = .next t ∧
      (t.queue q).buffered = (s.queue q).buffered ++ takeOwned b.data b.start b.entries 0 ∧
      (t.queue q).fetch = (b.start + (takeOwned b.data b.start b.entries 0).length) % 2 ^ 32 ∧
      (t.queue q).lastFilled = decide ((takeOwned b.data b.start b.entries 0).length = b.entries) ∧
      ((takeOwned b.data b.start b.entries 0).length ≠ b.entries → (t.queue q).pollAt = s.now) ∧
      (t.queue q).head = (s.queue q).head ∧ (∀ p, p ≠ q.val → t.queue p = s.queue p) ∧ t.ops = s.ops := by
  obtain ⟨⟨queues, siphons, rest⟩, queue⟩ := refill_onlyFetches
    (s.setQueue q ((s.queue q).taken b (takeOwned b.data b.start b.entries 0) s.now)) q
  obtain ⟨batch, id, own⟩ := queue q
  rw [State.queue_setQueue] at own
  have run : exec (.fetchBatch q) s = .next (State.plain s (takeBatch s q)) := rfl
  rw [takeBatch_fetches out left checked more] at run
  refine ⟨_, run, ?_⟩
  have queues_ : ∀ (t : State) p, (State.plain s t).queue p = t.queue p := fun _ _ => rfl
  simp only [queues_, own]
  exact ⟨rfl, rfl, rfl, fun short => if_neg (by simpa using short), rfl,
    fun p h => (refill_queue_other _ h).trans (State.queue_setQueue_other s _ h), by rw [rest]; rfl⟩

/-- Settles O23: what KICK and POLL ask for is `startFetch`, and a whole batch is taken by `takeBatch`. -/
theorem fetchesFollowTheRing : Obligations.FetchesFollowTheRing := by
  unfold Obligations.FetchesFollowTheRing
  refine ⟨?asks, fun q s b out => ⟨fun left => ?waits, exec_fetchBatch_taken out⟩⟩
  case waits =>
    show finishPlain s (takeBatch s q) = _
    rw [takeBatch_waits out left]
    rfl
  rintro m q s _ n rfl count
  obtain rfl : n = (s.queue q).askable := count
  exact ⟨fun may => mgmtWrite_accepted may rfl, exec_poll_due, exec_poll_waits, startFetch_batch, startFetch_idle⟩

/-! ### QUEUE_HEAD (03 R131) -/

/-- The low 32 bits of a register write. -/
theorem bits_low32 (n : Nat) : bits n 0 32 = n % 2 ^ 32 := by simp [bits]

theorem exec_queueHead_idle {s : State} {m : Mgmt} {q : Fin 256} (d : W64) (may : State.MayWrite s m) (idle : s.queueIdle q = true) :
    exec (.queueHead m q d) s = .next (State.accepted s m (s.setQueue q { s.queue q with
      head := d.toNat % 2 ^ 32, fetch := d.toNat % 2 ^ 32, finished := [], failedWb := [], wbDirty := true })) := by
  refine mgmtWrite_accepted may ?_
  rw [writeQueueHead, if_pos idle, bits_low32]
  rfl

theorem exec_queueHead_busy {s : State} {m : Mgmt} {q : Fin 256} (d : W64) (may : State.MayWrite s m) (busy : s.queueIdle q = false) :
    exec (.queueHead m q d) s = .next (State.answered s m 1 0) := by
  show finish s (mgmtWrite s m _) = _
  rw [mgmtWrite_rejected may (if_neg (by simp [busy])), finish_answered]

/-! ### A write within one block (04 R139) -/

@[simp] theorem length_leBytes (n x : Nat) : (leBytes n x).length = n := by
  induction n generalizing x with
  | zero => rfl
  | succ n ih => simp [leBytes, ih]

/-- A range that does not leave its block is one piece. -/
theorem blocks_within {addr len : Nat} (some_ : 0 < len) (fits : addr % 256 + len ≤ 256) : blocks addr len = [(addr, 0, len)] := by
  have whole : min len (256 - addr % 256) = len := by omega
  simp [blocks, blocksFrom, Nat.ne_of_gt some_, whole]

@[simp] theorem slice_whole (bs : List Byte) : slice bs 0 bs.length = bs := by simp [slice]

/-- Bytes that do not leave their block are one write. -/
theorem enqueueWrite_within (s : State) (cls queue : Nat) {addr : Nat} {data : List Byte} (via : Nat → Nat) (pur : Nat → Purpose)
    (some_ : 0 < data.length) (fits : addr % 256 + data.length ≤ 256) : enqueueWrite s cls queue addr data via pur =
      enqueue s (via addr) { cls, pur := pur 0, addr, len := data.length, data, queue } := by
  simp [enqueueWrite, blocks_within some_ fits]

/-! ### The head word (03 R106) -/

theorem exec_headWriteback_due {s : State} {q : Fin 256} (on : (s.queue q).wbEn = true) (dirty : (s.queue q).wbDirty = true)
    (late : (s.queue q).wbAt + 256 ≤ s.now) (aligned : (s.queue q).wbAddr % 8 = 0) :
    exec (.headWriteback q) s = .next (enqueue
      (s.setQueue q { s.queue q with wbDirty := false, wbAt := s.now }) (q % 8)
      { cls := 1, pur := .headWb q, addr := (s.queue q).wbAddr, len := 8, data := headWord (s.queue q), queue := q }) := by
  have length : (headWord (s.queue q)).length = 8 := length_leBytes 8 _
  have due : writeHead s q = enqueueWrite (s.setQueue q { s.queue q with wbDirty := false, wbAt := s.now }) 1 q (s.queue q).wbAddr
      (headWord (s.queue q)) (fun _ => q % 8) fun _ => .headWb q := if_pos (by simp [on, dirty, late])
  show finishPlain s (writeHead s q) = _
  rw [due, enqueueWrite_within _ _ _ _ _ (by omega) (by omega), length]
  rfl

theorem exec_headWriteback_not_due {s : State} {q : Fin 256}
    (h : (s.queue q).wbEn = false ∨ (s.queue q).wbDirty = false ∨ s.now < (s.queue q).wbAt + 256) :
    exec (.headWriteback q) s = .next s := by
  have waits : writeHead s q = s := if_neg (by
    simp only [Bool.and_eq_true, decide_eq_true_eq]
    rintro ⟨⟨on, dirty⟩, late⟩
    rcases h with h | h | h
    · rw [h] at on; cases on
    · rw [h] at dirty; cases dirty
    · omega)
  show finishPlain s (writeHead s q) = _
  rw [waits]
  rfl

/-- Settles O24: `writeQueueHead` behind the gate of the port, and `writeHead`, whose 8 bytes at an aligned address are one write. -/
theorem headIsWrittenAndWrittenBack : Obligations.HeadIsWrittenAndWrittenBack := by
  unfold Obligations.HeadIsWrittenAndWrittenBack
  exact ⟨fun m q d s may => ⟨exec_queueHead_idle d may, exec_queueHead_busy d may⟩,
    fun q s => ⟨exec_headWriteback_due, exec_headWriteback_not_due⟩⟩

end Sys2Proof.Machine
end
section
/-! PROOFS. Grants (03 R118, R119; 04 R150, R151): the statement about them ranges over every state, also over one in which an earlier
entry waits for a staging pair that has become free. -/

namespace Sys2Proof.Machine

/-- A COPY of one byte, checked, at count 1. -/
def smallCopy : Buffered := { count := 1, desc := { opcode := opCopy, length := 1 }, checked := true }

/-- Group 0 in run 1 of its step, on queue 0. Its ALLREDUCE of count 0 runs and waits for the partition's one staging pair, which has
become free and which STAGING_PAIR_GRANT has not given it yet; the record in the replay window that it will read has lost a word (01
R34). `smallCopy` is the next entry of the queue. -/
def pairJustFreed : State :=
  { img := { active := some { cisterns := [{ banks := 1 }] } }
    groups := [(0, { gr := { valid := true }, run := 1
                     slot0 := { records := [{ entry := 0, opcode := opAllreduce, bytes := [0], crc := 0, bad := true }] } })]
    queues := [(0, { state := .running, map := { weight := 1, burst := 1 }, buffered := [smallCopy] })]
    ops := [{ q := 0, c := 0, desc := { opcode := opAllreduce, length := 1 }, num := 0, run := 1, running := true
              pair := .waiting }] }

theorem exec_grant (s : State) : exec .grant s = .next (State.plain s (grantNext s)) := rfl

@[simp] theorem State.plain_op? (s t : State) (q c : Nat) : (State.plain s t).op? q c = t.op? q c := rfl

theorem pairJustFreed_hypotheses : pairJustFreed.sync.lent = false ∧
    pairJustFreed.pick (if pairJustFreed.sluice.active && (pairJustFreed.pick pairJustFreed.sluice).isSome then pairJustFreed.sluice
      else pairJustFreed.newRound) = some (0, 0) ∧
    (pairJustFreed.queue 0).buffered = [smallCopy] ∧ pairJustFreed.op? 0 smallCopy.count = none := by decide

/-- The COPY is one that low-water service carries out, so it starts without a status. -/
theorem pairJustFreed_executes : (pairJustFreed.opOf 0 smallCopy).ended = none := by decide

/-- When the COPY asks for its pair, the pair goes to the ALLREDUCE (04 R151), whose lost window record halts the group (10 R404): the
COPY has ended as soon as it has started. -/
theorem grantNext_pairJustFreed : ((grantNext pairJustFreed).op? 0 smallCopy.count).any (fun o => o.ended == some codeHalted) = true := by
  decide

/-- Refutes O25: in `pairJustFreed` the grant of the COPY gives the free pair to the ALLREDUCE before it, whose reads halt the group, and
the entry just started has the status HALTED, where the statement has it without one. The statement lacks that no entry of the partition
waits for a pair. -/
theorem not_grantsStartEntries : ¬ Obligations.GrantsStartEntries := by
  unfold Obligations.GrantsStartEntries
  rintro ⟨grants, -⟩
  obtain ⟨free, picked, oldest, fresh⟩ := pairJustFreed_hypotheses
  obtain ⟨-, -, starts⟩ := grants pairJustFreed _ rfl
  obtain ⟨t, r, run, found, as_, -⟩ := starts 0 0 smallCopy [] free picked oldest fresh
  obtain rfl := Host.Outcome.next.inj ((exec_grant pairJustFreed).symm.trans run)
  have halted := grantNext_pairJustFreed
  rw [State.plain_op?] at found
  rw [found, Option.any_some, beq_iff_eq] at halted
  have executes : r.ended = none := (congrArg Op.ended as_).trans pairJustFreed_executes
  rw [executes] at halted
  cases halted

end Sys2Proof.Machine
end
section
/-! PROOFS. Entries without payload (03 R108; 08 R309, R310, R312-R314): NOP, the commands of entries that do not wait in the dispatch
queue, and local SIGNAL and WAIT. -/

namespace Sys2Proof.Machine

/-! ### Entries that are taken, and those that are not -/

theorem mapIf_mapIf {α : Type} {p : α → Bool} {f g : α → α} (l : List α) (h : ∀ a, p a = true → p (f a) = true) :
    mapIf p g (mapIf p f l) = mapIf p (fun a => g (f a)) l := by
  simp only [mapIf, List.map_map]
  refine List.map_congr_left fun a _ => ?_
  by_cases e : p a = true
  · simp [e, h a e]
  · simp [e]

/-- Two updates of one entry, of which the first keeps its queue and count. -/
theorem State.updOp_updOp (s : State) {q c : Nat} {f g : Op → Op} (h : ∀ o, Op.is o q c = true → Op.is (f o) q c = true) :
    (s.updOp q c f).updOp q c g = s.updOp q c fun o => g (f o) := by
  simp only [State.updOp, mapIf_mapIf _ h]

/-- An entry that does not wait with its opcode is not taken. -/
theorem takeEntry_not_dispatchable {s : State} {q c opcode : Nat} (go : State → Op → State)
    (h : ∀ o, ¬ State.dispatchable s q c opcode o) : takeEntry s q c opcode go = s := by
  unfold takeEntry
  cases found : s.op? q c with
  | none => rfl
  | some o =>
    refine if_neg ?_
    simp only [Bool.and_eq_true, beq_iff_eq, Bool.not_eq_true', Option.isNone_iff_eq_none]
    rintro ⟨⟨opc, idle⟩, open_⟩
    exact h o ⟨found, opc, idle, open_⟩

theorem finishPlain_not_dispatchable {s : State} {q c opcode : Nat} (go : State → Op → State)
    (h : ∀ o, ¬ State.dispatchable s q c opcode o) : finishPlain s (takeEntry s q c opcode go) = .next s := by
  rw [takeEntry_not_dispatchable go h]
  rfl

/-- The commands of queue operations, each with its opcode (03 R108). -/
def opcodeCommands (q : Fin 256) (c : Nat) : List (Instr × Nat) :=
  [(.nop q c, 0x00), (.allreduce q c, 0x01), (.reduceScatter q c, 0x02), (.allgather q c, 0x03),
    (.broadcast q c, 0x04), (.alltoall q c, 0x05), (.exchange q c, 0x06), (.rotate q c, 0x07), (.update q c, 0x08),
    (.digest q c, 0x09), (.barrier q c, 0x0A), (.signal q c, 0x0B), (.wait q c, 0x0C), (.copy q c, 0x0D), (.mark q c, 0x0E)]

/-- Each of them takes its entry from the dispatch queue. -/
theorem exec_takes {q : Fin 256} {c code : Nat} {i : Instr} (h : (i, code) ∈ opcodeCommands q c) (s : State) :
    ∃ go, exec i s = finishPlain s (takeEntry s q c code go) := by
  simp only [opcodeCommands, List.mem_cons, Prod.mk.injEq, List.not_mem_nil, or_false] at h
  rcases h with ⟨rfl, rfl⟩ | ⟨rfl, rfl⟩ | ⟨rfl, rfl⟩ | ⟨rfl, rfl⟩ | ⟨rfl, rfl⟩ |
    ⟨rfl, rfl⟩ | ⟨rfl, rfl⟩ | ⟨rfl, rfl⟩ | ⟨rfl, rfl⟩ | ⟨rfl, rfl⟩ |
    ⟨rfl, rfl⟩ | ⟨rfl, rfl⟩ | ⟨rfl, rfl⟩ | ⟨rfl, rfl⟩ | ⟨rfl, rfl⟩ <;> exact ⟨_, rfl⟩

/-- A taken entry: it runs. -/
def Op.taken (o : Op) : Op := { o with running := true }

/-- The state in which an entry has been taken from the dispatch queue. -/
def State.taken (s : State) (q c : Nat) (o : Op) : State := s.updOp q c fun _ => o.taken

section
variable {s : State} {q c opcode : Nat} {o : Op} (h : State.dispatchable s q c opcode o)
include h

theorem takeEntry_taken (go : State → Op → State) : takeEntry s q c opcode go = go (s.taken q c o) o.taken :=
  takeEntry_dispatchable go h

theorem taken_named : o.taken.q = q ∧ o.taken.c = c := State.op?_is (o := o) h.1

theorem op?_stateTaken : (s.taken q c o).op? q c = some o.taken := op?_taken h

/-- What is done to the taken entry, under its queue and count. -/
theorem updOp_taken (f : Op → Op) : (s.taken q c o).updOp q c f = s.updOp q c fun _ => f o.taken := by
  obtain ⟨found, -⟩ := h
  exact State.updOp_updOp s fun _ _ => (Op.is_iff _ q c).2 (State.op?_is (o := o) found)

theorem startNop_taken : startNop (s.taken q c o) o.taken =
    s.updOp q c fun _ => { o with running := true, ready := true, settled := true } := by
  obtain ⟨rfl, rfl⟩ := State.op?_is h.1
  exact updOp_taken h _

end

/-- Settles O27: every command of an opcode is `takeEntry`, which leaves an entry that is not dispatchable. -/
theorem nopCompletesAndOthersAreLeft : Obligations.NopCompletesAndOthersAreLeft := by
  unfold Obligations.NopCompletesAndOthersAreLeft
  refine ⟨fun q c s o h => ?_, fun q c s i code command h => ?_⟩
  · have run : exec (.nop q c) s = _ := congrArg (finishPlain s) (takeEntry_taken h startNop)
    rw [run, startNop_taken h]
    rfl
  · obtain ⟨go, run⟩ := exec_takes command s
    rw [run, finishPlain_not_dispatchable go h]

end Sys2Proof.Machine
end
section
/-! PROOFS. Local SIGNAL and WAIT (03 R121; 08 R309-R314): what a change of a counter leaves, where no waiter and no ROTATE follows it up,
and the two ends of a counter, at which the entry's queue enters ERROR. -/

namespace Sys2Proof.Machine

/-! ### Wake pulses and changes of a counter (08 R313, R316, R317) -/

theorem wakeQueues_onlyFetches (s : State) (w : Nat) : s.OnlyFetches (wakeQueues s w) := by
  refine List.foldlRecOn (motive := fun t => s.OnlyFetches t) _ _ (.refl s) fun t fetched q _ => ?_
  split
  · exact fetched.trans (startFetch_onlyFetches t q)
  · exact fetched

/-- A counter has a new record, but for its mirror, and the queues of its wake wire may fetch; the other counters and the waiters stay. -/
structure State.PutsCounter (s t : State) (n : Nat) (x : Counter) : Prop where
  rest : ∃ queues siphons sync, t = { s with queues, siphons, sync }
  waiters : t.sync.waiters = s.sync.waiters
  counter : ∃ mirrorDirty, t.counter n = { x with mirrorDirty }
  others : ∀ m, m ≠ n → t.counter m = s.counter m
  queue : ∀ p, ∃ batch batchId, t.queue p = { s.queue p with batch, batchId }

theorem setCounter_puts (s : State) (n : Nat) (x : Counter) (mirrorDirty : Bool) :
    s.PutsCounter (s.setCounter n { x with mirrorDirty }) n x :=
  ⟨⟨s.queues, s.siphons, _, rfl⟩, rfl, ⟨_, State.counter_setCounter s n _⟩, fun _ h => State.counter_setCounter_other s _ h,
    fun _ => ⟨_, _, rfl⟩⟩

theorem State.PutsCounter.fetches {s t u : State} {n : Nat} {x : Counter} (h : s.PutsCounter t n x) (k : t.OnlyFetches u) :
    s.PutsCounter u n x := by
  obtain ⟨⟨queues, siphons, sync, rfl⟩, waiters, counter, others, queue⟩ := h
  obtain ⟨⟨queues', siphons', rfl⟩, queue'⟩ := k
  refine ⟨⟨queues', siphons', sync, rfl⟩, waiters, counter, others, fun p => ?_⟩
  obtain ⟨b, id, eq⟩ := queue p
  obtain ⟨b', id', eq'⟩ := queue' p
  exact ⟨b', id', by rw [eq', eq]⟩

/-- Flags of the sync unit that are none of its counters and waiters. -/
theorem State.PutsCounter.updSync {s t : State} {n : Nat} {x : Counter} (h : s.PutsCounter t n x) {f : SyncSt → SyncSt}
    (counters : (f t.sync).counters = t.sync.counters) (waiters : (f t.sync).waiters = t.sync.waiters) :
    s.PutsCounter (t.updSync f) n x := by
  have same : ∀ m, (t.updSync f).counter m = t.counter m := fun m => by simp only [State.counter, State.updSync_sync, counters]
  obtain ⟨⟨queues, siphons, sync, e⟩, kept, ⟨mirrorDirty, counter⟩, others, queue⟩ := h
  refine ⟨⟨queues, siphons, f t.sync, by rw [e]; rfl⟩, waiters.trans kept, ⟨mirrorDirty, (same n).trans counter⟩,
    fun m hm => (same m).trans (others m hm), queue⟩

theorem State.PutsCounter.pulse {s t : State} {n : Nat} {x : Counter} (h : s.PutsCounter t n x) (w : Nat) :
    s.PutsCounter (Machine.pulse t w) n x :=
  State.PutsCounter.fetches (h.updSync
    (f := fun y => { y with wakeOut := (y.wakeOut.filter fun p => p.1 != w) ++ [(w, t.now)] }) rfl rfl) (wakeQueues_onlyFetches _ _)

theorem markMirror_form (n : Nat) (old new : Counter) : ∃ mirrorDirty, markMirror n old new = { new with mirrorDirty } := by
  unfold markMirror
  split
  · exact ⟨true, rfl⟩
  · exact ⟨new.mirrorDirty, rfl⟩

theorem putCounter_puts (s : State) (n : Nat) (old new : Counter) : s.PutsCounter (putCounter s n old new) n new := by
  obtain ⟨mirrorDirty, marked⟩ := markMirror_form n old new
  have put := setCounter_puts s n new mirrorDirty
  unfold putCounter
  dsimp only
  rw [marked]
  split
  · exact put.pulse _
  · exact put

/-! ### Where nothing follows the change up -/

/-- Without a started ROTATE no release wait is parked. -/
theorem rotateWaits_none {s : State} (h : ∀ y ∈ s.ops, y.desc.opcode ≠ 0x07) : rotateWaits s = s := by
  refine List.foldlRecOn (motive := fun t => t = s) _ _ rfl fun t same y hy => ?_
  have other : ¬ (y.desc.opcode == opRotate) = true := fun rotate => h y hy (beq_iff_eq.1 rotate)
  exact (if_neg other).trans same

theorem checkWaiters_none {s : State} {n : Nat} (free : ∀ w ∈ s.sync.waiters, w.counter ≠ n) :
    checkWaiters s n = rotateWaits s := by
  have unwaited : s.sync.waiters.filter (fun w => w.counter == n) = [] := by simpa using free
  simp [checkWaiters, unwaited]

/-- The entries after an update of one of them that makes no ROTATE of it. -/
theorem updOp_no_rotate {s : State} {f : Op → Op} (h : ∀ y ∈ s.ops, y.desc.opcode ≠ 0x07) (q c : Nat)
    (other : ∀ y ∈ s.ops, (f y).desc.opcode ≠ 0x07) : ∀ y ∈ (s.updOp q c f).ops, y.desc.opcode ≠ 0x07 := by
  intro y hy
  obtain ⟨z, hz, rfl⟩ := List.mem_map.1 hy
  split
  · exact other z hz
  · exact h z hz

/-! ### A signal to a counter (08 R312-R314) -/

/-- The signal finds no room in the counter: the difference would be below 0, or the sum above 2^32 - 1. -/
def Counter.misused (x : Counter) (sub : Bool) (amount : Nat) : Bool :=
  if sub then decide (x.value < amount) else decide (2 ^ 32 - 1 < x.value + amount)

/-- The counter with the sum or the difference, or at its end. -/
def Counter.signalled (x : Counter) (sub : Bool) (amount : Nat) : Counter :=
  if sub then { x with value := x.value - amount, under := x.misused sub amount }
  else { x with value := min (2 ^ 32 - 1) (x.value + amount), sat := x.misused sub amount }

/-- The state in which the counter has been changed and its end noted, before its waiters are checked. -/
def signalPut (s : State) (n : Nat) (sub : Bool) (amount : Nat) (src : ChangeSrc) : State :=
  (putCounter s n (s.counter n) (stampLast s ((s.counter n).signalled sub amount) src false)).updSync fun y => { y with
    satSeen := y.satSeen || (!sub && (s.counter n).misused sub amount)
    underSeen := y.underSeen || (sub && (s.counter n).misused sub amount) }

theorem signalPut_puts (s : State) (n : Nat) (sub : Bool) (amount : Nat) (src : ChangeSrc) :
    s.PutsCounter (signalPut s n sub amount src) n (stampLast s ((s.counter n).signalled sub amount) src false) :=
  (putCounter_puts s n (s.counter n) _).updSync rfl rfl

section
variable {s : State} {n : Nat} (sub : Bool) (amount : Nat) (src : ChangeSrc)
  (sat : (s.counter n).sat = false) (under : (s.counter n).under = false)
include sat under

/-- A counter that is not at an end takes the signal; the code tells of an end that it reaches (08 R312, R323). -/
theorem applySignal_open : applySignal s n sub amount src = (checkWaiters (signalPut s n sub amount src) n,
    if (s.counter n).misused sub amount then if sub then 2 else 1 else 0) := by
  cases sub <;> simp [applySignal, sat, under, signalPut, Counter.signalled, Counter.misused]

/-- With no waiter at the counter and no started ROTATE, nothing follows. -/
theorem applySignal_puts (free : ∀ w ∈ s.sync.waiters, w.counter ≠ n) (still : ∀ y ∈ s.ops, y.desc.opcode ≠ 0x07) :
    applySignal s n sub amount src = (signalPut s n sub amount src,
      if (s.counter n).misused sub amount then if sub then 2 else 1 else 0) := by
  have put := signalPut_puts s n sub amount src
  obtain ⟨_, _, _, e⟩ := put.rest
  rw [applySignal_open sub amount src sat under, checkWaiters_none (by rw [put.waiters]; exact free),
    rotateWaits_none (by rw [e]; exact still)]

end

/-! ### ERROR (03 R121, R131) -/

/-- The queue is in ERROR for a cause, where it has a state of its own and no earlier error stands. -/
structure QueueSt.Failed (x y : QueueSt) (cause index : Nat) : Prop where
  state : x.state ≠ .absent → y.state = .error
  first : x.state ≠ .error → x.state ≠ .absent → y.enable = false ∧ (x.cause = 0 → y.cause = cause ∧ y.errIndex = index)

theorem discardUnstarted_form (s : State) (q : Nat) : ∃ queues, discardUnstarted s q = { s with queues } := ⟨_, rfl⟩

/-- FETCH returns to the first entry discarded, if there is one. -/
theorem discardUnstarted_queue (s : State) (q : Nat) : (discardUnstarted s q).queue q = { s.queue q with
    fetch := ((s.queue q).buffered.head?.map (·.count)).getD (s.queue q).fetch
    buffered := [], batch := none, mapLeft := 0, mapBuf := [] } := by
  rw [discardUnstarted, State.queue_updQueue_same]
  cases (s.queue q).buffered <;> rfl

theorem setQState_queue (s : State) (q : Nat) (st : QState) : ∃ wbDirty, (setQState s q st).queue q =
    { s.queue q with state := st, wbDirty } := by
  rw [setQState, State.queue_updQueue_same]
  split
  next same => exact ⟨_, by rw [← beq_iff_eq.1 same]⟩
  next => exact ⟨_, rfl⟩

theorem queueError_form (s : State) (q cause index : Nat) : ∃ queues, queueError s q cause index = { s with queues } := by
  have discarded : ∀ t : State, (∃ queues, t = { s with queues }) → ∃ queues, discardUnstarted t q = { s with queues } := by
    rintro _ ⟨queues, rfl⟩
    exact discardUnstarted_form { s with queues } q
  unfold queueError
  refine discarded _ ?_
  split
  · exact ⟨s.queues, rfl⟩
  split <;> exact ⟨_, rfl⟩

theorem queueError_failed (s : State) (q cause index : Nat) :
    (s.queue q).Failed ((queueError s q cause index).queue q) cause index := by
  unfold queueError
  dsimp only
  split
  next own =>
    rw [discardUnstarted_queue]
    simp only [Bool.or_eq_true, beq_iff_eq] at own
    exact ⟨own.resolve_right, fun ok here => absurd own (by simp [ok, here])⟩
  split
  next _ earlier =>
    obtain ⟨_, e⟩ := setQState_queue (s.setQueue q { s.queue q with enable := false }) q .error
    rw [discardUnstarted_queue, e, State.queue_setQueue]
    exact ⟨fun _ => rfl, fun _ _ => ⟨rfl, fun none => absurd none (by simpa using earlier)⟩⟩
  next =>
    obtain ⟨_, e⟩ := setQState_queue (s.setQueue q { s.queue q with enable := false, cause, errIndex := index }) q .error
    rw [discardUnstarted_queue, e, State.queue_setQueue]
    exact ⟨fun _ => rfl, fun _ _ => ⟨rfl, fun _ => ⟨rfl, rfl⟩⟩⟩

/-- What a fetch changes of a queue does not matter to its state and its cause. -/
theorem QueueSt.Failed.of_fetch {x y : QueueSt} {cause index batchId : Nat} {batch : Option Batch}
    (h : { x with batch, batchId }.Failed y cause index) : x.Failed y cause index := ⟨h.state, h.first⟩

/-! ### The signal of an entry (08 R314) -/

/-- A signal has been applied to counter `n` for an entry of count `c` of queue `q`. -/
structure State.Signalled (s t : State) (q c n : Nat) (sub : Bool) (amount : Nat) (src : ChangeSrc) : Prop where
  rest : ∃ queues siphons sync, t = { s with queues, siphons, sync }
  counter : ∃ mirrorDirty, t.counter n =
    { stampLast s ((s.counter n).signalled sub amount) src false with mirrorDirty }
  others : ∀ m, m ≠ n → t.counter m = s.counter m
  failed : (s.counter n).misused sub amount = true → (s.queue q).Failed (t.queue q) 8 c

section
variable {s : State} {n : Nat} (q c : Nat) (sub : Bool) (amount kind : Nat)
  (sat : (s.counter n).sat = false) (under : (s.counter n).under = false) (free : ∀ w ∈ s.sync.waiters, w.counter ≠ n)
  (still : ∀ y ∈ s.ops, y.desc.opcode ≠ 0x07)
include sat under free still

theorem entrySignal_signalled : s.Signalled (entrySignal s q c n sub amount kind) q c n sub amount ⟨kind, s.me, q⟩ := by
  obtain ⟨⟨queues, siphons, sync, rest⟩, -, counter, others, queue⟩ := signalPut_puts s n sub amount ⟨kind, s.me, q⟩
  rw [entrySignal, applySignal_puts sub amount _ sat under free still]
  cases misused : (s.counter n).misused sub amount
  case false => exact ⟨⟨queues, siphons, sync, rest⟩, counter, others, fun h => by rw [misused] at h; cases h⟩
  case true =>
    have code : ((if sub then 2 else 1 : Nat) == 0) = false := by cases sub <;> rfl
    simp only [if_true, code, Bool.false_eq_true, if_false]
    obtain ⟨queues', e⟩ := queueError_form (signalPut s n sub amount ⟨kind, s.me, q⟩) q 8 c
    have failed := queueError_failed (signalPut s n sub amount ⟨kind, s.me, q⟩) q 8 c
    obtain ⟨batch, batchId, own⟩ := queue q
    rw [own] at failed
    refine ⟨⟨queues', siphons, sync, by rw [e, rest]⟩, ?_, ?_, fun _ => failed.of_fetch⟩
    · rw [e]; exact counter
    · rw [e]; exact others

end

section
variable {q : Fin 256} {c : Nat} {s : State} {o : Op}

theorem startSignal_local {u : State} {r : Op} (here : bit r.desc.aux64 63 = false)
    (own : boundElsewhere u r.desc.sync r.desc.noGroup r.desc.group = false) : startSignal u r =
      startNop (entrySignal u r.q r.c r.desc.sync (bit r.desc.aux16 0) r.desc.aux32 kindSignal) r := by
  simp only [startSignal, here, entryChange, own, Bool.false_eq_true, if_false]

theorem taken_no_rotate (still : ∀ y ∈ s.ops, y.desc.opcode ≠ 0x07) (other : o.desc.opcode ≠ 0x07) :
    ∀ y ∈ (s.taken q c o).ops, y.desc.opcode ≠ 0x07 := updOp_no_rotate still q c fun _ _ => other

/-- 08 R309: what a local SIGNAL of an entry that waits in the dispatch queue does. -/
theorem exec_signal_local (h : State.dispatchable s q c 0x0B o) (here : bit o.desc.aux64 63 = false)
    (sat : (s.counter o.desc.sync).sat = false) (under : (s.counter o.desc.sync).under = false)
    (own : boundElsewhere s o.desc.sync o.desc.noGroup o.desc.group = false) (free : ∀ w ∈ s.sync.waiters, w.counter ≠ o.desc.sync)
    (still : ∀ y ∈ s.ops, y.desc.opcode ≠ 0x07) : ∃ u, (s.taken q c o).Signalled u q c o.desc.sync (bit o.desc.aux16 0)
      o.desc.aux32 ⟨kindSignal, s.me, q⟩ ∧ exec (.signal q c) s = .next (State.plain s (startNop u o.taken)) := by
  have still' := taken_no_rotate (q := q) (c := c) (o := o) still (by simp [h.2.1])
  obtain ⟨queue, count⟩ := taken_named h
  have start := startSignal_local (u := s.taken q c o) (r := o.taken) here own
  rw [queue, count] at start
  exact ⟨_, entrySignal_signalled q c (bit o.desc.aux16 0) o.desc.aux32 kindSignal sat under free still',
    (congrArg (finishPlain s) ((takeEntry_taken h startSignal).trans start))⟩

/-- An entry that is found is found changed after an update. -/
theorem op?_updOp_found {u : State} {r : Op} {d : Nat} {p : Nat} (found : u.op? p d = some r) (f : Op → Op)
    (named : ∀ o : Op, (f o).q = o.q ∧ (f o).c = o.c) : (u.updOp p d f).op? p d = some (f r) := by
  rw [State.op?_updOp u p d f named, found]
  rfl

/-- An entry that has nothing to do is found complete. -/
theorem op?_startNop {u : State} {r : Op} (found : u.op? r.q r.c = some r) :
    (startNop u r).op? r.q r.c = some { r with ready := true, settled := true } :=
  op?_updOp_found found (fun o => { o with ready := true, settled := true }) fun _ => ⟨rfl, rfl⟩

end

/-! ### WAIT (08 R310) -/

theorem Counter.meets_iff (x : Counter) (threshold : Nat) : x.meets threshold = true ↔
    x.sat = false ∧ x.under = false ∧ threshold ≤ x.value := by simp [Counter.meets, and_assoc]

/-- What the waiter of a WAIT leaves when it is released, but for the entry itself. -/
structure State.Released (s u : State) (w : Waiter) : Prop where
  rest : ∃ queues siphons sync, u = { s with queues, siphons, sync }
  counter : (u.counter w.counter).value =
    if w.consume then (s.counter w.counter).value - w.threshold else (s.counter w.counter).value
  others : ∀ m, m ≠ w.counter → u.counter m = s.counter m

theorem releaseWaiter_wait {s : State} {w : Waiter} (wait : w.rotate = false) : ∃ u, s.Released u w ∧
    releaseWaiter s w = u.updOp w.q w.c fun o => { o with ready := true } := by
  have own : ∀ t : State, t.releaseRefused w = false := fun t => by simp [State.releaseRefused, wait]
  cases consumes : w.consume with
  | false =>
    refine ⟨s.updSync fun y => { y with waiters := y.waiters.erase w, quietSince := none },
      ⟨⟨s.queues, s.siphons, _, rfl⟩, by rw [consumes]; rfl, fun _ _ => rfl⟩, ?_⟩
    simp only [releaseWaiter, wait, consumes, Bool.not_false, if_true, Bool.false_eq_true, if_false]
  | true =>
    obtain ⟨⟨queues, siphons, sync, rest⟩, -, ⟨_, counter⟩, others, -⟩ := putCounter_puts
      (s.updSync fun y => { y with waiters := y.waiters.erase w, quietSince := none }) w.counter (s.counter w.counter)
      (stampLast s { s.counter w.counter with value := (s.counter w.counter).value - w.threshold } ⟨kindWait, s.me, w.q⟩ false)
    refine ⟨_, ⟨⟨queues, siphons, sync, rest⟩, by rw [counter, consumes]; rfl, others⟩, ?_⟩
    simp only [releaseWaiter, wait, consumes, own, Bool.not_true, Bool.false_eq_true, if_false]
    rfl

/-- The waiter that a WAIT parks. -/
def waiterOf (s : State) (o : Op) : Waiter where
  counter := o.desc.sync
  q := o.q
  c := o.c
  threshold := o.desc.aux32
  consume := bit o.desc.aux16 0
  rotate := false
  tally := s.stamp

/-- The state in which the waiter of an entry has parked. -/
def waitParked (s : State) (o : Op) : State := s.updSync fun y => { y with waiters := y.waiters ++ [waiterOf s o] }

section
variable {u : State} {r : Op} (still : ∀ y ∈ u.ops, y.desc.opcode ≠ 0x07)
include still

theorem startWait_parks (unmet : (u.counter r.desc.sync).meets r.desc.aux32 = false) : startWait u r = waitParked u r := by
  have parks : parkOrRelease u (waiterOf u r) = waitParked u r := if_neg (by simpa [waiterOf] using unmet)
  exact (congrArg rotateWaits parks).trans (rotateWaits_none still)

theorem startWait_releases (met : (u.counter r.desc.sync).meets r.desc.aux32 = true) : ∃ v,
    (waitParked u r).Released v (waiterOf u r) ∧ startWait u r = v.updOp r.q r.c fun o => { o with ready := true } := by
  obtain ⟨v, released, eq⟩ := releaseWaiter_wait (s := waitParked u r) (w := waiterOf u r) rfl
  have releases : parkOrRelease u (waiterOf u r) = releaseWaiter (waitParked u r) (waiterOf u r) := if_pos met
  refine ⟨v, released, ((congrArg rotateWaits (releases.trans eq))).trans (rotateWaits_none ?_)⟩
  obtain ⟨queues, siphons, sync, rest⟩ := released.rest
  have still' : ∀ y ∈ v.ops, y.desc.opcode ≠ 0x07 := by rw [rest]; exact still
  exact updOp_no_rotate still' _ _ still'

end

theorem exec_wait_taken {q : Fin 256} {c : Nat} {s : State} {o : Op} (h : State.dispatchable s q c 0x0C o) :
    exec (.wait q c) s = .next (State.plain s (startWait (s.taken q c o) o.taken)) :=
  congrArg (finishPlain s) (takeEntry_taken h startWait)

section
variable {q : Fin 256} {c : Nat} {s : State} {o : Op} (h : State.dispatchable s q c 0x0C o)
  (still : ∀ y ∈ s.ops, y.desc.opcode ≠ 0x07)
include h still

theorem exec_wait_released (met : (s.counter o.desc.sync).sat = false ∧ (s.counter o.desc.sync).under = false ∧
      o.desc.aux32 ≤ (s.counter o.desc.sync).value) : ∃ t, exec (.wait q c) s = .next t ∧
    (∃ r, t.op? q c = some r ∧ r.running = true ∧ r.ready = true) ∧
    (t.counter o.desc.sync).value =
      (if bit o.desc.aux16 0 then (s.counter o.desc.sync).value - o.desc.aux32 else (s.counter o.desc.sync).value) ∧
    (∀ m, m ≠ o.desc.sync → t.counter m = s.counter m) ∧ t.groups = s.groups := by
  obtain ⟨v, ⟨⟨queues, siphons, sync, rest⟩, counter, others⟩, start⟩ := startWait_releases (u := s.taken q c o) (r := o.taken)
    (taken_no_rotate still (by simp [h.2.1])) ((Counter.meets_iff _ _).2 met)
  have run := exec_wait_taken h
  rw [start] at run
  obtain ⟨queue, count⟩ := taken_named h
  rw [queue, count] at run
  have found : v.op? q c = some o.taken := by rw [rest]; exact op?_stateTaken h
  refine ⟨_, run, ⟨{ o.taken with ready := true }, ?_, rfl, rfl⟩, counter, others, by rw [rest]; rfl⟩
  exact op?_updOp_found found (fun o => { o with ready := true }) fun _ => ⟨rfl, rfl⟩

theorem exec_wait_parked (unmet : ¬ ((s.counter o.desc.sync).sat = false ∧ (s.counter o.desc.sync).under = false ∧
      o.desc.aux32 ≤ (s.counter o.desc.sync).value)) :
    exec (.wait q c) s = .next (waitParked (s.taken q c o) o.taken) := by
  have start := startWait_parks (u := s.taken q c o) (r := o.taken) (taken_no_rotate still (by simp [h.2.1]))
    (Bool.eq_false_iff.2 fun met => unmet ((Counter.meets_iff _ _).1 met))
  exact (exec_wait_taken h).trans (by rw [start]; rfl)

end

/-! ### The statement -/

section
variable {x : Counter} {a : Nat}

theorem Counter.signalled_sum (fits : x.value + a < 2 ^ 32) :
    (x.signalled false a).value = x.value + a ∧ (x.signalled false a).sat = false := by
  simp only [Counter.signalled, Counter.misused, Bool.false_eq_true, if_false, decide_eq_false_iff_not]
  omega

theorem Counter.signalled_high (beyond : 2 ^ 32 ≤ x.value + a) : x.misused false a = true ∧
    (x.signalled false a).value = 2 ^ 32 - 1 ∧ (x.signalled false a).sat = true := by
  simp only [Counter.signalled, Counter.misused, Bool.false_eq_true, if_false, decide_eq_true_eq]
  omega

theorem Counter.signalled_difference (fits : a ≤ x.value) :
    (x.signalled true a).value = x.value - a ∧ (x.signalled true a).under = false := by
  simp only [Counter.signalled, Counter.misused, if_true, decide_eq_false_iff_not, true_and]
  omega

theorem Counter.signalled_low (below : x.value < a) : x.misused true a = true ∧
    (x.signalled true a).value = 0 ∧ (x.signalled true a).under = true := by
  simp only [Counter.signalled, Counter.misused, if_true, decide_eq_true_eq]
  omega

end

/-- Settles O29: a local SIGNAL is `entrySignal` and is complete, a WAIT is released or parks; no waiter and no ROTATE follows. -/
theorem localSignalsAndWaits : Obligations.LocalSignalsAndWaits := by
  unfold Obligations.LocalSignalsAndWaits
  refine ⟨?signal, ?wait⟩
  case wait =>
    rintro q c s o _ h still rfl
    exact ⟨exec_wait_released h still, exec_wait_parked h still⟩
  case signal =>
    rintro q c s o n a v h here rfl rfl rfl sat under own free still -
    obtain ⟨u, ⟨⟨queues, siphons, sync, rest⟩, ⟨mirror, counter⟩, others, failed⟩, run⟩ :=
      exec_signal_local h here sat under own free still
    obtain ⟨queue, count⟩ := taken_named h
    have found : u.op? o.taken.q o.taken.c = some o.taken := by rw [queue, count, rest]; exact op?_stateTaken h
    have complete := op?_startNop found
    rw [queue, count] at complete
    have counter' : (State.plain s (startNop u o.taken)).counter o.desc.sync = _ := counter
    refine ⟨_, run, others, ⟨_, complete, rfl, rfl, rfl⟩, ?_⟩
    rw [counter']
    refine ⟨rfl, rfl, rfl, fun add fits => ?_, fun add beyond => ?_, fun sub fits => ?_, fun sub below => ?_,
      by rw [rest]; rfl, by rw [rest]; rfl, by rw [rest]; rfl⟩
    · rw [add]; exact Counter.signalled_sum fits
    · rw [add] at failed ⊢
      obtain ⟨misused, value, high⟩ := Counter.signalled_high beyond
      exact ⟨value, high, (failed misused).state, (failed misused).first⟩
    · rw [sub]; exact Counter.signalled_difference fits
    · rw [sub] at failed ⊢
      obtain ⟨misused, value, low⟩ := Counter.signalled_low below
      exact ⟨value, low, (failed misused).state, (failed misused).first⟩

end Sys2Proof.Machine
end
section
/-! PROOFS. Early ends (03 R128, R129; 04 R172-R174): what the early end of an entry leaves of its queue, the groups and the other entries;
QUEUE_DISABLE and CANCEL. -/

namespace Sys2Proof.Machine

/-! ### Entries in flight (03 R106, R112) -/

/-- The transfer writes a completion record of a queue. -/
def Xfer.recordsFor (q : Nat) (x : Xfer) : Bool :=
  match x.pur with
  | .record r _ => r == q
  | _ => false

theorem State.inFlight_eq (s : State) (q : Nat) : s.inFlight q =
    (s.ops.filter fun o => o.q == q).length + (s.xfers.filter (Xfer.recordsFor q)).length := rfl

/-- The write of a completion record belongs to no started entry. -/
theorem Xfer.entry_of_recordsFor {q : Nat} {x : Xfer} (h : x.recordsFor q = true) : x.pur.entry = none := by
  unfold Xfer.recordsFor at h
  split at h
  next e => rw [e]; rfl
  next => cases h

theorem filter_filter_of_imp {α : Type} {p r : α → Bool} (l : List α) (h : ∀ x, r x = true → p x = true) :
    (l.filter p).filter r = l.filter r := by
  rw [List.filter_filter]
  refine List.filter_congr fun x _ => ?_
  cases e : r x
  · rfl
  · simp [h x e]

/-- Every transfer that waits or is out at a siphon. -/
def SiphonSt.xfers (p : SiphonSt) : List Xfer := p.waiting ++ p.out.map (·.2)

/-- What is kept of the siphons and is in their tables again has the same transfers of a kind that is kept whole. -/
theorem siphons_keepWaiting {s : State} {keep r : Xfer → Bool} (h : ∀ x, r x = true → keep x = true) :
    (((s.keepWaiting keep).siphons.flatMap fun x => x.2.xfers).filter r) = (s.siphons.flatMap fun x => x.2.xfers).filter r := by
  unfold State.keepWaiting
  generalize s.awaits = waits
  dsimp only
  induction s.siphons with
  | nil => rfl
  | cons a l ih =>
    have kept : (SiphonSt.clearCredits { a.2 with waiting := a.2.waiting.filter keep } waits).xfers.filter r = a.2.xfers.filter r := by
      simp only [SiphonSt.xfers, SiphonSt.clearCredits, List.filter_append, filter_filter_of_imp _ h]
    rw [List.map_cons, List.filter_cons, List.flatMap_cons, List.filter_append, ← ih, ← kept]
    dsimp only
    split
    · rw [List.flatMap_cons, List.filter_append]
    next reset =>
      have reset' : SiphonSt.clearCredits { a.2 with waiting := a.2.waiting.filter keep } waits = {} := by simpa using reset
      rw [reset']
      rfl

theorem State.xfers_eq (s : State) : s.xfers = (s.siphons.flatMap fun x => x.2.xfers) ++ s.cache.fills.flatMap (·.waiters) := rfl

/-- An early end drops transfers of its own entry alone. -/
theorem xfers_dropTransfers (s : State) (q c : Nat) {r : Xfer → Bool} (h : ∀ x, r x = true → x.pur.entry = none) :
    (dropTransfers s q c).xfers.filter r = s.xfers.filter r := by
  generalize unit : (s.op? q c).any (fun o => o.upd.issued) = u
  have kept : ∀ x, r x = true → (!(x.pur.entry == some (q, c) && !(u && x.pur.isUnit))) = true := fun x hx => by simp [h x hx]
  have fills : ((dropTransfers s q c).cache.fills.flatMap (·.waiters)).filter r = (s.cache.fills.flatMap (·.waiters)).filter r := by
    subst unit
    simp only [dropTransfers, List.flatMap_map, List.filter_flatMap, filter_filter_of_imp _ kept]
  rw [State.xfers_eq, State.xfers_eq, List.filter_append, List.filter_append, fills]
  subst unit
  exact congrArg (· ++ _) (siphons_keepWaiting kept)

/-! ### What an early end leaves -/

/-- Entries of a queue have ended early: the entries and the records of the other queues stay, the queue keeps all but its resume record,
and a group changes only where it names a mark of the queue. -/
structure State.EndsIn (s t : State) (q : Nat) : Prop where
  rest : ∃ queues ops siphons fills sync groups, t = { s with
    queues, ops, siphons, cache := { s.cache with fills }, sync, groups }
  others : ∀ o ∈ s.ops, o.q ≠ q → o ∈ t.ops
  queue : ∃ resume, t.queue q = { s.queue q with resume }
  queues : ∀ p, p ≠ q → t.queue p = s.queue p
  inFlight : t.inFlight q = s.inFlight q
  groups : (∀ g c, (s.group g).markOp ≠ some (q, c)) → t.groups = s.groups
  marks : ∀ g, ((t.group g).markOp = (s.group g).markOp ∧ (t.group g).marking = (s.group g).marking) ∨ (t.group g).markOp = none

theorem State.EndsIn.refl (s : State) (q : Nat) : s.EndsIn s q :=
  ⟨⟨_, _, _, _, _, _, rfl⟩, fun _ h _ => h, ⟨_, rfl⟩, fun _ _ => rfl, rfl, fun _ => rfl, fun _ => .inl ⟨rfl, rfl⟩⟩

theorem State.EndsIn.trans {s t u : State} {q : Nat} (h : s.EndsIn t q) (k : t.EndsIn u q) : s.EndsIn u q where
  rest := by
    obtain ⟨_, _, _, _, _, _, rfl⟩ := h.rest
    obtain ⟨_, _, _, _, _, _, rfl⟩ := k.rest
    exact ⟨_, _, _, _, _, _, rfl⟩
  others := fun o mem other => k.others o (h.others o mem other) other
  queue := by
    obtain ⟨_, first⟩ := h.queue
    obtain ⟨resume, second⟩ := k.queue
    exact ⟨resume, by rw [second, first]⟩
  queues := fun p other => (k.queues p other).trans (h.queues p other)
  inFlight := k.inFlight.trans h.inFlight
  groups := fun free => by
    have first := h.groups free
    exact (k.groups fun g c => by rw [State.group, first]; exact free g c).trans first
  marks := fun g => by
    rcases k.marks g with ⟨op, mark⟩ | gone
    · rcases h.marks g with ⟨op', mark'⟩ | gone'
      · exact .inl ⟨op.trans op', mark.trans mark'⟩
      · exact .inr (op.trans gone')
    · exact .inr gone

theorem updOp_endsIn (s : State) (q c : Nat) {f : Op → Op} (named : ∀ o, (f o).q = o.q) : s.EndsIn (s.updOp q c f) q where
  rest := ⟨_, _, _, _, _, _, rfl⟩
  others := fun o mem other => State.mem_updOp mem (Bool.eq_false_iff.2 fun is => other ((Op.is_iff o q c).1 is).1)
  queue := ⟨_, rfl⟩
  queues := fun _ _ => rfl
  inFlight := by
    have same : ((s.updOp q c f).ops.filter fun o => o.q == q).length = (s.ops.filter fun o => o.q == q).length := by
      simp only [State.updOp, mapIf, ← List.countP_eq_length_filter, List.countP_map]
      refine List.countP_congr fun o _ => ?_
      simp only [Function.comp_apply]
      split
      · rw [named]
      · rfl
    rw [State.inFlight_eq, same]
    rfl
  groups := fun _ => rfl
  marks := fun _ => .inl ⟨rfl, rfl⟩

theorem dropTransfers_endsIn (s : State) (q c : Nat) : s.EndsIn (dropTransfers s q c) q where
  rest := ⟨_, _, _, _, _, _, rfl⟩
  others := fun _ mem _ => mem
  queue := ⟨_, rfl⟩
  queues := fun _ _ => rfl
  inFlight := by
    rw [State.inFlight_eq, xfers_dropTransfers s q c fun _ h => Xfer.entry_of_recordsFor h]
    rfl
  groups := fun _ => rfl
  marks := fun _ => .inl ⟨rfl, rfl⟩

theorem updSync_endsIn (s : State) (q : Nat) (f : SyncSt → SyncSt) : s.EndsIn (s.updSync f) q :=
  ⟨⟨_, _, _, _, _, _, rfl⟩, fun _ h _ => h, ⟨_, rfl⟩, fun _ _ => rfl, rfl, fun _ => rfl, fun _ => .inl ⟨rfl, rfl⟩⟩

theorem refreshResume_endsIn (s : State) (q : Nat) : s.EndsIn (refreshResume s q) q where
  rest := ⟨_, _, _, _, _, _, rfl⟩
  others := fun _ mem _ => mem
  queue := by
    rw [refreshResume, State.queue_updQueue_same]
    dsimp only
    split <;> exact ⟨_, rfl⟩
  queues := fun _ other => State.queue_updQueue_other s _ other
  inFlight := rfl
  groups := fun _ => rfl
  marks := fun _ => .inl ⟨rfl, rfl⟩

theorem refreshTimer_groups (s : State) (g : Nat) : ∃ groups, refreshTimer s g = { s with groups } := ⟨_, rfl⟩

/-- A change of the groups alone, where one of them names a mark of the queue. -/
theorem State.EndsIn.of_mark {s t : State} {q c g : Nat} (marked : (s.group g).markOp = some (q, c))
    (form : ∃ groups, t = { s with groups })
    (marks : ∀ g, ((t.group g).markOp = (s.group g).markOp ∧ (t.group g).marking = (s.group g).marking) ∨ (t.group g).markOp = none) :
    s.EndsIn t q := by
  obtain ⟨groups, rfl⟩ := form
  exact ⟨⟨_, _, _, _, _, _, rfl⟩, fun _ mem _ => mem, ⟨_, rfl⟩, fun _ _ => rfl, rfl,
    fun free => absurd marked (free g c), marks⟩

/-- The weir of a MARK ends with its entry (03 R129). -/
theorem unmark_endsIn (s : State) {q c g : Nat} (marked : (s.group g).markOp = some (q, c)) :
    s.EndsIn (refreshTimer (s.updGroup g fun x => { x with marking := none, markOp := none }) g) q := by
  obtain ⟨groups, timed⟩ := refreshTimer_groups (s.updGroup g fun x => { x with marking := none, markOp := none }) g
  refine .of_mark marked ⟨groups, timed⟩ fun h => ?_
  rw [group_refreshTimer GroupSt.markOp fun _ _ => rfl, group_refreshTimer GroupSt.marking fun _ _ => rfl]
  by_cases e : h = g
  · rw [e, State.group_updGroup_same]; exact .inr rfl
  · rw [State.group_updGroup_other _ _ e]; exact .inl ⟨rfl, rfl⟩

/-- The entry once it has ended early with a status; `torn` where the write of its commit unit had faulted (07 R293). -/
def Op.endedWith (o : Op) (st : Nat) (torn : Bool) : Op := { o with
  ended := some st, pause := none, kept := []
  upd := { o.upd with
    tornDue := torn, phase := if o.upd.issued then o.upd.phase else .idle, reading := false, forming := {}, units := [] } }

/-- The state in which an entry has ended, before the weir of its mark and the resume record follow. -/
def endedEarly (s : State) (q c st : Nat) (torn : Bool) : State :=
  ((dropTransfers s q c).updSync fun y => { y with waiters := y.waiters.filter fun w => !(w.q == q && w.c == c) }).updOp q c
    fun o => o.endedWith st torn

section
variable {s : State} {q c : Nat} {o : Op} (st : Nat) (found : s.op? q c = some o)
include found

theorem endOp_past (past : s.past o = true) : endOp s q c st = s := by simp [endOp, found, past]

theorem endOp_again {old : Nat} (open_ : s.past o = false) (ended : o.ended = some old) :
    endOp s q c st = s.updOp q c fun o => { o with ended := some (mergeStatus old st) } := by
  simp [endOp, found, open_, ended]

theorem endOp_ends (open_ : s.past o = false) (runs : o.ended = none) : ∃ torn, endOp s q c st = refreshResume
    (if !o.desc.noGroup && ((endedEarly s q c st torn).group o.desc.group).markOp == some (q, c) then
        refreshTimer ((endedEarly s q c st torn).updGroup o.desc.group fun x => { x with marking := none, markOp := none }) o.desc.group
      else endedEarly s q c st torn) q := by
  unfold endOp
  simp only [found, open_, runs, Bool.false_eq_true, if_false]
  exact ⟨_, rfl⟩

end

theorem endedEarly_endsIn (s : State) (q c st : Nat) (torn : Bool) : s.EndsIn (endedEarly s q c st torn) q :=
  ((dropTransfers_endsIn s q c).trans (updSync_endsIn _ q _)).trans (updOp_endsIn _ q c fun _ => rfl)

theorem endOp_endsIn (s : State) (q c st : Nat) : s.EndsIn (endOp s q c st) q := by
  cases found : s.op? q c with
  | none => rw [endOp, found]; exact .refl s q
  | some o =>
    cases past : s.past o
    case true => rw [endOp_past st found past]; exact .refl s q
    case false =>
      cases ended : o.ended with
      | some old => rw [endOp_again st found past ended]; exact updOp_endsIn s q c fun _ => rfl
      | none =>
        obtain ⟨torn, e⟩ := endOp_ends st found past ended
        rw [e]
        refine .trans (.trans (endedEarly_endsIn s q c st torn) ?_) (refreshResume_endsIn _ q)
        split
        next marks => exact unmark_endsIn _ (beq_iff_eq.1 (Bool.and_eq_true _ _ ▸ marks).2)
        next => exact .refl _ q

/-- Early ends of entries of one queue. -/
theorem endWhere_endsIn (s : State) {q : Nat} {p : Op → Bool} (st : Op → Nat) (own : ∀ o, p o = true → o.q = q) :
    s.EndsIn (endWhere s p st) q := by
  refine List.foldlRecOn (motive := fun t => s.EndsIn t q) _ _ (.refl s q) fun t ends o mem => ends.trans ?_
  rw [← own o (List.mem_filter.1 mem).2]
  exact endOp_endsIn t o.q o.c (st o)

/-! ### QUEUE_DISABLE (03 R128) -/

/-- The state in which a RUNNING queue has given up what has not started, and drains. -/
def draining (s : State) (q : Nat) : State :=
  setQState (discardUnstarted (s.updQueue q fun x => { x with enable := false }) q) q .draining

theorem draining_queue (s : State) (q : Nat) : ∃ wbDirty, (draining s q).queue q = { s.queue q with
    enable := false, fetch := ((s.queue q).buffered.head?.map (·.count)).getD (s.queue q).fetch
    buffered := [], batch := none, mapLeft := 0, mapBuf := [], state := .draining, wbDirty } := by
  obtain ⟨wbDirty, e⟩ := setQState_queue (discardUnstarted (s.updQueue q fun x => { x with enable := false }) q) q .draining
  refine ⟨wbDirty, e.trans ?_⟩
  rw [discardUnstarted_queue, State.queue_updQueue_same]

theorem draining_form (s : State) (q : Nat) : ∃ queues, draining s q = { s with queues } := by
  obtain ⟨queues, discarded⟩ := discardUnstarted_form (s.updQueue q fun x => { x with enable := false }) q
  rw [draining, discarded]
  exact ⟨_, rfl⟩

theorem draining_queue_other (s : State) {q p : Nat} (h : p ≠ q) : (draining s q).queue p = s.queue p := by
  rw [draining, setQState, State.queue_updQueue_other _ _ h, discardUnstarted, State.queue_updQueue_other _ _ h,
    State.queue_updQueue_other _ _ h]

/-- The WAITs of the queue that have not been released end with CANCELLED (08 R320). -/
def waitsCancelled (s : State) (q : Nat) : State :=
  endWhere (draining s q) (fun o => o.q == q && o.desc.opcode == opWait && !o.ready) fun _ => codeCancelled

theorem disableQueue_running {s : State} {q : Nat} (running : (s.queue q).state = .running) :
    disableQueue s q = settleQueue (waitsCancelled s q) q := by
  simp only [disableQueue, running, beq_self_eq_true, if_true]
  rfl

theorem disableQueue_stopped {s : State} {q : Nat} (stopped : (s.queue q).state ≠ .running) :
    disableQueue s q = s.updQueue q fun x => { x with enable := false } := if_neg (by simpa using stopped)

theorem waitsCancelled_endsIn (s : State) (q : Nat) : (draining s q).EndsIn (waitsCancelled s q) q :=
  endWhere_endsIn _ _ fun o h => by simp only [Bool.and_eq_true, beq_iff_eq] at h; exact h.1.1

/-- A queue that drains is settled: it stays DRAINING while entries are in flight, and is DISABLED with none. -/
theorem settleQueue_draining {s : State} {q : Nat} (drains : (s.queue q).state = .draining) : ∃ state wbDirty,
    (settleQueue s q).queue q = { s.queue q with state, wbDirty } ∧
    (s.inFlight q ≠ 0 → state = .draining) ∧ (s.inFlight q = 0 → state = .disabled) := by
  by_cases empty : s.inFlight q = 0
  · obtain ⟨wbDirty, e⟩ := setQState_queue s q .disabled
    have settles : settleQueue s q = setQState s q .disabled := if_pos (by simp [drains, empty])
    exact ⟨.disabled, wbDirty, by rw [settles, e], fun busy => absurd empty busy, fun _ => rfl⟩
  · have stays : settleQueue s q = s := if_neg (by simp [empty])
    exact ⟨.draining, (s.queue q).wbDirty, by rw [stays, ← drains], fun _ => rfl, fun none => absurd none empty⟩

theorem settleQueue_form (s : State) (q : Nat) : ∃ queues, settleQueue s q = { s with queues } := by
  unfold settleQueue
  split
  · exact ⟨_, rfl⟩
  · exact ⟨s.queues, rfl⟩

theorem settleQueue_queue_other (s : State) {q p : Nat} (h : p ≠ q) : (settleQueue s q).queue p = s.queue p := by
  unfold settleQueue
  split
  · exact State.queue_updQueue_other s _ h
  · rfl

theorem exec_queueDisable_running {s : State} {m : Mgmt} {q : Fin 256} (may : State.MayWrite s m)
    (running : (s.queue q).state = .running) : ∃ t, exec (.queueDisable m q) s = .next t ∧ (t.queue q).enable = false ∧
      (t.queue q).buffered = [] ∧ (t.queue q).batch = none ∧ (t.queue q).head = (s.queue q).head ∧
      (t.queue q).fetch = ((s.queue q).buffered.head?.map (·.count)).getD (s.queue q).fetch ∧
      (s.inFlight q ≠ 0 → (t.queue q).state = .draining) ∧ (s.inFlight q = 0 → (t.queue q).state = .disabled) ∧
      (∀ o ∈ s.ops, o.q ≠ q.val → o ∈ t.ops) ∧ (∀ p, p ≠ q.val → t.queue p = s.queue p) ∧
      ((∀ g c, (s.group g).markOp ≠ some (q.val, c)) → t.groups = s.groups) := by
  have run : exec (.queueDisable m q) s = .next (State.accepted s m (settleQueue (waitsCancelled s q) q)) :=
    mgmtWrite_accepted may (congrArg some (disableQueue_running running))
  obtain ⟨_, drained⟩ := draining_queue s q
  obtain ⟨-, others, ⟨_, own⟩, queues, inFlight, groups, -⟩ := waitsCancelled_endsIn s q
  rw [drained] at own
  obtain ⟨state, _, settled, busy, empty⟩ := settleQueue_draining (s := waitsCancelled s q) (q := q) (by rw [own])
  rw [own] at settled
  obtain ⟨_, drains⟩ := draining_form s q
  rw [drains] at others inFlight groups
  have still : (waitsCancelled s q).inFlight q = s.inFlight q := inFlight
  rw [still] at busy empty
  obtain ⟨_, form⟩ := settleQueue_form (waitsCancelled s q) q
  have ops : (settleQueue (waitsCancelled s q) q).ops = (waitsCancelled s q).ops := by rw [form]
  have groups_ : (settleQueue (waitsCancelled s q) q).groups = (waitsCancelled s q).groups := by rw [form]
  refine ⟨_, run, ?_⟩
  simp only [State.accepted_queue, State.accepted_ops, State.accepted_groups, settled, ops, groups_, true_and]
  exact ⟨busy, empty, others, fun p h =>
    (settleQueue_queue_other _ h).trans ((queues p h).trans (draining_queue_other s h)), groups⟩

/-! ### CANCEL (03 R129) -/

/-- What has not passed its end stays so while other entries end. -/
theorem State.EndsIn.past {s t : State} {q : Nat} (h : s.EndsIn t q) {o : Op} (open_ : s.past o = false) : t.past o = false := by
  unfold State.past at open_ ⊢
  rcases h.marks o.desc.group with ⟨op, mark⟩ | gone
  · rw [op, mark]; exact open_
  · rw [gone]
    simp only [Bool.or_eq_false_iff] at open_ ⊢
    exact ⟨open_.1, by simp⟩

/-- An entry that has ended is past its end only by the weir of its mark. -/
theorem State.past_ended {s : State} {o r : Op} (open_ : s.past o = false) (queue : r.q = o.q) (count : r.c = o.c)
    (desc : r.desc = o.desc) (ended : r.ended.isNone = false) : s.past r = false := by
  unfold State.past at open_ ⊢
  simp only [Bool.or_eq_false_iff] at open_
  rw [queue, count, desc, ended]
  simpa using open_.2

theorem endedEarly_op?_other (s : State) {q c p d : Nat} (st : Nat) (torn : Bool) (other : ¬ (p = q ∧ d = c)) :
    (endedEarly s q c st torn).op? p d = s.op? p d :=
  State.op?_updOp_other (Machine.dropTransfers s q c) (fun o => o.endedWith st torn) (fun _ => ⟨rfl, rfl⟩) other

theorem endedEarly_op?_same {s : State} {q c : Nat} {o : Op} (found : s.op? q c = some o) (st : Nat) (torn : Bool) :
    (endedEarly s q c st torn).op? q c = some (o.endedWith st torn) :=
  op?_updOp_found (u := Machine.dropTransfers s q c) found (fun o => o.endedWith st torn) fun _ => ⟨rfl, rfl⟩

/-- What follows the end of an entry leaves the entries as they are. -/
theorem endOp_ends_op? {s : State} {q c : Nat} {o : Op} (st : Nat) (found : s.op? q c = some o) (open_ : s.past o = false)
    (runs : o.ended = none) : ∃ torn, ∀ p d, (endOp s q c st).op? p d = (endedEarly s q c st torn).op? p d := by
  obtain ⟨torn, e⟩ := endOp_ends st found open_ runs
  have ops : (endOp s q c st).ops = (endedEarly s q c st torn).ops := by
    rw [e]
    split <;> rfl
  exact ⟨torn, fun p d => by simp only [State.op?, ops]⟩

/-- Other entries are found as they were. -/
theorem endOp_op?_other (s : State) {q c p d : Nat} (st : Nat) (other : ¬ (p = q ∧ d = c)) :
    (endOp s q c st).op? p d = s.op? p d := by
  cases found : s.op? q c with
  | none => rw [endOp, found]
  | some o =>
    cases past : s.past o
    case true => rw [endOp_past st found past]
    case false =>
      cases ended : o.ended with
      | some old => rw [endOp_again st found past ended]; exact State.op?_updOp_other s _ (fun _ => ⟨rfl, rfl⟩) other
      | none =>
        obtain ⟨torn, e⟩ := endOp_ends_op? st found past ended
        exact (e p d).trans (endedEarly_op?_other s st torn other)

/-- An entry that CANCEL ends: found, not past its end, and not ended or ended by it. -/
def State.Cancellable (s : State) (q c : Nat) : Prop :=
  ∃ o, s.op? q c = some o ∧ s.past o = false ∧ (o.ended = none ∨ o.ended = some codeCancelled)

/-- An entry that has ended with CANCELLED. -/
def State.Cancelled (s : State) (q c : Nat) : Prop :=
  ∃ o, s.op? q c = some o ∧ s.past o = false ∧ o.ended = some codeCancelled

theorem endOp_cancels {s : State} {q c : Nat} (h : s.Cancellable q c) : (endOp s q c codeCancelled).Cancelled q c := by
  obtain ⟨o, found, open_, runs | ended⟩ := h
  · have open' : ∀ r : Op, r.q = o.q → r.c = o.c → r.desc = o.desc → r.ended.isNone = false →
        (endOp s q c codeCancelled).past r = false := fun r queue count desc ended =>
      State.past_ended ((endOp_endsIn s q c codeCancelled).past open_) queue count desc ended
    obtain ⟨torn, e⟩ := endOp_ends_op? codeCancelled found open_ runs
    exact ⟨o.endedWith codeCancelled torn, (e q c).trans (endedEarly_op?_same found codeCancelled torn), open' _ rfl rfl rfl rfl, rfl⟩
  · refine ⟨{ o with ended := some codeCancelled }, ?_,
      State.past_ended ((endOp_endsIn s q c codeCancelled).past open_) rfl rfl rfl rfl, rfl⟩
    rw [endOp_again codeCancelled found open_ ended]
    exact op?_updOp_found found (fun o => { o with ended := some (mergeStatus codeCancelled codeCancelled) }) fun _ => ⟨rfl, rfl⟩

theorem endOp_keeps_found {s : State} {q c p d : Nat} (st : Nat) (other : ¬ (p = q ∧ d = c)) {o : Op} (found : s.op? p d = some o)
    (open_ : s.past o = false) : (endOp s q c st).op? p d = some o ∧ (endOp s q c st).past o = false :=
  ⟨(endOp_op?_other s st other).trans found, (endOp_endsIn s q c st).past open_⟩

/-- Each entry that a run of ends names, once or more, is cancelled. -/
theorem foldl_endOp_cancels {q c : Nat} (l : List Op) {s : State}
    (h : s.Cancelled q c ∨ (s.Cancellable q c ∧ ∃ a ∈ l, a.q = q ∧ a.c = c)) :
    (l.foldl (fun s o => endOp s o.q o.c codeCancelled) s).Cancelled q c := by
  induction l generalizing s with
  | nil => exact h.resolve_right fun ⟨_, _, mem, _⟩ => nomatch mem
  | cons a l ih =>
    rw [List.foldl_cons]
    refine ih ?_
    by_cases own : q = a.q ∧ c = a.c
    · obtain ⟨rfl, rfl⟩ := own
      refine .inl (endOp_cancels ?_)
      rcases h with ⟨o, found, open_, ended⟩ | ⟨can, -⟩
      · exact ⟨o, found, open_, .inr ended⟩
      · exact can
    · rcases h with ⟨o, found, open_, ended⟩ | ⟨⟨o, found, open_, ended⟩, b, mem, named⟩
      · obtain ⟨found', open'⟩ := endOp_keeps_found codeCancelled own found open_
        exact .inl ⟨o, found', open', ended⟩
      · obtain ⟨found', open'⟩ := endOp_keeps_found codeCancelled own found open_
        refine .inr ⟨⟨o, found', open', ended⟩, b, ?_, named⟩
        refine (List.mem_cons.1 mem).resolve_left ?_
        rintro rfl
        exact own ⟨named.1.symm, named.2.symm⟩

/-- An entry that no end names is found as it was. -/
theorem foldl_endOp_op?_other {q c : Nat} (st : Nat) {l : List Op} (s : State) (h : ∀ a ∈ l, ¬ (q = a.q ∧ c = a.c)) :
    (l.foldl (fun s o => endOp s o.q o.c st) s).op? q c = s.op? q c :=
  List.foldlRecOn (motive := fun t => State.op? t q c = s.op? q c) _ _ rfl fun t same a mem =>
    (endOp_op?_other t st (h a mem)).trans same

/-- 03 R129: the entry may be cancelled. -/
def cancels (q : Nat) (o : Op) : Bool := o.q == q && !o.wroteResult && !o.sentParcel && o.sig.isNone

theorem cancelQueue_eq (s : State) (q : Nat) :
    cancelQueue s q = (s.ops.filter (cancels q)).foldl (fun s o => endOp s o.q o.c codeCancelled) s := rfl

theorem cancelQueue_endsIn (s : State) (q : Nat) : s.EndsIn (cancelQueue s q) q :=
  endWhere_endsIn s _ fun o h => by simp only [Bool.and_eq_true, beq_iff_eq] at h; exact h.1.1.1

theorem cancelQueue_ends {s : State} {q c : Nat} {o : Op} (found : s.op? q c = some o) (bare : o.wroteResult = false)
    (unsent : o.sentParcel = false) (unsigned : o.sig = none) (runs : o.ended = none) (open_ : s.past o = false) :
    ∃ o', (cancelQueue s q).op? q c = some o' ∧ o'.ended = some 1 := by
  obtain ⟨queue, count⟩ := State.op?_is found
  have named : o ∈ s.ops.filter (cancels q) :=
    List.mem_filter.2 ⟨State.op?_mem found, by simp [cancels, queue, bare, unsent, unsigned]⟩
  obtain ⟨o', found', -, ended⟩ := foldl_endOp_cancels (s.ops.filter (cancels q)) (s := s)
    (.inr ⟨⟨o, found, open_, .inl runs⟩, o, named, queue, count⟩)
  exact ⟨o', found', ended⟩

theorem cancelQueue_leaves {s : State} {q c : Nat}
    (sent : ∀ o ∈ s.ops, o.is q c = true → o.wroteResult = true ∨ o.sentParcel = true ∨ o.sig.isSome = true) :
    (cancelQueue s q).op? q c = s.op? q c := by
  rw [cancelQueue_eq]
  refine foldl_endOp_op?_other codeCancelled s fun a mem named => ?_
  obtain ⟨mem, may⟩ := List.mem_filter.1 mem
  simp only [cancels, Bool.and_eq_true, Bool.not_eq_true', Option.isNone_iff_eq_none] at may
  obtain ⟨⟨⟨-, bare⟩, unsent⟩, unsigned⟩ := may
  rcases sent a mem ((Op.is_iff a q c).2 ⟨named.1.symm, named.2.symm⟩) with wrote | parcel | signal
  · rw [bare] at wrote; cases wrote
  · rw [unsent] at parcel; cases parcel
  · rw [unsigned] at signal; cases signal

/-- Settles O22: `disableQueue` and `cancelQueue` are early ends of entries of one queue, which `EndsIn` describes. -/
theorem disableDrainsAndCancelEnds : Obligations.DisableDrainsAndCancelEnds := by
  unfold Obligations.DisableDrainsAndCancelEnds
  intro m q s may
  refine ⟨exec_queueDisable_running may, fun stopped => mgmtWrite_accepted may (congrArg some (disableQueue_stopped stopped)),
    State.accepted s m (cancelQueue s q), mgmtWrite_accepted may rfl, ?_⟩
  obtain ⟨-, others, ⟨_, own⟩, -, -, groups, -⟩ := cancelQueue_endsIn s q
  simp only [State.accepted_queue, State.accepted_ops, State.accepted_groups, State.accepted_op?, own]
  exact ⟨fun c o => cancelQueue_ends, fun c => cancelQueue_leaves, others, trivial, groups⟩

end Sys2Proof.Machine
end
section
/-! PROOFS. Completion (03 R105, R124-R126; 01 R20, R21): ENTRY_COMPLETE takes an operation out of its slot and writes its record; what
stands before the record, a twin's notes, a DIGEST's difference and the group's part, leaves the engine's tables alone. -/

namespace Sys2Proof.Machine

/-! ### What a completion leaves -/

/-- The time, the member table, the keeper and the images stay. -/
structure State.KeepsEngine (s t : State) : Prop where
  now : t.now = s.now
  members : t.members = s.members
  keeper : t.keeper = s.keeper
  img : t.img = s.img

theorem State.KeepsEngine.refl (s : State) : s.KeepsEngine s := ⟨rfl, rfl, rfl, rfl⟩

theorem State.KeepsEngine.trans {s t u : State} (h : s.KeepsEngine t) (k : t.KeepsEngine u) : s.KeepsEngine u :=
  ⟨k.now.trans h.now, k.members.trans h.members, k.keeper.trans h.keeper, k.img.trans h.img⟩

theorem State.keepsEngine_ite {c : Prop} [Decidable c] {s t u : State} (yes : s.KeepsEngine t) (no : s.KeepsEngine u) :
    s.KeepsEngine (if c then t else u) := by
  split
  · exact yes
  · exact no

/-- The started entries stay as well. -/
structure State.KeepsStarted (s t : State) : Prop extends s.KeepsEngine t where
  ops : t.ops = s.ops

theorem State.KeepsStarted.refl (s : State) : s.KeepsStarted s := ⟨.refl s, rfl⟩

theorem State.KeepsStarted.trans {s t u : State} (h : s.KeepsStarted t) (k : t.KeepsStarted u) : s.KeepsStarted u :=
  ⟨h.toKeepsEngine.trans k.toKeepsEngine, k.ops.trans h.ops⟩

theorem State.keepsStarted_ite {c : Prop} [Decidable c] {s t u : State} (yes : s.KeepsStarted t) (no : s.KeepsStarted u) :
    s.KeepsStarted (if c then t else u) := by
  split
  · exact yes
  · exact no

/-! ### The twin's notes (09 R368-R370) -/

theorem State.EndsIn.keepsEngine {s t : State} {q : Nat} (h : s.EndsIn t q) : s.KeepsEngine t := by
  obtain ⟨_, _, _, _, _, _, rfl⟩ := h.rest
  exact ⟨rfl, rfl, rfl, rfl⟩

/-- A queue that is disabled ends entries of its own. -/
theorem disableQueue_keepsEngine (s : State) (q : Nat) : s.KeepsEngine (disableQueue s q) := by
  by_cases running : (s.queue q).state = .running
  · obtain ⟨_, drains⟩ := draining_form s q
    obtain ⟨_, settles⟩ := settleQueue_form (waitsCancelled s q) q
    have ends := (waitsCancelled_endsIn s q).keepsEngine
    rw [drains] at ends
    rw [disableQueue_running running, settles]
    exact ⟨ends.now, ends.members, ends.keeper, ends.img⟩
  · rw [disableQueue_stopped running]
    exact ⟨rfl, rfl, rfl, rfl⟩

theorem updTwin_keepsEngine (s : State) (f : TwinSt → TwinSt) : s.KeepsEngine (s.updTwin f) := ⟨rfl, rfl, rfl, rfl⟩

theorem twinMatch_keepsEngine (s : State) (key : TwinKey) (own theirs : Nat) : s.KeepsEngine (twinMatch s key own theirs) := by
  unfold twinMatch
  have noted : ∀ f g, s.KeepsEngine ((s.updTwin f).updTwin g) := fun _ _ =>
    (updTwin_keepsEngine s _).trans (updTwin_keepsEngine _ _)
  exact State.keepsEngine_ite (updTwin_keepsEngine s _)
    (State.keepsEngine_ite ((noted _ _).trans (disableQueue_keepsEngine _ _)) (noted _ _))

theorem twinNote_keepsEngine (s : State) (key : TwinKey) (crc : Nat) : s.KeepsEngine (twinNote s key crc) := by
  obtain ⟨_, sent⟩ := sendTo_form s s.twin.partner (.twinRecord [⟨key, crc⟩])
  unfold twinNote
  rw [sent]
  have told : ∀ links f, s.KeepsEngine (State.updTwin { s with links } f) := fun _ _ => ⟨rfl, rfl, rfl, rfl⟩
  dsimp only
  split
  · exact (told _ _).trans (twinMatch_keepsEngine _ _ _ _)
  · exact told _ _

theorem twinBlocks_keepsEngine (s : State) (o : Op) (phase : Nat) (t : Tab Byte) : s.KeepsEngine (twinBlocks s o phase t) := by
  unfold twinBlocks
  split
  · exact .refl s
  · exact List.foldlRecOn (motive := fun t => s.KeepsEngine t) _ _ (.refl s) fun t keeps _ _ =>
      keeps.trans (twinNote_keepsEngine t _ _)

theorem twinCompletes_keepsEngine (s : State) (o : Op) (bytes : List Byte) : s.KeepsEngine (twinCompletes s o bytes) := by
  unfold twinCompletes
  split
  · exact .refl s
  · exact ((twinBlocks_keepsEngine s o _ _).trans (twinBlocks_keepsEngine _ o _ _)).trans (twinNote_keepsEngine _ _ _)

/-- Without a pair there is no entry to compare (09 R366). -/
theorem twinCompletes_unpaired {s : State} (unpaired : s.twin.paired = false) (o : Op) (bytes : List Byte) :
    twinCompletes s o bytes = s := by
  simp [twinCompletes, State.pairIndex, State.twinnedQ, unpaired]

/-! ### The record of a DIGEST that found a difference (10 R400, R408) -/

theorem recallRecord_keepsStarted (s : State) (kind : Nat) (origin completed minority : Bool) (g step entry run stage chunk originDie
    suspect count : Nat) :
    s.KeepsStarted (recallRecord s kind origin completed minority g step entry run stage chunk originDie suspect count) := by
  unfold recallRecord ringRecord
  refine State.keepsStarted_ite ?_ ⟨⟨rfl, rfl, rfl, rfl⟩, rfl⟩
  obtain ⟨_, written⟩ := writeRecord_form (s.setRecRing false _) false
  rw [written]
  exact ⟨⟨rfl, rfl, rfl, rfl⟩, rfl⟩

theorem makeRecord_keepsStarted (s : State) (r : FaultRecord) : s.KeepsStarted (makeRecord s r) := by
  obtain ⟨_, _, _, -, made⟩ := makeRecord_form s r
  rw [made]
  exact ⟨⟨rfl, rfl, rfl, rfl⟩, rfl⟩

theorem updInteg_keepsStarted (s : State) (f : IntegSt → IntegSt) : s.KeepsStarted (s.updInteg f) := ⟨⟨rfl, rfl, rfl, rfl⟩, rfl⟩

theorem digestMismatch_keepsStarted (s : State) (o : Op) : s.KeepsStarted (digestMismatch s o) := by
  unfold digestMismatch
  refine State.keepsStarted_ite ?_ (.refl s)
  refine .trans ?_ (recallRecord_keepsStarted _ _ _ _ _ _ _ _ _ _ _ _ _ _)
  exact (updInteg_keepsStarted s _).trans (makeRecord_keepsStarted _ _)

/-! ### The record (03 R124) -/

@[simp] theorem length_completionBytes (s : State) (o : Op) (status : Nat) : (s.completionBytes o status).length = 32 := by
  simp [State.completionBytes]

theorem updGroup_keepsStarted (s : State) (g : Nat) (f : GroupSt → GroupSt) : s.KeepsStarted (s.updGroup g f) :=
  ⟨⟨rfl, rfl, rfl, rfl⟩, rfl⟩

theorem updQueue_keepsStarted (s : State) (q : Nat) (f : QueueSt → QueueSt) : s.KeepsStarted (s.updQueue q f) :=
  ⟨⟨rfl, rfl, rfl, rfl⟩, rfl⟩

theorem groupCompletes_keepsStarted (s : State) (o : Op) : s.KeepsStarted (groupCompletes s o) := by
  unfold groupCompletes
  exact updGroup_keepsStarted s _ _

/-- An operation leaves its slot and its record is written, once the twin, the digest and the group have taken their part. -/
theorem completeOp_form (s : State) (o : Op) : ∃ t groups,
    (twinCompletes s o (s.completionBytes o (s.statusOf o))).KeepsStarted t ∧ completeOp s o = { enqueueWrite (t.removeOp o.q o.c) 1 o.q
      ((s.queue o.q).base + 64 * (o.c % 2 ^ (s.queue o.q).log2) + 32) (s.completionBytes o (s.statusOf o)) (fun _ => o.q % 8)
      (fun _ => .record o.q o.c) with groups } := by
  have counted : ∀ (t : State) num fresh, t.KeepsStarted { t with num, fresh } := fun t _ _ => ⟨⟨rfl, rfl, rfl, rfl⟩, rfl⟩
  have timed : ∀ u : State, ∃ groups, (if o.desc.noGroup then u else refreshTimer u o.desc.group) = { u with groups } := fun u => by
    split
    · exact ⟨u.groups, rfl⟩
    · exact refreshTimer_groups u _
  have grouped : ∀ t : State, t.KeepsStarted (if isGroupWide o.desc.opcode && !o.foreign then groupCompletes t o else t) := fun t =>
    State.keepsStarted_ite (groupCompletes_keepsStarted t o) (.refl t)
  have parked : ∀ (t : State) f, t.KeepsStarted (if o.desc.noGroup || !o.executed then t else t.updGroup o.desc.group f) := fun t _ =>
    State.keepsStarted_ite (.refl t) (updGroup_keepsStarted t _ _)
  unfold completeOp
  obtain ⟨groups, e⟩ := timed _
  refine ⟨_, groups, ?_, e⟩
  exact (((((digestMismatch_keepsStarted _ o).trans (grouped _)).trans (parked _ _)).trans (counted _ _ _)).trans
    (updQueue_keepsStarted _ _ _)).trans (State.keepsStarted_ite (counted _ _ _) (.refl _))

/-! ### Headers that are asked for (07 R294, R296) -/

theorem waiting_enqueueRead_keeps {s : State} {i : Nat} {z : Xfer} (h : z ∈ (s.siphon i).waiting) (queue addr len : Nat)
    (via : Nat → Nat) (pur : Nat → Purpose) : z ∈ ((enqueueRead s queue addr len via pur).siphon i).waiting :=
  (waiting_foldl_enqueue (fun y : Nat × Nat × Nat => via y.1)
    (fun y => { cls := 0, pur := pur y.2.1, addr := y.1, len := y.2.2, queue }) (blocks addr len) s).1 i z h

/-- Headers have been asked for: what waits still waits, no entry is new, and those that ask for none stay. -/
structure State.AsksHeaders (s t : State) : Prop where
  waiting : ∀ i, ∀ z ∈ (s.siphon i).waiting, z ∈ (t.siphon i).waiting
  gone : ∀ q c, s.op? q c = none → t.op? q c = none
  others : ∀ o ∈ s.ops, o.upd.headerDue = false → o ∈ t.ops
  engine : s.KeepsEngine t

theorem State.AsksHeaders.refl (s : State) : s.AsksHeaders s := ⟨fun _ _ h => h, fun _ _ h => h, fun _ h _ => h, .refl s⟩

theorem State.AsksHeaders.trans {s t u : State} (h : s.AsksHeaders t) (k : t.AsksHeaders u) : s.AsksHeaders u :=
  ⟨fun i z mem => k.waiting i z (h.waiting i z mem), fun q c none => k.gone q c (h.gone q c none),
    fun o mem due => k.others o (h.others o mem due) due, h.engine.trans k.engine⟩

/-- The entry has asked for its header. -/
def Op.headerAsked (o : Op) : Op := { o with upd := { o.upd with headerDue := false } }

theorem Op.headerAsked_of_not_due {o : Op} (h : o.upd.headerDue = false) : o.headerAsked = o := by
  unfold Op.headerAsked
  rw [← h]

theorem headerAsked_asksHeaders (s : State) (o : Op) (pur : Nat → Purpose) :
    s.AsksHeaders (enqueueRead (s.updOp o.q o.c Op.headerAsked) o.q o.desc.aux64 64 siphonOf pur) := by
  obtain ⟨p, read⟩ := enqueueRead_form (s.updOp o.q o.c Op.headerAsked) o.q o.desc.aux64 64 siphonOf pur
  refine ⟨fun i z mem => waiting_enqueueRead_keeps (s := s.updOp o.q o.c Op.headerAsked) mem _ _ _ _ _, fun q c none => ?_,
    fun y mem due => ?_, by rw [read]; exact ⟨rfl, rfl, rfl, rfl⟩⟩
  · rw [read]
    by_cases own : q = o.q ∧ c = o.c
    · obtain ⟨rfl, rfl⟩ := own
      exact (State.op?_updOp s o.q o.c Op.headerAsked fun _ => ⟨rfl, rfl⟩).trans (by rw [none]; rfl)
    · exact (State.op?_updOp_other s Op.headerAsked (fun _ => ⟨rfl, rfl⟩) own).trans none
  · rw [read]
    refine List.mem_map.2 ⟨y, mem, ?_⟩
    rw [Op.headerAsked_of_not_due due, ite_self]

theorem askHeaders_asksHeaders (s : State) : s.AsksHeaders (askHeaders s) := by
  unfold askHeaders
  refine List.foldlRecOn (motive := fun t => s.AsksHeaders t) _ _ (.refl s) fun t asks o _ => asks.trans ?_
  split
  · exact .refl t
  · exact headerAsked_asksHeaders t o _

/-! ### ENTRY_COMPLETE -/

section
variable {s : State} {q c : Nat} {o : Op} (found : s.op? q c = some o)
include found

/-- An entry that has no commit unit to finish goes on as it is (07 R293). -/
theorem continueUnit_idle (idle : o.ended = none ∨ (o.upd.phase ≠ .writing ∧ o.upd.phase ≠ .header)) : continueUnit s q c = s := by
  unfold continueUnit
  rw [found]
  dsimp only
  rcases idle with runs | ⟨writing, header⟩
  · simp [runs]
  · split
    · rfl
    · split
      next phase => exact absurd phase writing
      next phase => exact absurd phase header
      next => rfl

/-- 03 R105: the entry completes where it may and the completion queue has room. -/
theorem completeEntry_idle (idle : o.ended = none ∨ (o.upd.phase ≠ .writing ∧ o.upd.phase ≠ .header))
    (released : o.desc.opcode = 0x07 → o.ready = true) : completeEntry s q c =
      if s.canComplete o && s.completions.length < 64 then askHeaders (completeOp s o) else s := by
  have turned : (o.desc.opcode == opRotate && !o.ready) = false := by
    rw [Bool.eq_false_iff, Ne, Bool.and_eq_true, beq_iff_eq]
    rintro ⟨rotate, waits⟩
    rw [released rotate] at waits
    cases waits
  simp only [completeEntry, continueUnit_idle found idle, found, Option.any_some, turned, Bool.false_eq_true, if_false]

end

theorem State.op?_removeOp (s : State) (q c : Nat) : (s.removeOp q c).op? q c = none := by
  simp [State.op?, State.removeOp]

theorem noteDrain_form (was s : State) : ∃ warden, noteDrain was s = { s with warden } := by
  unfold noteDrain
  split
  · exact ⟨s.warden, rfl⟩
  · obtain ⟨w, eq, -⟩ := refreshVeng_form s
    exact ⟨w, eq⟩

theorem exec_entryComplete (q : Fin 256) (c : Nat) (s : State) :
    exec (.entryComplete q c) s = .next (State.plain s (noteDrain s (completeEntry s q c))) := rfl

/-- The write of the completion record of an entry (03 R124): its 32 bytes go to the second half of the entry's place in the ring. -/
def recordXfer (s : State) (o : Op) : Xfer where
  cls := 1
  pur := .record o.q o.c
  addr := (s.queue o.q).base + 64 * (o.c % 2 ^ (s.queue o.q).log2) + 32
  len := 32
  data := s.completionBytes o (s.statusOf o)
  queue := o.q
  at_ := s.now

/-- A completed operation: its slot is free, and its record waits at its siphon. -/
theorem completeOp_records {s : State} {o : Op} (aligned : (s.queue o.q).base % 64 = 0) :
    (completeOp s o).op? o.q o.c = none ∧ recordXfer s o ∈ ((completeOp s o).siphon (o.q % 8)).waiting ∧
    (s.twin.paired = false → ∀ y ∈ s.ops, y.is o.q o.c = false → y ∈ (completeOp s o).ops) ∧
    s.KeepsEngine (completeOp s o) := by
  obtain ⟨t, groups, ⟨keeps, ops⟩, e⟩ := completeOp_form s o
  have engine := (twinCompletes_keepsEngine s o _).trans keeps
  rw [enqueueWrite_within _ _ _ _ _ (by simp) (by rw [length_completionBytes]; omega), length_completionBytes] at e
  rw [e]
  refine ⟨State.op?_removeOp t o.q o.c, ?_, fun unpaired y mem other => ?_, engine.now, engine.members, engine.keeper, engine.img⟩
  · have waits := siphon_enqueue_waiting (t.removeOp o.q o.c) (o.q % 8) { recordXfer s o with at_ := 0 }
    have put : recordXfer s o ∈ ((enqueue (t.removeOp o.q o.c) (o.q % 8) { recordXfer s o with at_ := 0 }).siphon (o.q % 8)).waiting := by
      rw [waits, State.removeOp_now, engine.now]
      exact List.mem_append_right _ (List.mem_singleton.2 rfl)
    exact put
  · rw [twinCompletes_unpaired unpaired] at ops
    refine List.mem_filter.2 ⟨ops ▸ mem, ?_⟩
    simp [other]

/-- An operation that ended early without skew has the status of its end (03 R125, R126). -/
theorem statusOf_ended {s : State} {o : Op} {st : Nat} (ended : o.ended = some st) (level : o.coll.skew = none)
    (unmarked : o.coll.skewMarked = false) : s.statusOf o = st := by
  simp [State.statusOf, ended, level, unmarked]

/-- Settles O26: `completeEntry` completes the entry where it may, and its record, which lies within one block, waits at its siphon. -/
theorem completionWritesItsRecord : Obligations.CompletionWritesItsRecord := by
  unfold Obligations.CompletionWritesItsRecord
  intro q c s o found idle released
  have completes := completeEntry_idle found idle released
  obtain ⟨queue, rfl⟩ := State.op?_is found
  rw [exec_entryComplete, completes]
  refine ⟨fun held => ?_, fun may room aligned => ?_⟩
  · rw [if_neg, noteDrain_same]
    · rfl
    · rw [Bool.and_eq_true, decide_eq_true_eq]
      rintro ⟨may, room⟩
      rcases held with held | full
      · rw [held] at may; cases may
      · omega
  · rw [if_pos (by simp [may, room])]
    rw [← queue] at aligned ⊢
    obtain ⟨gone, record, others, engine⟩ := completeOp_records aligned
    have asks := askHeaders_asksHeaders (completeOp s o)
    obtain ⟨_, drains⟩ := noteDrain_form s (askHeaders (completeOp s o))
    rw [drains]
    have kept := engine.trans asks.engine
    exact ⟨_, rfl, asks.gone _ _ gone, asks.waiting _ _ record, fun st ended level unmarked => statusOf_ended ended level unmarked,
      fun unpaired y mem other due => asks.others y (others unpaired y mem other) due, kept.members, kept.keeper, kept.img⟩

end Sys2Proof.Machine
end
section
/-! PROOFS. Payload entries that start (04 R150-R152; 05 R199): the statement about them leaves out that a dynamic map shares the staging
pair with the input. -/

namespace Sys2Proof.Machine

@[simp] theorem State.plain_siphon (s t : State) (i : Nat) : (State.plain s t).siphon i = t.siphon i := rfl

/-- An EXCHANGE that waits in the dispatch queue is set going. -/
theorem exec_exchange_dispatchable {s : State} {q : Fin 256} {c : Nat} {o : Op} (h : State.dispatchable s q c 0x06 o) :
    exec (.exchange q c) s = .next (State.plain s (startMover (s.taken q c o) o.taken)) :=
  congrArg (finishPlain s) (takeEntry_taken h startMover)

/-- An EXCHANGE of 8 rows of 2^15 FP32 elements, 1 MiB in all, with a dynamic map of 64 bytes at 2 MiB (05 R198, R199). -/
def wholePairExchange : Desc := { opcode := opExchange, length := 0x100000, aux16 := 0x8000, aux64 := 0x200001 }

/-- The EXCHANGE in the dispatch queue, with its staging pair. -/
def waitingExchange : Op := { q := 0, c := 0, desc := wholePairExchange, num := 0, pair := .held }

/-- The EXCHANGE of a group that runs, on queue 0. -/
def mapFirst : State := { groups := [(0, { gr := { valid := true } })], ops := [waitingExchange] }

theorem mapFirst_dispatchable : State.dispatchable mapFirst 0 0 0x06 waitingExchange := by
  refine ⟨?_, rfl, rfl, rfl⟩
  decide

theorem mapFirst_fits : mapFirst.readsSrc wholePairExchange = true ∧
    mapFirst.inputBytes wholePairExchange + wholePairExchange.maskBytes ≤ pairSize ∧ mapFirst.looks waitingExchange = false := by decide

/-- The first block of the input. -/
theorem mem_blocks_wholePairExchange : (0, 0, 256) ∈ blocks wholePairExchange.src (mapFirst.inputBytes wholePairExchange) := by
  have len : mapFirst.inputBytes wholePairExchange = 0x100000 := by decide
  rw [len]
  exact List.mem_cons_self

/-- The EXCHANGE asks for its map alone, since input and map together do not fit the pair (04 R152). -/
theorem startMover_mapFirst :
    ((startMover (mapFirst.taken 0 0 waitingExchange) waitingExchange.taken).op? 0 0).all (·.ended.isNone) = true ∧
    ((startMover (mapFirst.taken 0 0 waitingExchange) waitingExchange.taken).siphon (siphonOf 0)).waiting.all
      (fun z => z.pur == .payload 0 0 .rowMap 0) = true := by decide +kernel

/-- Refutes O28: in `mapFirst` the EXCHANGE starts with its pair, which its input just fills, and no read of SRC waits, where the statement
has one for each block. The statement lacks that the dynamic map fits the pair beside the input. -/
theorem not_payloadEntriesStart : ¬ Obligations.PayloadEntriesStart := by
  unfold Obligations.PayloadEntriesStart
  rintro ⟨starts, -⟩
  obtain ⟨reads, fits, direct⟩ := mapFirst_fits
  obtain ⟨u, r, run, found, -, -, -, -, -, -, -, asks⟩ := starts 0 0 mapFirst waitingExchange (.exchange 0 0) 0x06 (by simp)
    mapFirst_dispatchable
  obtain rfl := Host.Outcome.next.inj ((exec_exchange_dispatchable mapFirst_dispatchable).symm.trans run)
  obtain ⟨open_, mapOnly⟩ := startMover_mapFirst
  rcases asks rfl reads fits direct with ended | asked
  · rw [State.plain_op?, Fin.val_zero] at found
    rw [found, Option.all_some, Option.isNone_iff_eq_none] at open_
    rw [open_] at ended
    cases ended
  · obtain ⟨z, waits, pur, -⟩ := asked _ mem_blocks_wholePairExchange
    rw [State.plain_siphon] at waits
    have map := List.all_eq_true.1 mapOnly z waits
    rw [pur] at map
    cases map

end Sys2Proof.Machine
end
section
/-! PROOFS. RESUME (04 R167; 07 R299): the statement about it ranges over every state, also over one in which a write has faulted of a
commit unit that its UPDATE is not writing. -/

namespace Sys2Proof.Machine

/-- A write of a commit unit, which has faulted. -/
def faultedWrite : Xfer := { cls := 1, pur := .stateWrite 0 0 0, addr := 0, len := 64, queue := 0 }

/-- An UPDATE that pauses on that write, while its refiner is writing no unit. -/
def pausedUpdate : Op :=
  { q := 0, c := 0, desc := { opcode := opUpdate, length := 4 }, num := 0, running := true, pause := some { faulted := [faultedWrite] } }

/-- The header of an upward parcel for the UPDATE under another step value than its own (07 R298), its CRC apart. -/
def foreignHdr : PHdr :=
  { group := 0, stage := 1, format := 0, kind := 0, skew := false, poison := false, rail := false, last := true, touch := false
    step := 1, entry := 0, retry := false, run := 0, chunk := 0, index := 0, count := 1, crc := 0, residue := 0 }

def foreignParcel : Parcel := ⟨10, { foreignHdr with crc := parcelCrc foreignHdr [] }, [], [], []⟩

/-- Agent 0, the owner, at a ready port, and group 0 with the paused UPDATE on queue 0, for which the parcel waits. -/
def pausedUnit : State :=
  { mgmt := { portReady := true }, keeper := { ownership := .owned }
    groups := [(0, { gr := { valid := true }, early := [foreignParcel] })], ops := [pausedUpdate] }

theorem pausedUnit_mayWrite : State.MayWrite pausedUnit ⟨0, 0⟩ := by unfold State.MayWrite; decide

/-- The UPDATE that is resumed takes the parcel in and stops at the unit of which no write has been issued (07 R299): the write that had
faulted is dropped from its siphon. -/
theorem resumeQueue_pausedUnit : ((resumeQueue pausedUnit 0).op? 0 0).all (·.ended.isNone) = true ∧
    ((resumeQueue pausedUnit 0).siphon 0).waiting = [] := by decide +kernel

/-- Refutes O33: in `pausedUnit` RESUME ends the pause and the UPDATE goes on, but its faulted write waits at no siphon. The statement lacks
that a write of a commit unit which has faulted is of the unit that is being written. -/
theorem not_cacheAndResumeByTheOwner : ¬ Obligations.CacheAndResumeByTheOwner := by
  unfold Obligations.CacheAndResumeByTheOwner
  intro h
  obtain ⟨resumes, -⟩ := h ⟨0, 0⟩ pausedUnit pausedUnit_mayWrite
  obtain ⟨run, -, paused⟩ := resumes 0
  obtain ⟨t, r, run', found, -, -, -, again⟩ := paused pausedUpdate _ (by decide) rfl rfl
  obtain rfl := Host.Outcome.next.inj (run.symm.trans run')
  obtain ⟨open_, unasked⟩ := resumeQueue_pausedUnit
  rcases again with ended | again
  · rw [State.accepted_op?, Fin.val_zero] at found
    rw [show (resumeQueue pausedUnit 0).op? 0 0 = some r from found, Option.all_some, Option.isNone_iff_eq_none] at open_
    rw [open_] at ended
    cases ended
  · have waits : faultedWrite ∈ ((State.accepted pausedUnit ⟨0, 0⟩ (resumeQueue pausedUnit 0)).siphon 0).waiting :=
      again faultedWrite (List.mem_singleton.2 rfl) rfl
    rw [State.siphon, State.accepted_siphons, ← State.siphon, unasked] at waits
    cases waits

end Sys2Proof.Machine
end
section
/-! PROOFS. The list of started entries (01 R23): the shared operations that leave it as it is. -/

namespace Sys2Proof.Machine

theorem State.ops_foldl {α : Type} {f : State → α → State} (h : ∀ (t : State) a, (f t a).ops = t.ops) (l : List α) (s : State) :
    (l.foldl f s).ops = s.ops :=
  List.foldlRecOn (motive := fun t => State.ops t = s.ops) l f rfl fun t same a _ => (h t a).trans same

/-! ### Transfers, messages and records -/

@[simp] theorem enqueueRead_ops (s : State) (queue addr len : Nat) (via : Nat → Nat) (pur : Nat → Purpose) :
    (enqueueRead s queue addr len via pur).ops = s.ops := by
  obtain ⟨_, read⟩ := enqueueRead_form s queue addr len via pur
  rw [read]

@[simp] theorem enqueueWrite_ops (s : State) (cls queue addr : Nat) (data : List Byte) (via : Nat → Nat) (pur : Nat → Purpose) :
    (enqueueWrite s cls queue addr data via pur).ops = s.ops := by
  obtain ⟨_, written⟩ := enqueueWrite_form s cls queue addr data via pur
  rw [written]

@[simp] theorem readRegion_ops (s : State) (o : Op) (r : Region) (addr base len : Nat) :
    (readRegion s o r addr base len).ops = s.ops := enqueueRead_ops _ _ _ _ _ _

@[simp] theorem sendTo_ops (s : State) (dest : Nat) (b : Body) : (sendTo s dest b).ops = s.ops := by
  obtain ⟨_, sent⟩ := sendTo_form s dest b
  rw [sent]

@[simp] theorem sendAll_ops (s : State) (dests : List Nat) (b : Body) : (sendAll s dests b).ops = s.ops := by
  obtain ⟨_, sent⟩ := sendAll_form s dests b
  rw [sent]

@[simp] theorem makeRecord_ops (s : State) (r : FaultRecord) : (makeRecord s r).ops = s.ops := (makeRecord_keepsStarted s r).ops

@[simp] theorem recallRecord_ops (s : State) (kind : Nat) (origin completed minority : Bool) (g step entry run stage chunk originDie
    suspect count : Nat) :
    (recallRecord s kind origin completed minority g step entry run stage chunk originDie suspect count).ops = s.ops :=
  (recallRecord_keepsStarted s kind origin completed minority g step entry run stage chunk originDie suspect count).ops

@[simp] theorem checkFailed_ops (s : State) (r : FaultRecord) : (checkFailed s r).ops = s.ops := by
  unfold checkFailed
  split <;> simp

@[simp] theorem checkRecord_ops (s : State) (o : Op) (p : Parcel) (kind found action : Nat) :
    (checkRecord s o p kind found action).ops = s.ops := checkFailed_ops _ _

@[simp] theorem answerParcel_ops (s : State) (p : Parcel) (nack : Bool) (reason : Nat) :
    (answerParcel s p nack reason).ops = s.ops := sendTo_ops _ _ _

@[simp] theorem sendLevel_ops (s : State) (g stage num : Nat) : (sendLevel s g stage num).ops = s.ops := by
  unfold sendLevel
  split <;> simp

@[simp] theorem writeDump_ops (s : State) (reason group : Nat) : (writeDump s reason group).1.ops = s.ops := by
  unfold writeDump
  split <;> simp

@[simp] theorem sendHalt_ops (s : State) (g cause : Nat) (missing : List Nat) : (sendHalt s g cause missing).ops = s.ops := by
  unfold sendHalt
  split <;> simp

@[simp] theorem writeSlotHeader_ops (s : State) (g step : Nat) : (writeSlotHeader s g step).ops = s.ops := by
  unfold writeSlotHeader
  dsimp only
  split <;> simp

/-! ### Queues, groups and counters -/

@[simp] theorem setQState_ops (s : State) (q : Nat) (st : QState) : (setQState s q st).ops = s.ops := rfl

@[simp] theorem discardUnstarted_ops (s : State) (q : Nat) : (discardUnstarted s q).ops = s.ops := rfl

@[simp] theorem settleQueue_ops (s : State) (q : Nat) : (settleQueue s q).ops = s.ops := by
  obtain ⟨_, settled⟩ := settleQueue_form s q
  rw [settled]

@[simp] theorem queueError_ops (s : State) (q cause index : Nat) : (queueError s q cause index).ops = s.ops := by
  obtain ⟨_, failed⟩ := queueError_form s q cause index
  rw [failed]

@[simp] theorem refreshTimer_ops (s : State) (g : Nat) : (refreshTimer s g).ops = s.ops := rfl

@[simp] theorem dropHeld_ops (s : State) (g : Nat) : (dropHeld s g).ops = s.ops := rfl

@[simp] theorem putCounter_ops (s : State) (n : Nat) (old new : Counter) : (putCounter s n old new).ops = s.ops := by
  obtain ⟨_, _, _, put⟩ := (putCounter_puts s n old new).rest
  rw [put]

@[simp] theorem consume_ops (s : State) (n amount : Nat) (src : ChangeSrc) : (consume s n amount src).ops = s.ops := putCounter_ops _ _ _ _

/-! ### The warden -/

@[simp] theorem setEntry_ops (s : State) (g i : Nat) (m : Member) : (s.setEntry g i m).ops = s.ops := by
  unfold State.setEntry
  split
  · refine State.ops_foldl (fun t x => ?_) _ s
    split <;> simp
  · rfl

@[simp] theorem stageEvict_ops (s : State) (g die : Nat) : (stageEvict s g die).ops = s.ops := by
  obtain ⟨_, refreshed⟩ := refreshQuarantine_form
    ((s.activeEntries g die).foldl (fun s i => s.setEntry g i { s.member i with state := stEvict }) s)
  rw [stageEvict, refreshed]
  exact State.ops_foldl (fun t i => setEntry_ops t g i _) _ s

@[simp] theorem refreshDraw_ops (s : State) : (refreshDraw s).ops = s.ops := by
  obtain ⟨_, drawn, -⟩ := refreshDraw_form s
  rw [drawn]

@[simp] theorem refreshVeng_ops (s : State) : (refreshVeng s).ops = s.ops := by
  obtain ⟨_, followed, -⟩ := refreshVeng_form s
  rw [followed]

@[simp] theorem engineRecord_ops (s : State) (type s0 s1 s2 action : Nat) : (engineRecord s type s0 s1 s2 action).ops = s.ops :=
  makeRecord_ops _ _

@[simp] theorem endSurge_ops (s : State) (s0 : Nat) : (endSurge s s0).ops = s.ops := by
  unfold endSurge
  split <;> simp

@[simp] theorem deferTest_ops (s : State) : (deferTest s).ops = s.ops := by
  unfold deferTest
  split <;> simp

@[simp] theorem noteRepeat_ops (s : State) (g unit : Nat) (r : Repeats) (stress : Bool) : (noteRepeat s g unit r stress).ops = s.ops := by
  unfold noteRepeat
  split
  · rfl
  · split <;> rfl

@[simp] theorem addSuspicion_ops (s : State) (unit : Nat) : (addSuspicion s unit).1.ops = s.ops := by
  unfold addSuspicion
  dsimp only
  split <;> rfl

@[simp] theorem paceStep_ops (s : State) (d : Nat) : (paceStep s d).ops = s.ops := rfl

@[simp] theorem voltStep_ops (s : State) : (voltStep s).ops = s.ops := refreshVeng_ops _

end Sys2Proof.Machine
end
section
/-! PROOFS. The staging pair that an entry holds (04 R150, R151): what the progress of any entry, the parcels that it takes in and the
grants of further pairs keep of it. -/

namespace Sys2Proof.Machine

/-- The entry holds pair `k`, for a descriptor. -/
structure Op.Holds (o : Op) (k : Nat) (d : Desc) : Prop where
  held : o.pair = .held
  slot : o.slot = k
  desc : o.desc = d

/-- There is a started entry of count `c` of queue `q`, and each holds pair `k` for the descriptor `d`. -/
structure State.Holds (s : State) (q c k : Nat) (d : Desc) : Prop where
  started : ∃ o ∈ s.ops, o.is q c = true
  pair : ∀ o ∈ s.ops, o.is q c = true → o.Holds k d

/-- An entry that holds its staging pair keeps it, with its descriptor. -/
def State.KeepsPairs (s t : State) : Prop := ∀ q c k d, s.Holds q c k d → t.Holds q c k d

theorem State.KeepsPairs.refl (s : State) : s.KeepsPairs s := fun _ _ _ _ h => h

theorem State.KeepsPairs.trans {s t u : State} (h : s.KeepsPairs t) (k : t.KeepsPairs u) : s.KeepsPairs u :=
  fun q c n d holds => k q c n d (h q c n d holds)

theorem State.KeepsPairs.of_ops {s t : State} (h : t.ops = s.ops) : s.KeepsPairs t := fun _ _ _ _ holds =>
  ⟨by rw [h]; exact holds.started, by rw [h]; exact holds.pair⟩

theorem State.keepsPairs_ite {c : Prop} [Decidable c] {s t u : State} (yes : s.KeepsPairs t) (no : s.KeepsPairs u) :
    s.KeepsPairs (if c then t else u) := by
  split
  · exact yes
  · exact no

theorem State.keepsPairs_ite_fst {α : Type} {c : Prop} [Decidable c] {s : State} {x y : State × α} (yes : s.KeepsPairs x.1)
    (no : s.KeepsPairs y.1) : s.KeepsPairs (if c then x else y).1 := by
  split
  · exact yes
  · exact no

theorem State.keepsPairs_foldl {α : Type} {f : State → α → State} (h : ∀ (t : State) a, t.KeepsPairs (f t a)) (l : List α) (s : State) :
    s.KeepsPairs (l.foldl f s) :=
  List.foldlRecOn (motive := fun t => s.KeepsPairs t) l f (.refl s) fun t kept a _ => kept.trans (h t a)

/-! ### Updates of an entry -/

/-- The same entry with the same descriptor and staging pair. -/
structure Op.SamePair (o r : Op) : Prop where
  q : r.q = o.q
  c : r.c = o.c
  desc : r.desc = o.desc
  pair : r.pair = o.pair
  slot : r.slot = o.slot

theorem State.KeepsPairs.of_map {s t : State} {f : Op → Op} (ops : t.ops = s.ops.map f)
    (named : ∀ o ∈ s.ops, (f o).q = o.q ∧ (f o).c = o.c)
    (kept : ∀ q c k d, s.Holds q c k d → ∀ o ∈ s.ops, o.is q c = true → (f o).Holds k d) : s.KeepsPairs t := by
  intro q c k d holds
  have same : ∀ o ∈ s.ops, (f o).is q c = o.is q c := fun o mem => by simp only [Op.is, named o mem]
  obtain ⟨o, mem, is⟩ := holds.started
  refine ⟨⟨f o, ops ▸ List.mem_map.2 ⟨o, mem, rfl⟩, (same o mem).trans is⟩, fun r mem is => ?_⟩
  rw [ops] at mem
  obtain ⟨o, own, rfl⟩ := List.mem_map.1 mem
  exact kept q c k d holds o own ((same o own).symm.trans is)

theorem State.KeepsPairs.of_mapIf {s t : State} {p : Op → Bool} {f : Op → Op} (ops : t.ops = mapIf p f s.ops)
    (same : ∀ o : Op, o.SamePair (f o)) : s.KeepsPairs t := by
  refine .of_map ops (fun o _ => ?_) fun q c k d holds o mem is => ?_
  · split
    · exact ⟨(same o).q, (same o).c⟩
    · exact ⟨rfl, rfl⟩
  · obtain ⟨held, slot, desc⟩ := holds.pair o mem is
    split
    · exact ⟨(same o).pair.trans held, (same o).slot.trans slot, (same o).desc.trans desc⟩
    · exact ⟨held, slot, desc⟩

/-- The fields of an entry that an update of its progress keeps. -/
def Op.pairKey (o : Op) : Nat × Nat × Desc × PairSt × Nat := (o.q, o.c, o.desc, o.pair, o.slot)

theorem Op.SamePair.of_key {o r : Op} (h : r.pairKey = o.pairKey) : o.SamePair r := by
  simp only [Op.pairKey, Prod.mk.injEq] at h
  obtain ⟨q, c, desc, pair, slot⟩ := h
  exact ⟨q, c, desc, pair, slot⟩

/-- An update that keeps those fields; callers prove it `by rfl`, which waits until the update is known. -/
theorem updOp_keepsPairs (s : State) (q c : Nat) {f : Op → Op} (same : ∀ o : Op, (f o).pairKey = o.pairKey) :
    s.KeepsPairs (s.updOp q c f) := .of_mapIf rfl fun o => .of_key (same o)

/-- One record for every entry of its queue and count, that of one of them with the pair that it holds. -/
theorem updOp_const_keepsPairs {s : State} {o r : Op} (mem : o ∈ s.ops) (q : r.q = o.q) (c : r.c = o.c) (desc : r.desc = o.desc)
    (pair : o.pair = .held → r.pair = .held ∧ r.slot = o.slot) : s.KeepsPairs (s.updOp o.q o.c fun _ => r) := by
  refine .of_map rfl (fun y _ => ?_) fun q' c' k d holds y memY is => ?_
  · split
    next own =>
      obtain ⟨q', c'⟩ := (Op.is_iff y o.q o.c).1 own
      exact ⟨q.trans q'.symm, c.trans c'.symm⟩
    next => exact ⟨rfl, rfl⟩
  · split
    next own =>
      obtain ⟨rfl, rfl⟩ := (Op.is_iff y q' c').1 is
      obtain ⟨q', c'⟩ := (Op.is_iff y o.q o.c).1 own
      obtain ⟨held, slot, desc'⟩ := holds.pair o mem ((Op.is_iff o _ _).2 ⟨q'.symm, c'.symm⟩)
      exact ⟨(pair held).1, (pair held).2.trans slot, desc.trans desc'⟩
    next => exact holds.pair y memY is

/-! ### Early ends and halts (03 R130; 04 R172) -/

theorem endOp_keepsPairs (s : State) (q c st : Nat) : s.KeepsPairs (endOp s q c st) := by
  cases found : s.op? q c with
  | none => rw [endOp, found]; exact .refl s
  | some o =>
    cases past : s.past o
    case true => rw [endOp_past st found past]; exact .refl s
    case false =>
      cases ended : o.ended with
      | some old => rw [endOp_again st found past ended]; exact updOp_keepsPairs s q c fun _ => by rfl
      | none =>
        obtain ⟨torn, e⟩ := endOp_ends st found past ended
        rw [e]
        have early : s.KeepsPairs (endedEarly s q c st torn) := .of_mapIf (f := fun o => o.endedWith st torn) rfl
          fun _ => ⟨rfl, rfl, rfl, rfl, rfl⟩
        refine early.trans (.of_ops ?_)
        split <;> rfl

theorem endWhere_keepsPairs (s : State) (p : Op → Bool) (st : Op → Nat) : s.KeepsPairs (endWhere s p st) :=
  State.keepsPairs_foldl (fun t (o : Op) => endOp_keepsPairs t o.q o.c (st o)) _ s

theorem haltGroup_keepsPairs (s : State) (g cause : Nat) (st : Op → Nat) : s.KeepsPairs (haltGroup s g cause st) := by
  unfold haltGroup
  extract_lets q done halted ended empty disabled
  have toHalted : s.KeepsPairs (halted.updSync fun y => { y with quietSince := none }) := .of_ops <| by
    rw [State.updSync_ops, State.updGroup_ops]
  have toEnded : s.KeepsPairs ended := toHalted.trans (endWhere_keepsPairs _ _ _)
  have same : disabled.ops = ended.ops := by rw [State.updQueue_ops, discardUnstarted_ops]
  have toDisabled : s.KeepsPairs disabled := toEnded.trans (.of_ops same)
  exact State.keepsPairs_ite (.refl s) (State.keepsPairs_ite toDisabled (toDisabled.trans (.of_ops (setQState_ops _ _ _))))

theorem haltOnFault_keepsPairs (s : State) (g cause : Nat) (st : Op → Nat) : s.KeepsPairs (haltOnFault s g cause st) := by
  unfold haltOnFault
  exact State.keepsPairs_ite (.refl s) ((haltGroup_keepsPairs s g cause st).trans (.of_ops (by simp)))

theorem haltPumpless_keepsPairs (s : State) (unit : Option Nat) : s.KeepsPairs (haltPumpless s unit).1 :=
  State.keepsPairs_foldl (fun t g => (haltOnFault_keepsPairs t g haltNoPump endHalted).trans (.of_ops (makeRecord_ops _ _))) _ s

theorem disableQueue_keepsPairs (s : State) (q : Nat) : s.KeepsPairs (disableQueue s q) := by
  unfold disableQueue
  extract_lets empty ended
  have toEmpty : s.KeepsPairs (setQState empty q .draining) := .of_ops <| by
    rw [setQState_ops, discardUnstarted_ops, State.updQueue_ops]
  have toEnded : s.KeepsPairs ended := toEmpty.trans (endWhere_keepsPairs _ _ _)
  exact State.keepsPairs_ite (toEnded.trans (.of_ops (settleQueue_ops _ _))) (.of_ops rfl)

/-! ### Verdicts of the warden (11 R420-R429) -/

theorem withdrawEngine_keepsPairs (s : State) (type : Nat) : s.KeepsPairs (withdrawEngine s type).1 := by
  have halted : s.KeepsPairs (s.activeGroups.foldl (fun s g => haltOnFault s g haltFault endHalted) s) :=
    State.keepsPairs_foldl (fun t g => haltOnFault_keepsPairs t g haltFault endHalted) _ s
  unfold withdrawEngine
  dsimp only
  split
  · exact .refl s
  split
  · exact halted
  · refine halted.trans (.of_ops ?_)
    rw [State.updWarden_ops, engineRecord_ops]
    refine (State.ops_foldl (fun t g => ?_) _ _).trans (State.ops_foldl (fun t g => stageEvict_ops t g _) _ _)
    split <;> simp

theorem fencePump_keepsPairs (s : State) (p : Nat) : s.KeepsPairs (fencePump s p).1 := by
  refine State.keepsPairs_ite_fst (.refl s) (.trans ?_ (haltPumpless_keepsPairs _ _))
  exact .of_ops (deferTest_ops _)

theorem permanent_keepsPairs (s : State) (unit type : Nat) : s.KeepsPairs (permanent s unit type).1 := by
  refine State.keepsPairs_ite_fst (.refl s) (State.keepsPairs_ite_fst (fencePump_keepsPairs s unit)
    (State.keepsPairs_ite_fst ?_ (withdrawEngine_keepsPairs s type)))
  refine State.keepsPairs_ite_fst (.trans ?_ (withdrawEngine_keepsPairs _ type)) ?_ <;> exact .of_ops rfl

theorem ladder_keepsPairs (s : State) (unit type : Nat) : s.KeepsPairs (ladder s unit type).1 :=
  State.keepsPairs_ite_fst (.of_ops (paceStep_ops _ _))
    (State.keepsPairs_ite_fst (.of_ops (voltStep_ops _)) (permanent_keepsPairs s unit type))

theorem onVerdict_keepsPairs (s : State) (unit type verdict : Nat) : s.KeepsPairs (onVerdict s unit type verdict).1 := by
  have noted : s.KeepsPairs (addSuspicion s unit).1 := .of_ops (addSuspicion_ops s unit)
  exact State.keepsPairs_ite_fst (State.keepsPairs_ite_fst (noted.trans (ladder_keepsPairs _ unit type)) noted)
    (State.keepsPairs_ite_fst (permanent_keepsPairs s unit type)
      (State.keepsPairs_ite_fst (State.keepsPairs_ite_fst (.of_ops (voltStep_ops _)) (.refl s))
        (State.keepsPairs_ite_fst (ladder_keepsPairs s unit type) (.refl s))))

theorem judgeFault_keepsPairs (s : State) (x : RepeatWork) (type : Nat) (rep : Repeats) (kept stress : Bool) :
    s.KeepsPairs (judgeFault s x type rep kept stress).1 :=
  .trans (State.keepsPairs_ite (.refl s) (.of_ops (by simp))) (onVerdict_keepsPairs _ _ _ _)

end Sys2Proof.Machine
end
section
/-! PROOFS. The staging pair that an entry holds (04 R150, R151): what ROTATE, the twin's notes, the reads of other entries and grants of
pairs keep of it. -/

namespace Sys2Proof.Machine

/-! ### ROTATE and the sync unit (05 R219-R223; 08 R310-R314) -/

theorem rotateCredits_keepsPairs {s : State} {o : Op} (mem : o ∈ s.ops) (fuel : Nat) : s.KeepsPairs (rotateCredits s o fuel) := by
  induction fuel generalizing s o with
  | zero => exact .refl s
  | succ fuel ih =>
    have next : ∀ (t : State) (r : Op), t.ops = s.ops → o.SamePair r →
        s.KeepsPairs (rotateCredits (t.updOp o.q o.c fun _ => r) r fuel) := fun t r ops ⟨q, c, desc, pair, slot⟩ => by
      rw [← ops] at mem
      refine .trans (.trans (.of_ops ops) (updOp_const_keepsPairs mem q c desc fun held => ⟨pair.trans held, slot⟩)) (ih ?_)
      exact List.mem_map.2 ⟨o, mem, if_pos ((Op.is_iff o _ _).2 ⟨rfl, rfl⟩)⟩
    unfold rotateCredits
    exact State.keepsPairs_ite (next _ _ (by split <;> simp) ⟨rfl, rfl, rfl, rfl, rfl⟩) (.refl s)

theorem releaseWaiter_keepsPairs (s : State) (w : Waiter) : s.KeepsPairs (releaseWaiter s w) := by
  unfold releaseWaiter
  extract_lets left src taken released
  have kept : s.KeepsPairs taken :=
    State.keepsPairs_ite (.of_ops rfl) (State.keepsPairs_ite (.of_ops rfl) (.of_ops (consume_ops left _ _ _)))
  refine kept.trans (State.keepsPairs_ite ?_ (updOp_keepsPairs taken w.q w.c fun _ => by rfl))
  have counted : taken.KeepsPairs released := updOp_keepsPairs taken w.q w.c fun _ => by rfl
  split
  next found => exact counted.trans (rotateCredits_keepsPairs (State.op?_mem found) _)
  next => exact counted

theorem parkOrRelease_keepsPairs (s : State) (w : Waiter) : s.KeepsPairs (parkOrRelease s w) := by
  unfold parkOrRelease
  refine State.keepsPairs_ite (.trans ?_ (releaseWaiter_keepsPairs _ w)) ?_ <;> exact .of_ops rfl

theorem rotateWait_keepsPairs (q c fuel : Nat) (s : State) : s.KeepsPairs (rotateWait s q c fuel) := by
  induction fuel generalizing s with
  | zero => exact .refl s
  | succ fuel ih =>
    unfold rotateWait
    split
    · exact .refl s
    · exact State.keepsPairs_ite ((parkOrRelease_keepsPairs s _).trans (ih _)) (.refl s)

theorem checkWaiters_keepsPairs (s : State) (n : Nat) : s.KeepsPairs (checkWaiters s n) :=
  (State.keepsPairs_foldl (fun t (w : Waiter) => State.keepsPairs_ite (releaseWaiter_keepsPairs t w) (.refl t)) _ s).trans
    (State.keepsPairs_foldl (fun t (o : Op) => State.keepsPairs_ite (rotateWait_keepsPairs o.q o.c _ t) (.refl t)) _ _)

theorem applySignal_keepsPairs (s : State) (n : Nat) (sub : Bool) (amount : Nat) (src : ChangeSrc) :
    s.KeepsPairs (applySignal s n sub amount src).1 := by
  refine State.keepsPairs_ite_fst (.of_ops rfl) (State.keepsPairs_ite_fst ?_ ?_)
  · exact .trans (t := State.updSync _ _) (.of_ops (by simp)) (checkWaiters_keepsPairs _ n)
  · exact .trans (t := State.updSync _ _) (.of_ops (by simp)) (checkWaiters_keepsPairs _ n)

theorem entryChange_keepsPairs (s : State) (o : Op) (n : Nat) (sub : Bool) (amount kind : Nat) :
    s.KeepsPairs (entryChange s o n sub amount kind) := by
  have signalled := applySignal_keepsPairs s n sub amount ⟨kind, s.me, o.q⟩
  unfold entryChange entrySignal
  exact State.keepsPairs_ite (.of_ops rfl) (State.keepsPairs_ite signalled (signalled.trans (.of_ops (queueError_ops _ _ _ _))))

theorem rotateLanded_keepsPairs (s : State) (o : Op) : s.KeepsPairs (rotateLanded s o) := updOp_keepsPairs s _ _ fun _ => by rfl

theorem rotateReads_keepsPairs (s : State) (q c : Nat) : s.KeepsPairs (rotateReads s q c) := by
  unfold rotateReads
  split
  · exact .refl s
  · refine State.keepsPairs_foldl (fun t ⟨k, p⟩ => ?_) _ s
    refine .trans ?_ (State.keepsPairs_foldl (fun u r => .of_ops (enqueueRead_ops _ _ _ _ _ _)) _ _)
    exact updOp_keepsPairs t q c fun _ => by rfl

theorem rotateArrivals_keepsPairs (q c fuel : Nat) (s : State) : s.KeepsPairs (rotateArrivals q c fuel s) := by
  induction fuel generalizing s with
  | zero => exact .refl s
  | succ fuel ih =>
    unfold rotateArrivals
    split
    · exact .refl s
    · refine State.keepsPairs_ite (.trans (.trans ?_ (entryChange_keepsPairs _ _ _ _ _ _)) (ih _)) (.refl s)
      exact updOp_keepsPairs s q c fun _ => by rfl

theorem rotateStep_keepsPairs (s : State) (q c : Nat) : s.KeepsPairs (rotateStep s q c) := by
  unfold rotateStep
  split
  · exact .refl s
  next o _ =>
    extract_lets landed forwarded waits
    have kept : s.KeepsPairs waits :=
      .trans (.trans (.trans (rotateLanded_keepsPairs s o) (.trans (rotateReads_keepsPairs _ q c) (rotateArrivals_keepsPairs q c _ _)))
        (updOp_keepsPairs landed q c fun _ => by rfl)) (rotateWait_keepsPairs q c _ forwarded)
    split
    · exact kept
    next found => exact kept.trans (rotateCredits_keepsPairs (State.op?_mem found) _)

/-! ### The twin's notes (09 R368-R370) -/

theorem twinMatch_keepsPairs (s : State) (key : TwinKey) (own theirs : Nat) : s.KeepsPairs (twinMatch s key own theirs) := by
  unfold twinMatch
  refine State.keepsPairs_ite (.of_ops rfl) (State.keepsPairs_ite (.trans ?_ (disableQueue_keepsPairs _ _)) ?_) <;> exact .of_ops rfl

theorem twinNote_keepsPairs (s : State) (key : TwinKey) (crc : Nat) : s.KeepsPairs (twinNote s key crc) := by
  unfold twinNote
  dsimp only
  split
  · refine .trans ?_ (twinMatch_keepsPairs _ key crc _)
    exact .of_ops (by simp)
  · exact .of_ops (by simp)

theorem twinParcel_keepsPairs (s : State) (o : Op) (p : Parcel) (up : Bool) (round : Nat) :
    s.KeepsPairs (twinParcel s o p up round) := by
  unfold twinParcel
  split
  · exact twinNote_keepsPairs s _ _
  · exact .refl s

/-! ### Headers, inputs and grants (04 R150-R152; 07 R294; 10 R402-R404) -/

theorem askHeaders_keepsPairs (s : State) : s.KeepsPairs (askHeaders s) := by
  refine State.keepsPairs_foldl (fun t o => State.keepsPairs_ite (.refl t) ?_) _ s
  exact (updOp_keepsPairs t o.q o.c fun _ => by rfl).trans (.of_ops (enqueueRead_ops _ _ _ _ _ _))

theorem placeInput_keepsPairs (s : State) (o : Op) : s.KeepsPairs (placeInput s o) := by
  refine State.keepsPairs_ite (.refl s) (State.keepsPairs_ite (.of_ops (writeSlotHeader_ops _ _ _)) ?_)
  refine .trans ?_ (updOp_keepsPairs _ o.q o.c fun _ => by rfl)
  exact .of_ops rfl

theorem readFrom_keepsPairs (s : State) (o : Op) (r : Region) (base n : Nat) : s.KeepsPairs (readFrom s o r base n) :=
  State.keepsPairs_ite (.of_ops (readRegion_ops _ _ _ _ _ _)) (updOp_keepsPairs s o.q o.c fun _ => by rfl)

theorem readSource_keepsPairs (s : State) (o : Op) : s.KeepsPairs (readSource s o) :=
  (placeInput_keepsPairs s o).trans (readFrom_keepsPairs _ o _ _ _)

theorem probeSlot_keepsPairs (s : State) (o : Op) (off left : Nat) : s.KeepsPairs (probeSlot s o off left) :=
  (updOp_keepsPairs s o.q o.c fun _ => by rfl).trans (.of_ops (readRegion_ops _ _ _ _ _ _))

theorem readInput_keepsPairs (s : State) (o : Op) : s.KeepsPairs (readInput s o) := by
  unfold readInput
  split
  · exact updOp_keepsPairs s o.q o.c fun _ => by rfl
  · exact State.keepsPairs_ite (probeSlot_keepsPairs s o 0 0) (readSource_keepsPairs s o)

theorem readMapHalves_keepsPairs (q c fuel : Nat) (s : State) : s.KeepsPairs (readMapHalves q c fuel s) := by
  induction fuel generalizing s with
  | zero => exact .refl s
  | succ fuel ih =>
    unfold readMapHalves
    split
    · exact .refl s
    · refine State.keepsPairs_ite (.refl s) (.trans (.trans ?_ (.of_ops (readRegion_ops _ _ _ _ _ _))) (ih _))
      exact updOp_keepsPairs s q c fun _ => by rfl

theorem issueReads_keepsPairs (s : State) (o : Op) : s.KeepsPairs (issueReads s o) := by
  unfold issueReads
  refine State.keepsPairs_ite (.refl s) (State.keepsPairs_ite (haltOnFault_keepsPairs s _ _ _) ?_)
  refine .trans (.trans ?_ (readMapHalves_keepsPairs o.q o.c 2 _))
    (State.keepsPairs_ite ((updOp_keepsPairs _ o.q o.c fun _ => by rfl).trans (askHeaders_keepsPairs _)) (.refl _))
  refine .trans ?_ (State.keepsPairs_ite (.of_ops (readRegion_ops _ _ _ _ _ _)) (.refl _))
  exact State.keepsPairs_ite (readInput_keepsPairs s o) (.refl s)

/-- A pair is given to an entry that lacks it; one that has its staging pair keeps it. -/
theorem givePair_keepsPairs {s : State} {o : Op} (mem : o ∈ s.ops) (k : Nat) : s.KeepsPairs (givePair s o k) := by
  unfold givePair
  split
  next waits =>
    have given : s.KeepsPairs (s.updOp o.q o.c fun _ => { o with pair := .held, slot := k }) :=
      updOp_const_keepsPairs mem rfl rfl rfl fun held => by rw [held] at waits; cases waits
    exact State.keepsPairs_ite (given.trans (issueReads_keepsPairs _ _)) given
  next =>
    exact State.keepsPairs_ite ((updOp_keepsPairs s o.q o.c fun _ => by rfl).trans (askHeaders_keepsPairs _))
      (updOp_keepsPairs s o.q o.c fun _ => by rfl)

theorem grantPairs_keepsPairs (p fuel : Nat) (s : State) : s.KeepsPairs (grantPairs p fuel s) := by
  induction fuel generalizing s with
  | zero => exact .refl s
  | succ fuel ih =>
    unfold grantPairs
    split
    next found _ => exact (givePair_keepsPairs (List.mem_of_find?_eq_some found) _).trans (ih _)
    next => exact .refl s

end Sys2Proof.Machine
end
section
/-! PROOFS. The staging pair that an entry holds (04 R150, R151): what the refiner and the sending of results keep of it. -/

namespace Sys2Proof.Machine

/-! ### The refiner (07 R289-R299) -/

theorem askState_keepsPairs (s : State) (o : Op) (x : RedCx) (l : StLay) (t : Take) : s.KeepsPairs (askState s o x l t) := by
  have read : ∀ (rs : List (Nat × Nat)) (u : State), (rs.foldl (fun s r => enqueueRead s o.q (o.desc.aux64 + r.1) r.2 siphonOf fun k =>
      .payload o.q o.c .state (r.1 + k)) u).ops = u.ops := fun rs u => State.ops_foldl (fun _ _ => enqueueRead_ops _ _ _ _ _ _) rs u
  refine State.keepsPairs_ite ?_ ?_
  · dsimp only
    split <;> exact .trans (updOp_keepsPairs s o.q o.c fun _ => by rfl) (.of_ops (read _ _))
  · refine .trans (updOp_keepsPairs s o.q o.c fun _ => by rfl) (.of_ops (State.ops_foldl (fun u k => ?_) _ _))
    split
    · exact read _ _
    · rfl

theorem putState_keepsPairs (s : State) (o : Op) (off : Nat) (data : List Byte) (pur : Purpose) :
    s.KeepsPairs (putState s o off data pur) :=
  (State.keepsPairs_ite (updOp_keepsPairs s o.q o.c fun _ => by rfl) (.refl s)).trans (.of_ops (enqueueWrite_ops _ _ _ _ _ _ _))

theorem formTake_keepsPairs (s : State) (o : Op) (x : RedCx) (l : StLay) (t : Take) : s.KeepsPairs (formTake s o x l t) :=
  updOp_keepsPairs s o.q o.c fun _ => by rfl

theorem writeUnit_keepsPairs (s : State) (o : Op) (l : StLay) (f : UnitSt) : s.KeepsPairs (writeUnit s o l f) := by
  unfold writeUnit
  extract_lets a b any begun _ counted
  have kept : s.KeepsPairs begun := updOp_keepsPairs s o.q o.c fun _ => by rfl
  have same : counted.ops = begun.ops := rfl
  exact (kept.trans (.of_ops same)).trans (State.keepsPairs_foldl (fun t (w : Nat × List Byte) => putState_keepsPairs t o w.1 w.2 _) _ _)

theorem takeNext_keepsPairs (s : State) (o : Op) (x : RedCx) (l : StLay) : s.KeepsPairs (takeNext s o x l) := by
  refine State.keepsPairs_ite (.refl s) ?_
  split
  · exact State.keepsPairs_ite (formTake_keepsPairs s o x l _) (State.keepsPairs_ite (askState_keepsPairs s o x l _) (.refl s))
  · exact .refl s

theorem refineStep_keepsPairs (s : State) (o : Op) : s.KeepsPairs (refineStep s o) := by
  refine State.keepsPairs_ite (.refl s) ?_
  have next := takeNext_keepsPairs s o (s.redCx o .main) (s.stLay o (s.redCx o .main))
  split
  · exact writeUnit_keepsPairs s o _ _
  · exact next
  · exact State.keepsPairs_ite next (.trans (updOp_keepsPairs s o.q o.c fun _ => by rfl) (putState_keepsPairs _ o _ _ _))
  · exact State.keepsPairs_ite next (updOp_keepsPairs s o.q o.c fun _ => by rfl)

theorem refine_keepsPairs (q c fuel : Nat) (s : State) : s.KeepsPairs (refine q c fuel s) := by
  induction fuel generalizing s with
  | zero => exact askHeaders_keepsPairs s
  | succ fuel ih =>
    unfold refine
    split
    · exact askHeaders_keepsPairs s
    next o _ => exact (refineStep_keepsPairs s o).trans (State.keepsPairs_ite (askHeaders_keepsPairs _) (ih _))

theorem stopUnbegun_keepsPairs (s : State) (o : Op) (step : Nat) : s.KeepsPairs (stopUnbegun s o step) := by
  unfold stopUnbegun
  refine .trans ?_ (updOp_keepsPairs _ o.q o.c fun _ => by rfl)
  exact State.keepsPairs_ite (.refl s) (.of_ops rfl)

/-! ### Results and parcels (04 R143; 05 R215-R218; 10 R389) -/

theorem noteLag_keepsPairs (s : State) (q c : Nat) : s.KeepsPairs (noteLag s q c) := by
  unfold noteLag
  split
  · exact .refl s
  next o _ =>
    have paced : ∀ (new : List (Nat × Nat)) (t : State), s.KeepsPairs t → s.KeepsPairs (match new with
        | [] => t
        | (d, st) :: _ => if o.lag then t else
          (t.updOp q c fun o => { o with lag := true }).updGroup o.desc.group fun x =>
            { x with lag := true, lagDie := d, lagStage := st }) := fun new t kept => by
      cases new with
      | nil => exact kept
      | cons x _ => exact kept.trans (State.keepsPairs_ite (.refl t) (.trans (updOp_keepsPairs t q c fun _ => by rfl) (.of_ops rfl)))
    exact paced _ _ (updOp_keepsPairs s q c fun _ => by rfl)

theorem sendParcel_keepsPairs (s : State) (q c : Nat) (k : Kept) : s.KeepsPairs (sendParcel s q c k) :=
  (updOp_keepsPairs s q c fun _ => by rfl).trans (.of_ops (sendTo_ops _ _ _))

theorem writeResult_keepsPairs (s : State) (o : Op) (cls off : Nat) (bs : List Byte) : s.KeepsPairs (writeResult s o cls off bs) :=
  State.keepsPairs_ite (.refl s) ((updOp_keepsPairs s o.q o.c fun _ => by rfl).trans (.of_ops (enqueueWrite_ops _ _ _ _ _ _ _)))

theorem makeRoom_keepsPairs (s : State) (q c n : Nat) : s.KeepsPairs (makeRoom s q c n) := by
  unfold makeRoom
  split
  · exact .refl s
  · refine State.keepsPairs_ite (.trans ?_ (grantPairs_keepsPairs _ _ _)) (.refl s)
    exact updOp_keepsPairs s q c fun _ => by rfl

theorem sendEdge_keepsPairs (lay : Lay) (q c : Nat) (it : Item) (payload : List Byte) (s : State) (e : Edge) :
    s.KeepsPairs (sendEdge lay q c it payload s e) := by
  unfold sendEdge
  extract_lets mates fans begun n
  split
  · exact .refl s
  next o _ =>
    refine State.keepsPairs_ite (.refl s) ?_
    extract_lets room noted
    have kept : s.KeepsPairs room := State.keepsPairs_ite (.refl s) (makeRoom_keepsPairs s q c n)
    split
    · exact kept
    next o' _ =>
      refine kept.trans (State.keepsPairs_ite (.refl room) ?_)
      have marked : room.KeepsPairs noted := updOp_keepsPairs room q c fun _ => by rfl
      exact marked.trans (State.keepsPairs_ite ((sendParcel_keepsPairs _ q c _).trans (twinParcel_keepsPairs _ _ _ _ _)) (.refl noted))

theorem writeItem_keepsPairs (q c : Nat) (it : Item) (s : State) : s.KeepsPairs (writeItem q c it s) := by
  unfold writeItem
  split
  next o _ _ _ =>
    refine State.keepsPairs_ite (.refl s) (.trans ?_
      (State.keepsPairs_foldl (fun t ⟨cls, off, bs⟩ => writeResult_keepsPairs t o cls off bs) _ _))
    exact updOp_keepsPairs s q c fun _ => by rfl
  next => exact .refl s

theorem runItem_keepsPairs (lay : Lay) (q c : Nat) (s : State) (it : Item) : s.KeepsPairs (runItem lay q c s it) := by
  unfold runItem
  split
  · exact .refl s
  · refine State.keepsPairs_ite (.refl s) (.trans (.trans ?_ (writeItem_keepsPairs q c it _)) (updOp_keepsPairs _ q c fun _ => by rfl))
    refine .trans ?_ (noteLag_keepsPairs _ q c)
    exact State.keepsPairs_foldl (fun t e => sendEdge_keepsPairs lay q c it _ t e) _ s

theorem runItems_keepsPairs (s : State) (o : Op) (its : List (Option Item)) : s.KeepsPairs (runItems s o its) :=
  State.keepsPairs_foldl (fun t it => runItem_keepsPairs _ o.q o.c t it) _ s

end Sys2Proof.Machine
end
section
/-! PROOFS. The staging pair that an entry holds (04 R150, R151): what the steps of an entry's progress and the parcels that come to it
keep of it. -/

namespace Sys2Proof.Machine

/-! ### Tokens, level marks and recalls (08 R326; 10 R389-R391) -/

theorem sendTokens_keepsPairs (s : State) (q c : Nat) : s.KeepsPairs (sendTokens s q c) := by
  unfold sendTokens
  split
  · exact .refl s
  · refine State.keepsPairs_foldl (fun t i => ?_) _ s
    extract_lets reached
    have kept : t.KeepsPairs reached := updOp_keepsPairs t q c fun _ => by rfl
    exact kept.trans (State.keepsPairs_ite (.of_ops (sendAll_ops _ _ _)) (.refl reached))

theorem settleOp_keepsPairs (s : State) (q c : Nat) : s.KeepsPairs (settleOp s q c) := by
  unfold settleOp
  split
  · exact .refl s
  · refine State.keepsPairs_ite (.refl s) (State.keepsPairs_ite (updOp_keepsPairs s q c fun _ => by rfl) ?_)
    refine .trans (.of_ops ?_) (updOp_keepsPairs _ q c fun _ => by rfl)
    exact State.ops_foldl (fun t st => sendLevel_ops t _ st _) _ s

theorem recallNamed_keepsPairs (s : State) (g num : Nat) : s.KeepsPairs (recallNamed s g num) :=
  .of_mapIf rfl fun _ => ⟨rfl, rfl, rfl, rfl, rfl⟩

theorem takeRecall_keepsPairs (s : State) (m : RecallMsg) (origin : Bool) : s.KeepsPairs (takeRecall s m origin) := by
  unfold takeRecall
  extract_lets g x now chunk key count done keyed halted held sent
  refine State.keepsPairs_ite (.refl s) ?_
  have noted : s.KeepsPairs keyed := .of_ops rfl
  have ended : keyed.KeepsPairs held := by
    refine State.keepsPairs_ite (State.keepsPairs_ite (recallNamed_keepsPairs _ _ _) (.refl _)) ?_
    have toHalted : keyed.KeepsPairs halted := haltGroup_keepsPairs _ _ _ _
    refine toHalted.trans (.of_ops ?_)
    rw [dropHeld_ops]
    split
    · exact writeDump_ops _ _ _
    · rfl
  have told : held.KeepsPairs sent := State.keepsPairs_ite (.of_ops (sendAll_ops _ _ _)) (.refl held)
  exact ((noted.trans ended).trans told).trans (.of_ops (recallRecord_ops _ _ _ _ _ _ _ _ _ _ _ _ _ _))

theorem raiseRecall_keepsPairs (s : State) (g stage num chunk kind suspect : Nat) :
    s.KeepsPairs (raiseRecall s g stage num chunk kind suspect) :=
  .trans (t := s.updInteg _) (.of_ops rfl) (takeRecall_keepsPairs _ _ _)

theorem repairFails_keepsPairs (s : State) (o : Op) (type unit stage chunk idx : Nat) :
    s.KeepsPairs (repairFails s o type unit stage chunk idx) :=
  .trans (.trans (t := s.updInteg _) (.of_ops rfl) (haltOnFault_keepsPairs _ _ _ _)) (.of_ops (makeRecord_ops _ _))

/-! ### The parts of progress (04 R150-R155; 05 R209-R218) -/

theorem prepassStep_keepsPairs (s : State) (o : Op) : s.KeepsPairs (prepassStep s o) := by
  unfold prepassStep
  extract_lets x up
  have kept : s.KeepsPairs up := runItems_keepsPairs s o _
  split
  · exact kept
  next o' _ =>
    extract_lets down all
    have ran : s.KeepsPairs all := kept.trans (runItems_keepsPairs up o' _)
    exact ran.trans (State.keepsPairs_ite (updOp_keepsPairs all _ _ fun _ => by rfl) (.refl all))

theorem countPoison_keepsPairs (s : State) (o : Op) : s.KeepsPairs (countPoison s o) := by
  unfold countPoison
  extract_lets x new n counted
  refine State.keepsPairs_ite (.refl s) ?_
  have kept : s.KeepsPairs counted := updOp_keepsPairs s o.q o.c fun _ => by rfl
  exact kept.trans (.of_ops rfl)

theorem checkSums_keepsPairs (s : State) (o : Op) : s.KeepsPairs (checkSums s o) := by
  unfold checkSums
  extract_lets x fresh summed found
  have kept : s.KeepsPairs summed := updOp_keepsPairs s o.q o.c fun _ => by rfl
  refine State.keepsPairs_ite (.refl s) ?_
  split
  · exact kept
  next c p f _ =>
    extract_lets pump
    split
    next t verdict acts short fault =>
      have counted : summed.KeepsPairs (countResidue summed) := .of_ops rfl
      have judged : (countResidue summed).KeepsPairs t := by
        have same : _ = t := congrArg Prod.fst fault
        exact same ▸ judgeFault_keepsPairs _ _ _ _ _ _
      extract_lets recorded
      have toRecorded : t.KeepsPairs recorded := .of_ops (checkFailed_ops t _)
      refine (((kept.trans counted).trans judged).trans toRecorded).trans ?_
      exact State.keepsPairs_ite (raiseRecall_keepsPairs _ _ _ _ _ _ _) (repairFails_keepsPairs _ _ _ _ _ _ _)

theorem updateStep_keepsPairs (s : State) (o : Op) : s.KeepsPairs (updateStep s o) :=
  State.keepsPairs_ite (refine_keepsPairs o.q o.c _ s) (.refl s)

theorem moreReads_keepsPairs (q c fuel : Nat) (s : State) : s.KeepsPairs (moreReads q c fuel s) := by
  induction fuel generalizing s with
  | zero => exact .refl s
  | succ fuel ih =>
    unfold moreReads
    split
    · exact .refl s
    next o _ =>
      refine State.keepsPairs_ite (.refl s) (State.keepsPairs_ite (.refl s) ?_)
      extract_lets all rs r asked
      have kept : s.KeepsPairs asked := updOp_keepsPairs s q c fun _ => by rfl
      refine (kept.trans (.of_ops (State.ops_foldl (fun t y => ?_) rs asked))).trans (ih _)
      split <;> exact readRegion_ops _ _ _ _ _ _

theorem onOp_keepsPairs (q c : Nat) {f : State → Op → State} (h : ∀ (t : State) o, t.KeepsPairs (f t o)) (s : State) :
    s.KeepsPairs (onOp q c f s) := by
  unfold onOp
  split
  · exact .refl s
  · exact State.keepsPairs_ite (.refl s) (h s _)

theorem runPieces_keepsPairs (s : State) (q c : Nat) : s.KeepsPairs (runPieces s q c) := by
  unfold runPieces
  extract_lets held pre poison check first second third
  have checked (flow : Bool) (t : State) : t.KeepsPairs (check flow t) :=
    onOp_keepsPairs q c (fun t o => State.keepsPairs_ite (.refl t) (checkSums_keepsPairs t o)) t
  have toPre : s.KeepsPairs pre := onOp_keepsPairs q c (fun t o => State.keepsPairs_ite (prepassStep_keepsPairs t o) (.refl t)) s
  have toPoison : pre.KeepsPairs poison := onOp_keepsPairs q c (fun t o => State.keepsPairs_ite (.refl t) (countPoison_keepsPairs t o)) pre
  have toFirst : poison.KeepsPairs first := checked false poison
  have toSecond : first.KeepsPairs second :=
    onOp_keepsPairs q c (fun t o => State.keepsPairs_ite (.refl t) (updateStep_keepsPairs t o)) first
  have toThird : second.KeepsPairs third :=
    (onOp_keepsPairs q c (fun t o => State.keepsPairs_ite (.refl t) (runItems_keepsPairs t o _)) second).trans (checked true _)
  have toEnd := onOp_keepsPairs q c (fun t o => State.keepsPairs_ite (c := (o.desc.opcode == opRotate) = true)
    (rotateStep_keepsPairs t q c) (.refl t)) third
  exact (((toPre.trans toPoison).trans (toFirst.trans toSecond)).trans toThird).trans toEnd

theorem closePart_keepsPairs (s : State) (o : Op) : s.KeepsPairs (closePart s o) := by
  refine .trans ?_ (settleOp_keepsPairs _ o.q o.c)
  exact updOp_keepsPairs s o.q o.c fun _ => by rfl

theorem progress_keepsPairs (s : State) (q c : Nat) : s.KeepsPairs (progress s q c) := by
  have tokens (wide : Bool) (t : State) : t.KeepsPairs (if wide then sendTokens t q c else t) :=
    State.keepsPairs_ite (sendTokens_keepsPairs t q c) (.refl t)
  have more (t : State) : t.KeepsPairs (moreReads q c 4 (readMapHalves q c 2 t)) :=
    (readMapHalves_keepsPairs q c 2 t).trans (moreReads_keepsPairs q c 4 _)
  unfold progress
  split
  · exact .refl s
  next o _ =>
    refine State.keepsPairs_ite (.refl s) (State.keepsPairs_ite ?_ ?_)
    · refine ((tokens _ s).trans (State.keepsPairs_ite ?_ (.refl _))).trans (settleOp_keepsPairs _ q c)
      exact updOp_keepsPairs _ q c fun _ => by rfl
    · exact ((((tokens _ s).trans (more _)).trans (runPieces_keepsPairs _ q c)).trans ((tokens _ _).trans (more _))).trans
        (onOp_keepsPairs q c closePart_keepsPairs _)

theorem advance_keepsPairs (s : State) (q c : Nat) : s.KeepsPairs (advance s q c) :=
  ((progress_keepsPairs s q c).trans (progress_keepsPairs _ q c)).trans (progress_keepsPairs _ q c)

/-! ### Parcels that come to an entry (10 R376-R384) -/

theorem noteSkew_keepsPairs (s : State) (o : Op) (p : Parcel) : s.KeepsPairs (noteSkew s o p) := by
  unfold noteSkew
  extract_lets marked stopped g skewed
  have toMarked : s.KeepsPairs marked := updOp_keepsPairs s o.q o.c fun _ => by rfl
  have toStopped : marked.KeepsPairs stopped := by
    unfold stopped
    split
    · exact State.keepsPairs_ite (.refl marked) (stopUnbegun_keepsPairs marked _ _)
    · exact .refl marked
  have toSkewed : stopped.KeepsPairs skewed := .of_ops rfl
  refine State.keepsPairs_ite (.refl s) (State.keepsPairs_ite toMarked (((toMarked.trans toStopped).trans toSkewed).trans ?_))
  exact State.keepsPairs_ite (.refl skewed) (.of_ops ((makeRecord_ops _ _).trans (State.updGroup_ops skewed g _)))

theorem addParcel_keepsPairs (s : State) (o : Op) (p : Parcel) : s.KeepsPairs (addParcel s o p) :=
  updOp_keepsPairs s o.q o.c fun _ => by rfl

theorem acceptParcel_keepsPairs (s : State) (o : Op) (p : Parcel) : s.KeepsPairs (acceptParcel s o p) := by
  refine .trans (.trans (noteSkew_keepsPairs s o p) (.trans (State.keepsPairs_ite ?_ (.refl _)) (.of_ops (answerParcel_ops _ _ _ _))))
    (addParcel_keepsPairs _ o p)
  exact .of_ops rfl

theorem passBad_keepsPairs (s : State) (o : Op) (p : Parcel) : s.KeepsPairs (passBad s o p) := by
  refine .trans (.trans ((noteSkew_keepsPairs s o p).trans (addParcel_keepsPairs _ o p)) (State.keepsPairs_ite ?_ (.refl _)))
    (advance_keepsPairs _ o.q o.c)
  exact updOp_keepsPairs _ o.q o.c fun _ => by rfl

theorem parcelFails_keepsPairs (s : State) (o : Op) (p : Parcel) (kind found : Nat) (passed : Bool) :
    s.KeepsPairs (parcelFails s o p kind found passed) := by
  unfold parcelFails
  extract_lets back recorded answered
  have kept : s.KeepsPairs answered := .of_ops ((answerParcel_ops _ _ _ _).trans (checkRecord_ops _ _ _ _ _ _))
  exact kept.trans (State.keepsPairs_ite (repairFails_keepsPairs _ _ _ _ _ _ _)
    (State.keepsPairs_ite ((passBad_keepsPairs _ o p).trans (raiseRecall_keepsPairs _ _ _ _ _ _ _)) (.refl _)))

theorem checkParcel_keepsPairs (s : State) (o : Op) (p : Parcel) (early : Bool) : s.KeepsPairs (checkParcel s o p early) := by
  have counted : s.KeepsPairs (countCrc s) ∧ s.KeepsPairs (countResidue s) := ⟨.of_ops rfl, .of_ops rfl⟩
  exact State.keepsPairs_ite (counted.1.trans (parcelFails_keepsPairs _ _ _ _ _ _))
    (State.keepsPairs_ite (counted.2.trans (parcelFails_keepsPairs _ _ _ _ _ _)) (acceptParcel_keepsPairs s o p))

theorem redeliver_keepsPairs (g fuel : Nat) (s : State) : s.KeepsPairs (redeliver g fuel s) := by
  induction fuel generalizing s with
  | zero => exact .refl s
  | succ fuel ih =>
    unfold redeliver
    extract_lets hit
    split
    · exact .refl s
    next p _ =>
      extract_lets taken
      have kept : s.KeepsPairs taken := .of_ops rfl
      split
      next o _ => exact kept.trans (((checkParcel_keepsPairs taken o p true).trans (advance_keepsPairs _ o.q o.c)).trans (ih _))
      next => exact kept.trans (ih _)

theorem stepOp_keepsPairs (s : State) (q c : Nat) : s.KeepsPairs (stepOp s q c) := by
  unfold stepOp
  split
  · exact .refl s
  · exact (advance_keepsPairs s q c).trans (State.keepsPairs_ite (.refl _)
      ((redeliver_keepsPairs _ _ _).trans (.of_ops (refreshTimer_ops _ _))))

end Sys2Proof.Machine
end
section
/-! PROOFS. The grants of staging pairs (04 R150, R151): the pair goes to the first entry that asks, and it holds it after the grant's
further steps. -/

namespace Sys2Proof.Machine

variable {s : State} {o : Op} {k : Nat}

theorem grantPairs_first {p : Nat} (found : (s.ops.find? fun y => y.partition == p && y.asksPair) = some o) (free : s.freePair p = some k)
    (n : Nat) : grantPairs p (n + 1) s = grantPairs p n (givePair s o k) := by rw [grantPairs, found, free]

theorem grantPairs_none_free {p : Nat} (full : s.freePair p = none) (n : Nat) : grantPairs p n s = s := by
  cases n with
  | zero => rfl
  | succ n =>
    rw [grantPairs, full]
    split
    next free => cases free
    next => rfl

theorem grantPairs_none_asks {p : Nat} (none : ∀ y ∈ s.ops, y.partition ≠ p) (n : Nat) : grantPairs p n s = s := by
  have asks : (s.ops.find? fun y => y.partition == p && y.asksPair) = Option.none :=
    List.find?_eq_none.2 fun y mem => by simp [none y mem]
  cases n with
  | zero => rfl
  | succ n => rw [grantPairs, asks]

theorem freePair_full {p : Nat} (full : s.pairs p ≤ s.pairsHeld p) : s.freePair p = none :=
  if_neg (Nat.not_lt.2 full)

theorem givePair_running (waits : o.pair = .waiting) (runs : o.running = true) : givePair s o k =
    issueReads (s.updOp o.q o.c fun _ => { o with pair := .held, slot := k }) { o with pair := .held, slot := k } := by
  unfold givePair
  rw [if_pos (by rw [waits]; rfl), if_pos runs]

/-- The entry that waited for a pair holds it. -/
theorem givePair_holds (mem : o ∈ s.ops) (waits : o.pair = .waiting) : (givePair s o k).Holds o.q o.c k o.desc := by
  have own : o.is o.q o.c = true := (Op.is_iff o _ _).2 ⟨rfl, rfl⟩
  have given : (s.updOp o.q o.c fun _ => { o with pair := .held, slot := k }).Holds o.q o.c k o.desc := by
    refine ⟨⟨_, List.mem_map.2 ⟨o, mem, if_pos own⟩, own⟩, fun r memR is => ?_⟩
    obtain ⟨y, -, rfl⟩ := List.mem_map.1 memR
    split at is
    next named => exact (if_pos named).symm ▸ ⟨rfl, rfl, rfl⟩
    next other => exact absurd is other
  unfold givePair
  rw [if_pos (by rw [waits]; rfl)]
  split
  · exact issueReads_keepsPairs _ _ _ _ _ _ given
  · exact given

theorem State.Holds.op? {q c : Nat} {d : Desc} (h : s.Holds q c k d) : ∃ r, s.op? q c = some r ∧ r.Holds k d := by
  obtain ⟨o, mem, is⟩ := h.started
  obtain ⟨r, found⟩ := Option.isSome_iff_exists.1 (List.find?_isSome (p := fun y : Op => y.is q c).2 ⟨o, mem, is⟩)
  exact ⟨r, found, h.pair r (State.op?_mem found) (List.find?_some (p := fun y : Op => y.is q c) found)⟩

theorem exec_stagingPairGrant (p : Fin 64) (s : State) : exec (.stagingPairGrant p) s = .next (State.plain s
    (((grantPairs p 64 s).ops.filter fun y => y.partition == p.val).foldl (fun t y => stepOp t y.q y.c) (grantPairs p 64 s))) := rfl

/-- 04 R150, R151: the first entry that asks holds the free pair after the grant. -/
theorem exec_stagingPairGrant_holds {p : Fin 64} (found : (s.ops.find? fun y => y.partition == p.val && y.asksPair) = some o)
    (free : s.freePair p = some k) (waits : o.pair = .waiting) (started : s.op? o.q o.c = some o) :
    ∃ t r, exec (.stagingPairGrant p) s = .next t ∧ t.op? o.q o.c = some r ∧ r.pair = .held ∧ r.slot = k ∧ r.desc = o.desc := by
  have granted : (grantPairs p 64 s).Holds o.q o.c k o.desc := by
    rw [grantPairs_first found free]
    exact grantPairs_keepsPairs p 63 _ _ _ _ _ (givePair_holds (State.op?_mem started) waits)
  obtain ⟨r, entry, holds⟩ := State.Holds.op? (State.keepsPairs_foldl (fun t (y : Op) => stepOp_keepsPairs t y.q y.c)
    ((grantPairs p 64 s).ops.filter fun y => y.partition == p.val) _ _ _ _ _ granted)
  exact ⟨_, r, exec_stagingPairGrant p s, entry, holds.held, holds.slot, holds.desc⟩

theorem exec_stagingPairGrant_none {p : Fin 64} (none : ∀ y ∈ s.ops, y.partition ≠ p.val) :
    exec (.stagingPairGrant p) s = .next s := by
  have own : (s.ops.filter fun y => y.partition == p.val) = [] := List.filter_eq_nil_iff.2 fun y mem => by simp [none y mem]
  rw [exec_stagingPairGrant, grantPairs_none_asks none, own]
  rfl

end Sys2Proof.Machine
end
section
/-! PROOFS. The issue of one transfer at a siphon (04 R144, R149; 12 R452, R453, R456): which transfer, its tag and its offer to the
port. -/

namespace Sys2Proof.Machine

theorem State.siphon_setSiphon_other (s : State) {i j : Nat} (x : SiphonSt) (h : j ≠ i) : (s.setSiphon i x).siphon j = s.siphon j :=
  tabGet_tabSet_other _ _ _ h

/-! ### The lowest free tag (12 R456) -/

theorem SiphonSt.freeTag_spec {p : SiphonSt} {tag : Nat} (free : p.freeTag = some tag) :
    tag < 512 ∧ tag ∉ p.busyTags ∧ ∀ j, j < tag → j ∈ p.busyTags := by
  obtain ⟨idle, below⟩ := List.find?_range_eq_some.1 free
  refine ⟨List.mem_range.1 below.1, by simpa using idle, fun j less => ?_⟩
  simpa using below.2 j less

theorem SiphonSt.freeTag_not_out {p : SiphonSt} {tag : Nat} (free : p.freeTag = some tag) : ∀ y ∈ p.out, (y.1 == tag) = false := by
  intro y mem
  rw [beq_eq_false_iff_ne]
  rintro rfl
  exact (SiphonSt.freeTag_spec free).2.1 (List.mem_append_left _ (List.mem_map_of_mem mem))

/-! ### The offer to the port (12 R452, R453) -/

/-- What one handshake of the offered transfer makes of the siphon. -/
def SiphonSt.handshake (p : SiphonSt) (ready : Bool) (now tag : Nat) (x : Xfer) : SiphonSt :=
  if ready then
    { p with shakes := p.shakes + 1, offered := none, req := some (x.request tag)
             out := mapIf (fun y => y.1 == tag) (fun y => (y.1, { y.2 with at_ := now })) p.out }
  else { p with shakes := p.shakes + 1, refusedAt := some (p.shakes + 1) }

theorem offerReq_offered {s : State} {i tag : Nat} {x : Xfer} (offered : (s.siphon i).offered = some tag)
    (found : ((s.siphon i).out.find? fun y => y.1 == tag) = some (tag, x)) :
    offerReq s i = ({ s with fresh := s.fresh + 1 } : State).setSiphon i
      ((s.siphon i).handshake (Config.portReady i s.fresh) s.now tag x) := by
  unfold offerReq SiphonSt.handshake
  simp only [offered, Option.bind_some, found, Nat.add_sub_cancel]
  split <;> rfl

section
variable (p : SiphonSt) (ready : Bool) (now tag : Nat) (x : Xfer)

theorem SiphonSt.handshake_waiting : (p.handshake ready now tag x).waiting = p.waiting := by unfold handshake; split <;> rfl

theorem SiphonSt.handshake_shakes : (p.handshake ready now tag x).shakes = p.shakes + 1 := by unfold handshake; split <;> rfl

theorem SiphonSt.handshake_offered : (p.handshake ready now tag x).offered = if ready then none else p.offered := by
  unfold handshake; split <;> rfl

theorem SiphonSt.handshake_req : (p.handshake ready now tag x).req = if ready then some (x.request tag) else p.req := by
  unfold handshake; split <;> rfl

theorem SiphonSt.handshake_refusedAt :
    (p.handshake ready now tag x).refusedAt = if ready then p.refusedAt else some (p.shakes + 1) := by
  unfold handshake; split <;> rfl

theorem SiphonSt.handshake_tags : (p.handshake ready now tag x).out.map (·.1) = p.out.map (·.1) := by
  unfold handshake
  split
  · simp only [mapIf, List.map_map]
    refine List.map_congr_left fun y _ => ?_
    simp only [Function.comp]
    split <;> rfl
  · rfl

/-- A transfer that is offered at once has its time of issue already. -/
theorem SiphonSt.handshake_out {l : List (Nat × Xfer)} (out : p.out = l ++ [(tag, x)]) (idle : ∀ y ∈ l, (y.1 == tag) = false)
    (stamp : x.at_ = now) : (p.handshake ready now tag x).out = p.out := by
  unfold handshake
  split
  · have old : mapIf (fun y => y.1 == tag) (fun y => (y.1, { y.2 with at_ := now })) l = l :=
      (List.map_congr_left fun y mem => if_neg (by simp [idle y mem])).trans (List.map_id l)
    subst stamp
    simp only [out, mapIf, List.map_append] at old ⊢
    rw [old]
    simp
  · rfl

end

/-! ### What the pools of a siphon depend on (04 R147-R149) -/

/-- The same transfers and request; only credits and turns may differ. -/
structure SiphonSt.SameTransfers (p r : SiphonSt) : Prop where
  waiting : r.waiting = p.waiting
  out : r.out = p.out
  lost : r.lost = p.lost
  req : r.req = p.req
  offered : r.offered = p.offered
  shakes : r.shakes = p.shakes
  refusedAt : r.refusedAt = p.refusedAt

theorem SiphonSt.SameTransfers.refl (p : SiphonSt) : p.SameTransfers p := ⟨rfl, rfl, rfl, rfl, rfl, rfl, rfl⟩

theorem SiphonSt.SameTransfers.trans {p r t : SiphonSt} (h : p.SameTransfers r) (k : r.SameTransfers t) : p.SameTransfers t :=
  ⟨k.waiting.trans h.waiting, k.out.trans h.out, k.lost.trans h.lost, k.req.trans h.req, k.offered.trans h.offered,
    k.shakes.trans h.shakes, k.refusedAt.trans h.refusedAt⟩

theorem SiphonSt.clearCredits_same (p : SiphonSt) (waits : Xfer → Bool) : p.SameTransfers (p.clearCredits waits) :=
  ⟨rfl, rfl, rfl, rfl, rfl, rfl, rfl⟩

theorem SiphonSt.SameTransfers.freeTag {p r : SiphonSt} (h : p.SameTransfers r) : r.freeTag = p.freeTag := by
  unfold SiphonSt.freeTag SiphonSt.busyTags
  rw [h.out, h.lost]

section
variable {s t : State} {i : Nat} (pools : (s.siphon i).SameTransfers (t.siphon i)) (img : t.img = s.img)
include pools img

theorem sharedFree_same : t.sharedFree i = s.sharedFree i := by
  unfold State.sharedFree State.sharedTags State.image
  dsimp only
  rw [pools.out, pools.lost, img]

theorem ownFree_same (q : Nat) : t.ownFree i q = s.ownFree i q := by
  unfold State.ownFree SiphonSt.reservedUsed State.reserve State.image
  rw [pools.out, pools.lost, img]

theorem tagFor_same (x : Xfer) : t.tagFor i x = s.tagFor i x := by
  unfold State.tagFor State.holdsReserve SiphonSt.heldBy
  rw [sharedFree_same pools img, ownFree_same pools img, pools.out, pools.lost]
  unfold State.reserve State.image
  rw [img]

theorem takesReserved_same (x : Xfer) : t.takesReserved i x = s.takesReserved i x := by
  unfold State.takesReserved
  rw [sharedFree_same pools img, ownFree_same pools img]

theorem lenderFor_same (x : Xfer) : t.lenderFor i x = s.lenderFor i x := by
  have own : t.ownFree i = s.ownFree i := funext (ownFree_same pools img)
  unfold State.lenderFor
  rw [sharedFree_same pools img, own]
  unfold State.image
  rw [img]

end

/-! ### The transfer that is chosen (04 R140-R144) -/

/-- The state once the credits of classes without a waiting transfer are cleared. -/
def State.credited (s : State) (i : Nat) : State := s.updSiphon i fun p => p.clearCredits s.awaits

theorem siphon_credited (s : State) (i : Nat) : (s.credited i).siphon i = (s.siphon i).clearCredits s.awaits :=
  State.siphon_setSiphon _ _ _

theorem siphon_credited_same (s : State) (i : Nat) : (s.siphon i).SameTransfers ((s.credited i).siphon i) := by
  rw [siphon_credited]
  exact SiphonSt.clearCredits_same _ _

theorem siphon_credited_other (s : State) {i j : Nat} (h : j ≠ i) : (s.credited i).siphon j = s.siphon j :=
  State.siphon_setSiphon_other s _ h

theorem lookups_unserved {s : State} {i : Nat} (unserved : ∀ y ∈ (s.siphon i).waiting, s.served y = false) (n : Nat) :
    lookups i n s = s := by
  have none : ((s.siphon i).waiting.find? fun x => s.issuable x && s.served x) = Option.none :=
    List.find?_eq_none.2 fun y mem => by simp [unserved y mem]
  cases n with
  | zero => rfl
  | succ n => rw [lookups, none]

section
variable {s : State} {i : Nat} (unserved : ∀ y ∈ (s.siphon i).waiting, s.served y = false)
include unserved

theorem issueOne_offered (offered : ((s.credited i).siphon i).offered.isSome = true) : issueOne s i = offerReq (s.credited i) i := by
  unfold issueOne
  rw [lookups_unserved unserved]
  exact if_pos offered

theorem issueOne_chosen {tag : Nat} {x : Xfer} {p : SiphonSt} (offered : ((s.credited i).siphon i).offered = none)
    (free : ((s.credited i).siphon i).freeTag = some tag) (chosen : chooseXfer (s.credited i) i = some (x, p)) :
    issueOne s i = (issue ((s.credited i).setSiphon i p) i tag x).credited i := by
  unfold State.credited at offered free chosen ⊢
  unfold issueOne
  rw [lookups_unserved unserved]
  simp only [offered, free, chosen]
  rfl

theorem issueOne_none (offered : ((s.credited i).siphon i).offered = none)
    (none : ((s.credited i).siphon i).freeTag = none ∨ chooseXfer (s.credited i) i = none) : issueOne s i = s.credited i := by
  unfold State.credited at offered none ⊢
  unfold issueOne
  rw [lookups_unserved unserved]
  obtain busy | unchosen := none
  · simp only [offered, busy]
    rfl
  · simp only [offered, unchosen, Option.isSome_none, Bool.false_eq_true, if_false]
    split
    next chosen => cases chosen
    next => rfl

end

/-- A transfer of the fault path goes first. -/
theorem chooseXfer_fault {s : State} {i : Nat} {x : Xfer} (unserved : ∀ y ∈ (s.siphon i).waiting, s.served y = false)
    (first : ((s.siphon i).waiting.filter s.issuable).find? (fun y => y.cls == 3) = some x) :
    chooseXfer s i = some (x, s.siphon i) := by
  have same : ((s.siphon i).waiting.filter fun x => s.issuable x && !(s.served x)) = (s.siphon i).waiting.filter s.issuable :=
    List.filter_congr fun y mem => by simp [unserved y mem]
  unfold chooseXfer
  simp only [same, first]

theorem nextTurn_nil (last : Nat) : nextTurn last [] = none := rfl

theorem nextTurn_singleton (last q : Nat) : nextTurn last [q] = some q := by
  by_cases h : last < q <;> simp [nextTurn, sortBy, insertBy, h]

theorem selectClass_nil (im : Image) (p : SiphonSt) : selectClass im p [] = none := by simp [selectClass]

theorem selectClass_singleton (im : Image) (p : SiphonSt) {c : Nat} (h : c < 3) :
    ∃ r, selectClass im p [c] = some (c, r) ∧ p.SameTransfers r := by
  obtain rfl | rfl | rfl : c = 0 ∨ c = 1 ∨ c = 2 := by omega
  all_goals exact ⟨_, rfl, rfl, rfl, rfl, rfl, rfl, rfl, rfl⟩

theorem chooseXfer_empty {s : State} {i : Nat} (empty : (s.siphon i).waiting = []) : chooseXfer s i = none := by
  unfold chooseXfer
  simp [empty, nextTurn_nil, selectClass_nil]

/-- A lone transfer that its pools have a tag for is chosen, through its reservation or through its class. -/
theorem chooseXfer_lone {s : State} {i : Nat} {x : Xfer} (lone : (s.siphon i).waiting = [x]) (cls : x.cls < 3)
    (may : s.issuable x = true) (unserved : s.served x = false) (tag : s.tagFor i x = true) :
    ∃ p, chooseXfer s i = some (x, p) ∧ (s.siphon i).SameTransfers p := by
  have only : ((s.siphon i).waiting.filter fun x => s.issuable x && !(s.served x)) = [x] := by simp [lone, may, unserved]
  have plain : ([x].find? fun x => x.cls == 3) = none := by simp; omega
  have own : ([x].find? fun y => y.queue == x.queue) = some x := by simp
  unfold chooseXfer
  simp only [only, plain]
  by_cases reserved : ((s.siphon i).heldBy x.queue).length < s.reserve x.queue
  · simp only [List.filter, tag, reserved, decide_true, Bool.and_self, List.map, nextTurn_singleton, own]
    exact ⟨_, rfl, rfl, rfl, rfl, rfl, rfl, rfl, rfl⟩
  · obtain ⟨r, class_, same⟩ := selectClass_singleton s.image (s.siphon i) cls
    have one : [x.cls].eraseDups = [x.cls] := rfl
    simp only [List.filter, tag, reserved, decide_false, Bool.and_false, List.map, nextTurn_nil, one, class_, beq_self_eq_true,
      nextTurn_singleton, own]
    refine ⟨_, rfl, same.trans ?_⟩
    split
    · exact ⟨rfl, rfl, rfl, rfl, rfl, rfl, rfl⟩
    · split <;> exact ⟨rfl, rfl, rfl, rfl, rfl, rfl, rfl⟩

end Sys2Proof.Machine
end
section
/-! PROOFS. What the issue of a transfer leaves at its siphon and in the engine (04 R144, R149; 12 R452, R453). -/

namespace Sys2Proof.Machine

/-! ### The state that offers a new transfer -/

/-- The transfer as it is outstanding: with its pool and its time of issue. -/
def State.stamped (s : State) (i : Nat) (x : Xfer) : Xfer :=
  { x with reserved := s.takesReserved i x, lender := s.lenderFor i x, fill := s.cacheable x, at_ := s.now }

/-- `u` is `s` with transfer `x` of siphon `i` on `tag`, offered to the port. -/
structure State.Offers (s u : State) (i tag : Nat) (x : Xfer) : Prop where
  own : u.siphon i = { s.siphon i with waiting := (s.siphon i).waiting.erase x
                                       out := (s.siphon i).out ++ [(tag, s.stamped i x)], offered := some tag }
  others : ∀ j, j ≠ i → u.siphon j = s.siphon j
  frame : u = { s with siphons := u.siphons, ops := u.ops, cache := u.cache }
  quiet : x.pur.entry = none → s.windowed (blockBase x.addr) = false → u.ops = s.ops ∧ u.cache = s.cache

theorem cacheable_windowed {s : State} {x : Xfer} (h : s.cacheable x = true) : s.windowed (blockBase x.addr) = true := by
  unfold State.cacheable at h
  exact (Bool.and_eq_true_iff.1 h).2

theorem noteIssued_form (s : State) (x : Xfer) :
    ∃ ops, noteIssued s x = { s with ops } ∧ (x.pur.entry = none → ops = s.ops) := by
  unfold noteIssued
  split
  next q c _ e => exact ⟨_, rfl, fun none => by simp [e, Purpose.entry] at none⟩
  next q c _ e => exact ⟨_, rfl, fun none => by simp [e, Purpose.entry] at none⟩
  next q c _ e => exact ⟨_, rfl, fun none => by simp [e, Purpose.entry] at none⟩
  next => exact ⟨_, rfl, fun _ => rfl⟩

theorem invalidate_form (s : State) (block : Nat) :
    ∃ cache, invalidate s block = { s with cache } ∧ (s.windowed block = false → cache = s.cache) := by
  unfold invalidate
  split
  next on => exact ⟨_, rfl, fun off => by rw [on] at off; cases off⟩
  next => exact ⟨_, rfl, fun _ => rfl⟩

theorem State.Offers.withCache {s u : State} {i tag : Nat} {x : Xfer} (h : s.Offers u i tag x) {cache : CacheSt}
    (quiet : s.windowed (blockBase x.addr) = false → cache = u.cache) : s.Offers { u with cache } i tag x where
  own := h.own
  others := h.others
  frame := by rw [h.frame]
  quiet alone off := ⟨(h.quiet alone off).1, (quiet off).trans (h.quiet alone off).2⟩

/-- The transfer leaves the waiting ones for its tag; the entry's note of its issue and the cache may change besides. -/
theorem place_offers (s : State) (i tag : Nat) (x : Xfer) {ops : List Op} (quiet : x.pur.entry = none → ops = s.ops) :
    s.Offers ((unwait { s with ops } i x).updSiphon i fun p =>
      { p with out := p.out ++ [(tag, s.stamped i x)], offered := some tag }) i tag x where
  own := by
    rw [State.updSiphon, State.siphon_setSiphon, unwait, State.updSiphon, State.siphon_setSiphon]
    rfl
  others j other := by
    rw [State.updSiphon, State.siphon_setSiphon_other _ _ other, unwait, State.updSiphon, State.siphon_setSiphon_other _ _ other]
    rfl
  frame := rfl
  quiet alone _ := ⟨quiet alone, rfl⟩

theorem issue_offers (s : State) (i tag : Nat) (x : Xfer) : ∃ u, issue s i tag x = offerReq u i ∧ s.Offers u i tag x := by
  obtain ⟨ops, noted, quiet⟩ := noteIssued_form s x
  unfold issue
  rw [noted]
  extract_lets _ fill y placed filled
  have toPlaced : s.Offers placed i tag x := place_offers s i tag x quiet
  have toFilled : s.Offers filled i tag x := by
    unfold filled
    split
    next on =>
      have on : s.windowed (blockBase x.addr) = true := cacheable_windowed (s := s) on
      exact toPlaced.withCache fun off => by rw [on] at off; cases off
    next => exact toPlaced
  have windows : filled.windowed (blockBase x.addr) = s.windowed (blockBase x.addr) := by
    unfold filled
    split <;> rfl
  refine ⟨_, rfl, ?_⟩
  split
  · obtain ⟨cache, invalid, same⟩ := invalidate_form filled (blockBase x.addr)
    rw [invalid]
    exact toFilled.withCache fun off => same (windows.trans off)
  · exact toFilled

/-! ### What one issue leaves -/

/-- `t` is `s` after the issue of transfer `x` of siphon `i` on `tag` and one handshake of its offer. -/
structure State.Issues (s t : State) (i tag : Nat) (x : Xfer) : Prop where
  waiting : (t.siphon i).waiting = (s.siphon i).waiting.erase x
  out : (t.siphon i).out = (s.siphon i).out ++ [(tag, s.stamped i x)]
  fresh : t.fresh = s.fresh + 1
  offered : (t.siphon i).offered = if Config.portReady i s.fresh then none else some tag
  req : (t.siphon i).req = if Config.portReady i s.fresh then some ((s.stamped i x).request tag) else (s.siphon i).req
  refusedAt : (t.siphon i).refusedAt =
    if Config.portReady i s.fresh then (s.siphon i).refusedAt else some (t.siphon i).shakes
  others : ∀ j, j ≠ i → t.siphon j = s.siphon j
  quiet : x.pur.entry = none → s.windowed (blockBase x.addr) = false → t = { s with siphons := t.siphons, fresh := t.fresh }

theorem State.Issues.plain {s t : State} {i tag : Nat} {x : Xfer} (h : s.Issues t i tag x) : s.Issues (State.plain s t) i tag x where
  waiting := h.waiting
  out := h.out
  fresh := h.fresh
  offered := h.offered
  req := h.req
  refusedAt := h.refusedAt
  others := h.others
  quiet alone off := by rw [h.quiet alone off]; rfl

/-- Clearing credits after the issue changes nothing that the port or the transfers see. -/
theorem State.Issues.credited {s t : State} {i tag : Nat} {x : Xfer} (h : s.Issues t i tag x) : s.Issues (t.credited i) i tag x := by
  obtain ⟨waiting, out, lost, req, offered, shakes, refusedAt⟩ := siphon_credited_same t i
  exact {
    waiting := waiting.trans h.waiting
    out := out.trans h.out
    fresh := h.fresh
    offered := offered.trans h.offered
    req := req.trans h.req
    refusedAt := by rw [refusedAt, shakes, h.refusedAt]
    others := fun j other => (siphon_credited_other t other).trans (h.others j other)
    quiet := fun alone off => by rw [State.credited, State.updSiphon, State.setSiphon, h.quiet alone off] }

/-- The same from a state whose siphon differs in credits and turns only. -/
theorem State.Issues.of_same {s t : State} {i tag : Nat} {x : Xfer} {p : SiphonSt} (same : (s.siphon i).SameTransfers p)
    (h : (s.setSiphon i p).Issues t i tag x) : s.Issues t i tag x := by
  have own : (s.setSiphon i p).siphon i = p := State.siphon_setSiphon s i p
  have pools : (s.siphon i).SameTransfers ((s.setSiphon i p).siphon i) := own.symm ▸ same
  have stamped : (s.setSiphon i p).stamped i x = s.stamped i x := by
    unfold State.stamped
    rw [takesReserved_same pools rfl, lenderFor_same pools rfl]
    rfl
  obtain ⟨waiting, out, fresh, offered, req, refusedAt, others, quiet⟩ := h
  rw [own] at waiting out req refusedAt
  rw [stamped] at out req
  exact {
    waiting := waiting.trans (by rw [same.waiting])
    out := out.trans (by rw [same.out])
    fresh := fresh
    offered := offered
    req := req.trans (by rw [same.req]; rfl)
    refusedAt := refusedAt.trans (by rw [same.refusedAt]; rfl)
    others := fun j other => (others j other).trans (State.siphon_setSiphon_other s p other)
    quiet := fun alone off => (quiet alone off).trans rfl }

theorem issue_issues {s : State} {i tag : Nat} (x : Xfer) (free : (s.siphon i).freeTag = some tag) :
    s.Issues (issue s i tag x) i tag x := by
  obtain ⟨u, issued, own, others, frame, quiet⟩ := issue_offers s i tag x
  have idle := SiphonSt.freeTag_not_out free
  have offered : (u.siphon i).offered = some tag := by rw [own]
  have out : (u.siphon i).out = (s.siphon i).out ++ [(tag, s.stamped i x)] := by rw [own]
  have found : ((u.siphon i).out.find? fun y => y.1 == tag) = some (tag, s.stamped i x) := by
    rw [out, List.find?_append, List.find?_eq_none.2 fun y mem => by simp [idle y mem]]
    simp
  have handed := offerReq_offered offered found
  have now : u.now = s.now := by rw [frame]
  have fresh : u.fresh = s.fresh := by rw [frame]
  have shaken : (offerReq u i).siphon i =
      (u.siphon i).handshake (Config.portReady i s.fresh) s.now tag (s.stamped i x) := by
    rw [handed, State.siphon_setSiphon, fresh, now]
  rw [issued]
  exact {
    waiting := by rw [shaken, SiphonSt.handshake_waiting, own]
    out := by rw [shaken]; exact (SiphonSt.handshake_out _ _ _ _ _ out idle rfl).trans out
    fresh := by rw [handed]; exact congrArg (· + 1) fresh
    offered := by rw [shaken, SiphonSt.handshake_offered, offered]
    req := by rw [shaken, SiphonSt.handshake_req, own]
    refusedAt := by rw [shaken, SiphonSt.handshake_refusedAt, SiphonSt.handshake_shakes, own]
    others := fun j other => by rw [handed, State.siphon_setSiphon_other _ _ other]; exact others j other
    quiet := fun alone off => by
      obtain ⟨ops, cache⟩ := quiet alone off
      rw [handed, State.setSiphon, frame, ops, cache] }

end Sys2Proof.Machine
end
section
/-! PROOFS. Staging pairs and tags are given in order (04 R144, R149-R151; 12 R452, R453, R456): the statement of O31. -/

namespace Sys2Proof.Machine

section
variable {i : Fin 8} {s : State} {tag : Nat} {x : Xfer} (unserved : ∀ y ∈ (s.siphon i).waiting, s.served y = false)
include unserved

/-- The transfer that is chosen once the credits are cleared is issued on the lowest free tag. -/
theorem exec_transferIssue_chosen {p : SiphonSt} (offered : (s.siphon i).offered = none) (free : (s.siphon i).freeTag = some tag)
    (chosen : chooseXfer (s.credited i) i = some (x, p)) (turns : ((s.credited i).siphon i).SameTransfers p) :
    ∃ t, exec (.transferIssue i) s = .next t ∧ s.Issues t i tag x := by
  have same := siphon_credited_same s i
  have issued : issueOne s i = (issue ((s.credited i).setSiphon i p) i tag x).credited i :=
    issueOne_chosen unserved (same.offered.trans offered) (same.freeTag.trans free) chosen
  have own : ((s.credited i).setSiphon i p).siphon i = p := State.siphon_setSiphon _ _ _
  have free' : (((s.credited i).setSiphon i p).siphon i).freeTag = some tag := by
    rw [own, turns.freeTag, same.freeTag, free]
  refine ⟨State.plain s (issueOne s i), rfl, ?_⟩
  rw [issued]
  have cleared := SiphonSt.clearCredits_same (s.siphon i) s.awaits
  exact (State.Issues.of_same cleared (State.Issues.of_same turns (issue_issues x free')).credited).plain

theorem exec_transferIssue_fault (offered : (s.siphon i).offered = none) (free : (s.siphon i).freeTag = some tag)
    (first : ((s.siphon i).waiting.filter s.issuable).find? (fun y => y.cls == 3) = some x) :
    ∃ t, exec (.transferIssue i) s = .next t ∧ s.Issues t i tag x := by
  have waiting := (siphon_credited_same s i).waiting
  refine exec_transferIssue_chosen unserved offered free (chooseXfer_fault ?_ ?_) (.refl _)
  · rw [waiting]
    exact unserved
  · rw [waiting]
    exact first

theorem exec_transferIssue_lone (offered : (s.siphon i).offered = none) (free : (s.siphon i).freeTag = some tag)
    (lone : (s.siphon i).waiting = [x]) (cls : x.cls < 3) (may : s.issuable x = true) (pool : s.tagFor i x = true) :
    ∃ t, exec (.transferIssue i) s = .next t ∧ s.Issues t i tag x := by
  have same := siphon_credited_same s i
  have pool' : (s.credited i).tagFor i x = true := (tagFor_same same rfl x).trans pool
  have unserved' : (s.credited i).served x = false := unserved x (by rw [lone]; exact List.mem_singleton_self x)
  obtain ⟨p, chosen, turns⟩ := chooseXfer_lone (same.waiting.trans lone) cls may unserved' pool'
  exact exec_transferIssue_chosen unserved offered free chosen turns

/-- A transfer that the port has not taken is offered once more, and nothing else is issued. -/
theorem exec_transferIssue_offered (offered : (s.siphon i).offered = some tag)
    (found : (s.siphon i).out.find? (fun y => y.1 == tag) = some (tag, x)) :
    exec (.transferIssue i) s = .next (({ s.credited i with fresh := s.fresh + 1 } : State).setSiphon i
      (((s.siphon i).clearCredits s.awaits).handshake (Config.portReady i s.fresh) s.now tag x)) := by
  have same := siphon_credited_same s i
  have offered' := same.offered.trans offered
  have found' : ((s.credited i).siphon i).out.find? (fun y => y.1 == tag) = some (tag, x) := by rw [same.out, found]
  have again : issueOne s i = offerReq (s.credited i) i := issueOne_offered unserved (by rw [offered']; rfl)
  have step : exec (.transferIssue i) s = .next (State.plain s (issueOne s i)) := rfl
  rw [step, again, offerReq_offered offered' found', siphon_credited]
  rfl

theorem exec_transferIssue_none (offered : (s.siphon i).offered = none)
    (none : (s.siphon i).freeTag = none ∨ (s.siphon i).waiting = []) :
    exec (.transferIssue i) s = .next (s.updSiphon i fun p => p.clearCredits s.awaits) := by
  have same := siphon_credited_same s i
  have idle : issueOne s i = s.credited i := issueOne_none unserved (same.offered.trans offered) <|
    none.imp same.freeTag.trans fun empty => chooseXfer_empty (same.waiting.trans empty)
  have step : exec (.transferIssue i) s = .next (State.plain s (issueOne s i)) := rfl
  rw [step, idle]
  rfl

end

/-- Settles O31. A pair that is given stays with its entry through the rest of the grant, since every step of an entry's progress keeps
pairs (`State.KeepsPairs`); an issue changes just its siphon, the draw, the entry's note of it and the cache (`State.Issues`). -/
theorem pairsAndTagsAreGivenInOrder : Obligations.PairsAndTagsAreGivenInOrder := by
  unfold Obligations.PairsAndTagsAreGivenInOrder
  refine ⟨fun p s o k => ⟨fun found free => ⟨grantPairs_first found free 0, exec_stagingPairGrant_holds found free⟩,
    givePair_running, grantPairs_none_free, freePair_full, exec_stagingPairGrant p s, exec_stagingPairGrant_none⟩, ?_⟩
  intro i s x tag unserved
  refine ⟨?_, ?_, SiphonSt.freeTag_spec, exec_transferIssue_none unserved⟩
  · rintro y rfl offered free
    refine ⟨fun first => ?_, fun lone cls may pool => ?_⟩
    · obtain ⟨t, next, issued⟩ := exec_transferIssue_fault unserved offered free first
      exact ⟨t, next, issued.waiting, issued.out, issued.fresh, issued.offered, issued.req, issued.refusedAt, issued.others,
        issued.quiet⟩
    · obtain ⟨t, next, issued⟩ := exec_transferIssue_lone unserved offered free lone cls may pool
      have waiting : (t.siphon i).waiting = [] := by rw [issued.waiting, lone, List.erase_cons_head]
      exact ⟨t, next, waiting, issued.out, issued.fresh, issued.offered, issued.req, issued.others⟩
  · intro offered found
    refine ⟨_, exec_transferIssue_offered unserved offered found, ?_⟩
    rw [State.siphon_setSiphon]
    exact ⟨SiphonSt.handshake_waiting _ _ _ _ _, SiphonSt.handshake_tags _ _ _ _ _, SiphonSt.handshake_shakes _ _ _ _ _,
      (SiphonSt.handshake_offered _ _ _ _ _).trans (by rw [← offered]; rfl), SiphonSt.handshake_req _ _ _ _ _, rfl,
      fun j other => (State.siphon_setSiphon_other _ _ other).trans (siphon_credited_other s other)⟩

end Sys2Proof.Machine
end
section
/-! PROOFS. What comes for a group (05 R209, R212; 08 R322; 12 R462): what taking a message in, and the restart of the group's step
timer, leave; and what of the state decides whether and where the message has its effect, which they do not touch. -/

namespace Sys2Proof.Machine

/-- Something of group `g` has come: of the units this concerns the messages and the link ports alone, of the groups the step timer of `g`,
and of the sync unit its quiescence. -/
structure State.Stirred (s t : State) (g : Nat) : Prop where
  rest : ∃ groups links net quietSince, t = { s with groups, links, net, sync := { s.sync with quietSince } }
  own : ∃ at_, t.group g = { s.group g with timerAt := at_ }
  others : ∀ h, h ≠ g → t.group h = s.group h

theorem State.Stirred.refl (s : State) (g : Nat) : s.Stirred s g := ⟨⟨_, _, _, _, rfl⟩, ⟨_, rfl⟩, fun _ _ => rfl⟩

theorem State.Stirred.trans {s t u : State} {g : Nat} (h : s.Stirred t g) (k : t.Stirred u g) : s.Stirred u g where
  rest := by
    obtain ⟨_, _, _, _, rfl⟩ := h.rest
    obtain ⟨_, _, _, _, rfl⟩ := k.rest
    exact ⟨_, _, _, _, rfl⟩
  own := by
    obtain ⟨_, first⟩ := h.own
    obtain ⟨at_, second⟩ := k.own
    exact ⟨at_, by rw [second, first]⟩
  others := fun _ other => (k.others _ other).trans (h.others _ other)

theorem State.stirred_ite {c : Prop} [Decidable c] {s t u : State} {g : Nat} (yes : s.Stirred t g) (no : s.Stirred u g) :
    s.Stirred (if c then t else u) g := by
  split
  · exact yes
  · exact no

/-- Units that the effect of a message depends on through no more than its transport. -/
theorem State.stirred_units (s : State) (g : Nat) (links : Tab LinkSt) (net : NetSt) (quietSince : Option Nat) :
    s.Stirred { s with links, net, sync := { s.sync with quietSince } } g :=
  ⟨⟨_, _, _, _, rfl⟩, ⟨_, rfl⟩, fun _ _ => rfl⟩

/-! ### What stirs a group -/

theorem refreshTimer_stirred (s : State) (g : Nat) : s.Stirred (refreshTimer s g) g := by
  obtain ⟨at_, timed⟩ := refreshTimer_form s g
  rw [timed]
  exact ⟨⟨_, _, _, _, rfl⟩, ⟨at_, State.group_updGroup_same s g _⟩, fun _ other => State.group_updGroup_other s _ other⟩

theorem restartTimer_stirred (s : State) (g : Nat) : s.Stirred (restartTimer s g) g := by
  refine ⟨⟨_, _, _, _, rfl⟩, ?_, fun _ other => State.group_updGroup_other s _ other⟩
  rw [restartTimer, State.group_updGroup_same]
  split <;> exact ⟨_, rfl⟩

theorem groupStirs_stirred (s : State) (g : Nat) : s.Stirred (groupStirs s g) g :=
  (s.stirred_units g s.links s.net none).trans (restartTimer_stirred _ g)

theorem noteArrival_stirred (s : State) (src : Nat) {b : Body} {g : Nat} (named : groupOf b = some g) :
    s.Stirred (noteArrival s src b) g := by
  unfold noteArrival
  rw [named]
  exact State.stirred_ite (restartTimer_stirred s g) (.refl s g)

theorem takeIn_form (s : State) (src : Nat) {b : Body} {g : Nat} (named : groupOf b = some g) : ∃ links net,
    takeIn s src b = noteArrival { s with links, net, sync := { s.sync with quietSince := none } } src b := by
  unfold takeIn
  extract_lets credited
  have kept : ∃ links, credited = { s with links } := by
    unfold credited
    split
    · exact giveCredit_form _ _ _ _
    · exact ⟨s.links, rfl⟩
  clear_value credited
  obtain ⟨links, rfl⟩ := kept
  refine ⟨links, { s.net with inbox := s.net.inbox.eraseP fun x => x.msg.carries src b }, ?_⟩
  rw [if_pos (by rw [named]; rfl)]

/-- 12 R462; 05 R212: a message of a group is taken in. -/
theorem takeIn_stirred (s : State) (src : Nat) {b : Body} {g : Nat} (named : groupOf b = some g) : s.Stirred (takeIn s src b) g := by
  obtain ⟨links, net, taken⟩ := takeIn_form s src named
  rw [taken]
  exact (s.stirred_units g links net none).trans (noteArrival_stirred _ src named)

/-! ### What stays -/

/-- The ring of a group is read off the member table and the image. -/
theorem State.SameTable.ringAt {s t : State} (h : s.SameTable t) (g k : Nat) (fwd : Bool) : t.ringAt g k fwd = s.ringAt g k fwd := by
  have counts : t.counts g = s.counts g := by simp only [State.counts, h.gr]
  have ownPos : t.ownPos g = s.ownPos g := by simp only [State.ownPos, State.ownSlot, h.gr, h.slots, h.me]
  have position : t.position g = s.position g := by
    funext q
    simp only [State.position, State.entryAt, counts, ownPos, h.gr, h.slots, h.ownEntry, State.image, h.img]
  have positions : t.positions g = s.positions g := by rw [State.positions, State.positions, counts]
  have ring : t.ring g = s.ring g := by
    unfold State.ring
    rw [positions, counts, position, h.gr]
  rw [State.ringAt, State.ringAt, ring, h.me]

section
variable {s t : State} {g : Nat} (h : s.Stirred t g)
include h

/-- A fact of a group that does not speak of its step timer. -/
theorem State.Stirred.keeps {β : Type} (p : GroupSt → β) (free : ∀ x at_, p { x with timerAt := at_ } = p x) (k : Nat) :
    p (t.group k) = p (s.group k) := by
  by_cases e : k = g
  · obtain ⟨at_, own⟩ := h.own
    rw [e, own, free]
  · rw [h.others k e]

theorem State.Stirred.ops : t.ops = s.ops := by obtain ⟨_, _, _, _, rfl⟩ := h.rest; rfl

theorem State.Stirred.op? (q c : Nat) : t.op? q c = s.op? q c := by rw [State.op?, State.op?, h.ops]

theorem State.Stirred.queues : t.queues = s.queues := by obtain ⟨_, _, _, _, rfl⟩ := h.rest; rfl

theorem State.Stirred.integ : t.integ = s.integ := by obtain ⟨_, _, _, _, rfl⟩ := h.rest; rfl

theorem State.Stirred.members : t.members = s.members := by obtain ⟨_, _, _, _, rfl⟩ := h.rest; rfl

theorem State.Stirred.now : t.now = s.now := by obtain ⟨_, _, _, _, rfl⟩ := h.rest; rfl

theorem State.Stirred.me : t.me = s.me := by obtain ⟨_, _, _, _, rfl⟩ := h.rest; rfl

theorem State.Stirred.plain : State.plain s t = t := by obtain ⟨_, _, _, _, rfl⟩ := h.rest; rfl

theorem State.Stirred.mayTrade : t.mayTrade = s.mayTrade := by obtain ⟨_, _, _, _, rfl⟩ := h.rest; rfl

theorem State.Stirred.withdrawn : t.warden.withdrawn = s.warden.withdrawn := by obtain ⟨_, _, _, _, rfl⟩ := h.rest; rfl

theorem State.Stirred.idFail : t.keeper.idFail = s.keeper.idFail := by obtain ⟨_, _, _, _, rfl⟩ := h.rest; rfl

theorem State.Stirred.numCtx (d : Desc) : t.numCtx d = s.numCtx d := by obtain ⟨_, _, _, _, rfl⟩ := h.rest; rfl

theorem State.Stirred.parcelPV (o : Op) (p : Parcel) : t.parcelPV o p = s.parcelPV o p := by
  obtain ⟨_, _, _, _, rfl⟩ := h.rest; rfl

theorem State.Stirred.gr (k : Nat) : t.gr k = s.gr k := h.keeps GroupSt.gr (fun _ _ => rfl) k

theorem State.Stirred.resumeDue (owed : ∀ k, (s.group k).resumeDue = false) (k : Nat) : (t.group k).resumeDue = false :=
  (h.keeps GroupSt.resumeDue (fun _ _ => rfl) k).trans (owed k)

theorem State.Stirred.sameTable : s.SameTable t :=
  ⟨h.members, by obtain ⟨_, _, _, _, rfl⟩ := h.rest; rfl, h.me, h.gr⟩

theorem State.Stirred.mayTradeIn (k : Nat) : t.mayTradeIn k = s.mayTradeIn k := by
  rw [State.mayTradeIn, State.mayTradeIn, h.mayTrade, h.sameTable.ownEntry]

theorem State.Stirred.mayWeir (k : Nat) : t.mayWeir k = s.mayWeir k := by
  rw [State.mayWeir, State.mayWeir, h.mayTradeIn, State.ownAdmit, State.ownAdmit, h.sameTable.ownEntry, h.idFail, h.withdrawn]

theorem State.Stirred.isPeer (k st die : Nat) : t.isPeer k st die = s.isPeer k st die := by
  rw [State.isPeer, State.isPeer, h.me, h.sameTable.slots]

theorem State.Stirred.opNum (k num : Nat) : t.opNum k num = s.opNum k num := by
  simp only [State.opNum, State.started, h.ops, h.keeps GroupSt.step fun _ _ => rfl, h.keeps GroupSt.run fun _ _ => rfl]

/-- 10 R378: where a parcel belongs. -/
theorem State.Stirred.place (hdr : PHdr) : t.place hdr = s.place hdr := by
  simp only [State.place, h.opNum, h.numCtx, h.keeps GroupSt.halted fun _ _ => rfl, h.keeps GroupSt.run fun _ _ => rfl,
    h.keeps GroupSt.step fun _ _ => rfl, h.keeps GroupSt.marking fun _ _ => rfl, h.keeps GroupSt.entryNo fun _ _ => rfl,
    h.keeps (GroupSt.isNext · _) fun _ _ => rfl]

end

end Sys2Proof.Machine
end
section
/-! PROOFS. What comes early is kept, and what comes late is dropped (05 R209; 10 R376-R379, R388, R394, R397; 02 R92). -/

namespace Sys2Proof.Machine

/-! ### The commands -/

theorem exec_token {t : Token} (wf : t.wf = true) (s : State) :
    exec (.token t) s = .next (State.plain s (raiseDue (recvToken (takeIn s t.src (.token t)) t))) := by
  show checked _ _ (finishPlain s _) = _
  rw [wf, checked_true, finishPlain_eq]

theorem exec_parcel {s : State} {p : Parcel} (wf : p.wf = true) (room : s.noRoom p = false) :
    exec (.parcel p) s = .next (State.plain s (raiseDue (recvParcel (takeIn s p.src (.parcel p)) p))) := by
  show checked _ _ (finishPlain s (if s.noRoom p then _ else _)) = _
  rw [wf, checked_true, finishPlain_eq, room]
  rfl

theorem exec_answer {a : AnswerMsg} (wf : a.wf = true) (s : State) :
    exec (.answer a) s = .next (State.plain s (recvAnswer (takeIn s a.src (.answer a)) a)) := by
  show checked _ _ (finishPlain s _) = _
  rw [wf, checked_true, finishPlain_eq]

theorem exec_levelMark {l : LevelMsg} (wf : l.wf = true) (s : State) :
    exec (.levelMark l) s = .next (State.plain s (recvLevel (takeIn s l.src (.level l)) l)) := by
  show checked _ _ (finishPlain s _) = _
  rw [wf, checked_true, finishPlain_eq]

theorem exec_recallMsg {r : RecallMsg} (wf : r.wf = true) (s : State) :
    exec (.recallMsg r) s = .next (State.plain s (raiseDue (recvRecall (takeIn s r.src (.recall r)) r))) := by
  show checked _ _ (finishPlain s _) = _
  rw [wf, checked_true, finishPlain_eq]

/-- A message whose effect is left undone is taken in, and that is all. -/
theorem State.Stirred.undone {s t : State} {g : Nat} (h : s.Stirred t g) (owed : ∀ k, (s.group k).resumeDue = false) :
    State.plain s (raiseDue t) = t := by rw [raiseDue_of_none (h.resumeDue owed), h.plain]

/-- A group's note of a message between two moments at which its timer is set. -/
theorem State.Stirred.around {s t u : State} {g : Nat} {f : GroupSt → GroupSt} (h : s.Stirred t g)
    (k : (t.updGroup g f).Stirred u g) : State.plain s u = u ∧ u.ops = s.ops ∧ u.queues = s.queues ∧
      ∀ j, j ≠ g → u.group j = s.group j := by
  refine ⟨?_, k.ops.trans h.ops, k.queues.trans h.queues, fun j other =>
    (k.others j other).trans ((State.group_updGroup_other t f other).trans (h.others j other))⟩
  obtain ⟨_, _, _, _, rfl⟩ := h.rest
  obtain ⟨_, _, _, _, rfl⟩ := k.rest
  rfl

/-! ### Tokens (05 R209; 02 R92) -/

theorem recvToken_drops {s : State} {t : Token} (h : (s.gr t.c.group).valid = false ∨ s.mayWeir t.c.group = false ∨
    s.isPeer t.c.group t.c.stage t.src = false ∨ (s.mayTradeIn t.c.group = false ∧ t.opcode ≠ 0x0E)) : recvToken s t = s := by
  have group : (s.group t.c.group).gr = s.gr t.c.group := rfl
  refine if_pos ?_
  rw [group]
  rcases h with invalid | outside | stranger | ⟨absent, opcode⟩
  · simp [invalid]
  · simp [outside]
  · simp [stranger]
  · simp [absent, opMark, opcode]

theorem exec_token_dropped {s : State} {t : Token} (owed : ∀ g, (s.group g).resumeDue = false) (wf : t.wf = true)
    (h : (s.gr t.c.group).valid = false ∨ s.mayWeir t.c.group = false ∨ s.isPeer t.c.group t.c.stage t.src = false ∨
      (s.mayTradeIn t.c.group = false ∧ t.opcode ≠ 0x0E)) : exec (.token t) s = .next (takeIn s t.src (.token t)) := by
  have taken := takeIn_stirred s t.src (b := .token t) rfl
  rw [← taken.gr, ← taken.mayWeir, ← taken.isPeer, ← taken.mayTradeIn] at h
  rw [exec_token wf, recvToken_drops h, taken.undone owed]

/-- A group that no weir runs for is not advanced. -/
theorem markStep_unmarked {s : State} {g : Nat} (unmarked : (s.group g).marking = none) : markStep s g = s := by
  unfold markStep
  rw [unmarked]

theorem GroupSt.isNext_of_step {x : GroupSt} {c : Common} (run : c.run = 0) (step : c.step = (x.step + 1) % 2 ^ 32) :
    x.isNext c = true := by simp [GroupSt.isNext, wrap32, run, step]

theorem GroupSt.isNow_of_next_step {x : GroupSt} {c : Common} (step : c.step = (x.step + 1) % 2 ^ 32) : x.isNow c = false := by
  have later : (x.step + 1) % 2 ^ 32 ≠ x.step := by omega
  rw [GroupSt.isNow, step, beq_eq_false_iff_ne.2 later, Bool.false_and]

/-- What a token of a peer does in a group that runs, here under full traffic and with no weir running for the group. -/
structure State.TakesToken (s : State) (t : Token) : Prop where
  valid : (s.gr t.c.group).valid = true
  trades : s.mayTradeIn t.c.group = true
  peer : s.isPeer t.c.group t.c.stage t.src = true
  opcode : t.opcode ≠ 0x0E
  runs : (s.group t.c.group).halted = false
  unmarked : (s.group t.c.group).marking = none

theorem State.TakesToken.stirred {s u : State} {t : Token} {g : Nat} (h : s.TakesToken t) (k : s.Stirred u g) : u.TakesToken t :=
  ⟨by rw [k.gr]; exact h.valid, by rw [k.mayTradeIn]; exact h.trades, by rw [k.isPeer]; exact h.peer, h.opcode,
    (k.keeps GroupSt.halted (fun _ _ => rfl) _).trans h.runs, (k.keeps GroupSt.marking (fun _ _ => rfl) _).trans h.unmarked⟩

/-- A token joins those of its group. -/
theorem keepToken_group {β : Type} (p : GroupSt → β) (free : ∀ x toks, p { x with toks } = p x) (s : State) (t : Token) (g : Nat) :
    p ((keepToken s t).group g) = p (s.group g) := State.group_updGroup_keeps (free _ _) g

/-- The state in which a token has been kept. -/
def tokenKept (s : State) (t : Token) : State := groupStirs (keepToken s t) t.c.group

theorem tokenKept_stirred (s : State) (t : Token) : (keepToken s t).Stirred (tokenKept s t) t.c.group := groupStirs_stirred _ _

theorem tokenKept_group {β : Type} (p : GroupSt → β) (timed : ∀ x at_, p { x with timerAt := at_ } = p x)
    (free : ∀ x toks, p { x with toks } = p x) (s : State) (t : Token) (g : Nat) :
    p ((tokenKept s t).group g) = p (s.group g) :=
  ((tokenKept_stirred s t).keeps p timed g).trans (keepToken_group p free s t g)

theorem tokenKept_toks (s : State) (t : Token) :
    ((tokenKept s t).group t.c.group).toks = (s.group t.c.group).toks ++ [(s.now, t)] :=
  ((tokenKept_stirred s t).keeps GroupSt.toks (fun _ _ => rfl) _).trans (by rw [keepToken, State.group_updGroup_same])

section
variable {s : State} {t : Token} (h : s.TakesToken t)
include h

theorem recvToken_next (notNow : (s.group t.c.group).isNow t.c = false) (next : (s.group t.c.group).isNext t.c = true) :
    recvToken s t = tokenKept s t := by
  have unmarked : ((tokenKept s t).group t.c.group).marking = none :=
    (tokenKept_group GroupSt.marking (fun _ _ => rfl) (fun _ _ => rfl) s t _).trans h.unmarked
  have waits := markStep_unmarked unmarked
  have valid : (s.group t.c.group).gr.valid = true := h.valid
  unfold recvToken
  simp [valid, h.trades, State.mayWeir, h.peer, State.admitTok, opMark, h.opcode, h.runs, notNow, next]
  exact waits

theorem recvToken_now (now : (s.group t.c.group).isNow t.c = true) :
    recvToken s t = markStep (useToken (tokenKept s t) t) t.c.group := by
  have valid : (s.group t.c.group).gr.valid = true := h.valid
  unfold recvToken
  simp [valid, h.trades, State.mayWeir, h.peer, State.admitTok, opMark, h.opcode, h.runs, now]
  rfl

end

theorem exec_token_next {s : State} {t : Token} (owed : ∀ g, (s.group g).resumeDue = false) (wf : t.wf = true)
    (h : s.TakesToken t) (run : t.c.run = 0) (step : t.c.step = ((s.group t.c.group).step + 1) % 2 ^ 32) :
    ∃ u, exec (.token t) s = .next u ∧ (u.group t.c.group).toks = (s.group t.c.group).toks ++ [(s.now, t)] ∧ u.ops = s.ops ∧
      u.queues = s.queues ∧ ∀ h, h ≠ t.c.group → u.group h = s.group h := by
  have taken := takeIn_stirred s t.src (b := .token t) rfl
  rw [← taken.keeps GroupSt.step fun _ _ => rfl] at step
  have kept := recvToken_next (h.stirred taken) (GroupSt.isNow_of_next_step step) (GroupSt.isNext_of_step run step)
  obtain ⟨plain, ops, queues, others⟩ := taken.around (tokenKept_stirred _ t)
  have due : ∀ g, ((tokenKept (takeIn s t.src (.token t)) t).group g).resumeDue = false := fun g =>
    (tokenKept_group GroupSt.resumeDue (fun _ _ => rfl) (fun _ _ => rfl) _ t g).trans (taken.resumeDue owed g)
  refine ⟨_, by rw [exec_token wf, kept, raiseDue_of_none due, plain], ?_, ops, queues, others⟩
  rw [tokenKept_toks, taken.keeps GroupSt.toks fun _ _ => rfl, taken.now]

/-! ### Parcels (10 R376-R379) -/

/-- A parcel that no started entry takes is never held back. -/
theorem noRoom_of_place {s : State} {p : Parcel} (h : ∀ o, s.place p.h ≠ .entry o) : s.noRoom p = false := by
  unfold State.noRoom
  split
  next o found => exact absurd found (h o)
  next => simp

theorem recvParcel_drops {s : State} {p : Parcel} (kind : p.h.kind ≤ 6) (valid : (s.gr p.h.group).valid = true)
    (h : s.mayTradeIn p.h.group = false ∨ s.place p.h = .ended) : recvParcel s p = s := by
  unfold recvParcel
  rw [if_neg (by simp [valid, kind])]
  rcases h with absent | ended
  · simp [absent]
  · simp [ended]

theorem recvParcel_early {s : State} {p : Parcel} (kind : p.h.kind ≤ 6) (valid : (s.gr p.h.group).valid = true)
    (trades : s.mayTradeIn p.h.group = true) (early : s.place p.h = .early) :
    recvParcel s p = groupStirs (s.updGroup p.h.group fun x => { x with early := x.early ++ [p] }) p.h.group := by
  unfold recvParcel
  rw [if_neg (by simp [valid, kind]), if_neg (by simp [trades]), early]

theorem recvParcel_invalid {s : State} {p : Parcel} (invalid : (s.gr p.h.group).valid = false) : recvParcel s p = countCrc s :=
  if_pos (by simp [invalid])

theorem exec_parcel_early {s : State} {p : Parcel} (owed : ∀ g, (s.group g).resumeDue = false) (wf : p.wf = true)
    (kind : p.h.kind ≤ 6) (valid : (s.gr p.h.group).valid = true) (trades : s.mayTradeIn p.h.group = true)
    (early : s.place p.h = .early) : ∃ u, exec (.parcel p) s = .next u ∧
      (u.group p.h.group).early = (s.group p.h.group).early ++ [p] ∧ u.ops = s.ops := by
  have taken := takeIn_stirred s p.src (b := .parcel p) rfl
  have kept := recvParcel_early (s := takeIn s p.src (.parcel p)) kind (by rw [taken.gr, valid]) (by rw [taken.mayTradeIn, trades])
    (by rw [taken.place, early])
  have stirred := groupStirs_stirred
    ((takeIn s p.src (.parcel p)).updGroup p.h.group fun x => { x with early := x.early ++ [p] }) p.h.group
  obtain ⟨plain, ops, -, -⟩ := taken.around stirred
  have due := stirred.resumeDue fun g =>
    (State.group_updGroup_keeps (p := GroupSt.resumeDue) rfl g).trans (taken.resumeDue owed g)
  refine ⟨_, by rw [exec_parcel wf (noRoom_of_place (by simp [early])), kept, raiseDue_of_none due, plain], ?_, ops⟩
  rw [stirred.keeps GroupSt.early fun _ _ => rfl, State.group_updGroup_same, taken.keeps GroupSt.early fun _ _ => rfl]

theorem exec_parcel_dropped {s : State} {p : Parcel} (owed : ∀ g, (s.group g).resumeDue = false) (wf : p.wf = true)
    (kind : p.h.kind ≤ 6) (valid : (s.gr p.h.group).valid = true) (h : s.mayTradeIn p.h.group = false ∨ s.place p.h = .ended) :
    exec (.parcel p) s = .next (takeIn s p.src (.parcel p)) := by
  have taken := takeIn_stirred s p.src (b := .parcel p) rfl
  have room : s.noRoom p = false := by
    rcases h with absent | ended
    · simp [State.noRoom, absent]
    · exact noRoom_of_place (by simp [ended])
  rw [← taken.mayTradeIn, ← taken.place] at h
  rw [exec_parcel wf room, recvParcel_drops kind (by rw [taken.gr, valid]) h, taken.undone owed]

theorem exec_parcel_invalid {s : State} {p : Parcel} (owed : ∀ g, (s.group g).resumeDue = false) (wf : p.wf = true)
    (invalid : (s.gr p.h.group).valid = false) : exec (.parcel p) s = .next { takeIn s p.src (.parcel p) with
      integ := { s.integ with crcSeen := true, crcErrors := (s.integ.crcErrors + 1) % 2 ^ 64 } } := by
  have taken := takeIn_stirred s p.src (b := .parcel p) rfl
  have room : s.noRoom p = false := by simp [State.noRoom, invalid]
  have due : ∀ g, ((countCrc (takeIn s p.src (.parcel p))).group g).resumeDue = false := taken.resumeDue owed
  have plain : State.plain s (countCrc (takeIn s p.src (.parcel p))) = countCrc (takeIn s p.src (.parcel p)) :=
    congrArg countCrc taken.plain
  rw [exec_parcel wf room, recvParcel_invalid (by rw [taken.gr, invalid]), raiseDue_of_none due, plain, countCrc, State.updInteg,
    taken.integ]

/-! ### Answers and recalls (10 R388, R397) -/

theorem recvAnswer_drops {s : State} {a : AnswerMsg} (unknown : s.opNum a.c.group a.c.entry = none) : recvAnswer s a = s := by
  simp only [recvAnswer, unknown]

theorem exec_answer_dropped {s : State} {a : AnswerMsg} (wf : a.wf = true) (unknown : s.opNum a.c.group a.c.entry = none) :
    exec (.answer a) s = .next (takeIn s a.src (.answer a)) := by
  have taken := takeIn_stirred s a.src (b := .answer a) rfl
  rw [exec_answer wf, recvAnswer_drops (by rw [taken.opNum, unknown]), taken.plain]

theorem recvRecall_drops {s : State} {r : RecallMsg} (h : (s.gr r.c.group).valid = false ∨ s.mayTradeIn r.c.group = false ∨
    (s.group r.c.group).hasEnded r.c.step r.c.run = true) : recvRecall s r = s := by
  have group : (s.group r.c.group).gr = s.gr r.c.group := rfl
  refine if_pos ?_
  rw [group]
  rcases h with invalid | absent | ended
  · simp [invalid]
  · simp [absent]
  · simp [ended]

theorem exec_recallMsg_dropped {s : State} {r : RecallMsg} (owed : ∀ g, (s.group g).resumeDue = false) (wf : r.wf = true)
    (h : (s.gr r.c.group).valid = false ∨ s.mayTradeIn r.c.group = false ∨
      (s.group r.c.group).hasEnded r.c.step r.c.run = true) : exec (.recallMsg r) s = .next (takeIn s r.src (.recall r)) := by
  have taken := takeIn_stirred s r.src (b := .recall r) rfl
  rw [← taken.gr, ← taken.mayTradeIn, ← taken.keeps (GroupSt.hasEnded · _ _) fun _ _ => rfl] at h
  rw [exec_recallMsg wf, recvRecall_drops h, taken.undone owed]

/-! ### Level marks (10 R394) -/

/-- The state in which a level mark of its group waits. -/
def keepMark (s : State) (l : LevelMsg) : State := s.updGroup l.c.group fun x => { x with earlyMarks := x.earlyMarks ++ [l] }

section
variable {s : State} {l : LevelMsg} (valid : (s.gr l.c.group).valid = true) (trades : s.mayTradeIn l.c.group = true)
  (next : (s.group l.c.group).isNext l.c = true)
include valid trades next

theorem recvLevel_follows (waits : (s.group l.c.group).marking ≠ none ∨ (s.group l.c.group).halted = true) :
    recvLevel s l = groupStirs (keepMark s l) l.c.group := by
  have valid' : (s.group l.c.group).gr.valid = true := valid
  unfold recvLevel
  rw [if_neg (by simp [valid', trades])]
  refine if_pos ?_
  rcases waits with marking | halted
  · simp [next, Option.isSome_iff_ne_none.2 marking]
  · simp [next, halted]

/-- A level mark that no started and no unsettled entry may take. -/
theorem recvLevel_unclaimed (unmarked : (s.group l.c.group).marking = none) (runs : (s.group l.c.group).halted = false)
    (unknown : s.opNum l.c.group l.c.entry = none) (settled : ∀ e ∈ (s.group l.c.group).openEntries, e.num ≠ l.c.entry) :
    recvLevel s l = refreshTimer (keepMark (groupStirs s l.c.group) l) l.c.group := by
  have valid' : (s.group l.c.group).gr.valid = true := valid
  have stirred := groupStirs_stirred s l.c.group
  have unknown' := (stirred.opNum l.c.group l.c.entry).trans unknown
  have none_open : ((s.group l.c.group).openEntries.any fun e =>
      e.num == l.c.entry && (s.group l.c.group).marksFor e.upd l.c) = false := by
    rw [List.any_eq_false]
    intro e mem
    simp [settled e mem]
  unfold recvLevel
  rw [if_neg (by simp [valid', trades]), if_neg (by simp [unmarked, runs]), if_neg (by simp [runs, next])]
  simp only [unknown', Option.filter_none, none_open, next, Bool.or_true, if_true, Bool.false_eq_true, if_false]
  rfl

end

theorem exec_levelMark_kept {s : State} {l : LevelMsg} (wf : l.wf = true) (valid : (s.gr l.c.group).valid = true)
    (trades : s.mayTradeIn l.c.group = true) (run : l.c.run = 0) (step : l.c.step = ((s.group l.c.group).step + 1) % 2 ^ 32)
    (early : (s.group l.c.group).marking ≠ none ∨ (s.group l.c.group).halted = true ∨
      (s.opNum l.c.group l.c.entry = none ∧ ∀ e ∈ (s.group l.c.group).openEntries, e.num ≠ l.c.entry)) :
    ∃ u, exec (.levelMark l) s = .next u ∧ (u.group l.c.group).earlyMarks = (s.group l.c.group).earlyMarks ++ [l] ∧
      u.ops = s.ops ∧ u.queues = s.queues ∧ u.sync.quietSince = none ∧ ∀ h, h ≠ l.c.group → u.group h = s.group h := by
  have taken := takeIn_stirred s l.src (b := .level l) rfl
  have next : ((takeIn s l.src (.level l)).group l.c.group).isNext l.c = true :=
    GroupSt.isNext_of_step run (by rw [step, taken.keeps GroupSt.step fun _ _ => rfl])
  rw [← taken.gr] at valid
  rw [← taken.mayTradeIn] at trades
  rw [← taken.keeps GroupSt.marking fun _ _ => rfl, ← taken.keeps GroupSt.halted fun _ _ => rfl, ← taken.opNum,
    ← taken.keeps GroupSt.openEntries fun _ _ => rfl] at early
  -- The mark is kept, before or after the group's timer is set.
  have kept : ∃ t u, s.Stirred t l.c.group ∧ (keepMark t l).Stirred u l.c.group ∧ u.sync.quietSince = none ∧
      recvLevel (takeIn s l.src (.level l)) l = u := by
    by_cases waits : ((takeIn s l.src (.level l)).group l.c.group).marking ≠ none ∨
        ((takeIn s l.src (.level l)).group l.c.group).halted = true
    · exact ⟨_, _, taken, groupStirs_stirred _ _, rfl, recvLevel_follows valid trades next waits⟩
    · rw [not_or, not_not, Bool.not_eq_true] at waits
      obtain ⟨unmarked, runs⟩ := waits
      obtain ⟨unknown, settled⟩ := (early.resolve_left (not_not.2 unmarked)).resolve_left (by rw [runs]; exact Bool.false_ne_true)
      exact ⟨_, _, taken.trans (groupStirs_stirred _ _), refreshTimer_stirred _ _, rfl,
        recvLevel_unclaimed valid trades next unmarked runs unknown settled⟩
  obtain ⟨t, u, before, after, quiet, received⟩ := kept
  obtain ⟨plain, ops, queues, others⟩ := before.around after
  refine ⟨u, by rw [exec_levelMark wf, received, plain], ?_, ops, queues, quiet, others⟩
  rw [after.keeps GroupSt.earlyMarks fun _ _ => rfl, keepMark, State.group_updGroup_same,
    before.keeps GroupSt.earlyMarks fun _ _ => rfl]

/-- Settles O38: taking a message in touches nothing that decides whether it has its effect (`State.Stirred`), so each arrival is decided
as the state before it says. -/
theorem earlyArrivalsAreKept : Obligations.EarlyArrivalsAreKept := by
  unfold Obligations.EarlyArrivalsAreKept
  intro s owed
  exact ⟨fun t wf h => exec_token_dropped owed wf h,
    fun t wf valid trades peer opcode runs run step unmarked =>
      exec_token_next owed wf ⟨valid, trades, peer, opcode, runs, unmarked⟩ run step,
    fun p wf kind valid trades early => exec_parcel_early owed wf kind valid trades early,
    fun p wf kind valid h => exec_parcel_dropped owed wf kind valid h,
    fun p wf invalid => exec_parcel_invalid owed wf invalid,
    fun a wf unknown => exec_answer_dropped wf unknown,
    fun l wf valid trades run step early => exec_levelMark_kept wf valid trades run step early,
    fun r wf h => exec_recallMsg_dropped owed wf h⟩

end Sys2Proof.Machine
end
section
/-! PROOFS. A peer's HALT, the step timeout and a recall (05 R212, R213; 10 R396-R398; 11 R431): the statement about them, too, ranges over
lists of started entries in which two have the same queue and count. -/

namespace Sys2Proof.Machine

/-- The step timer of a valid group has run for TIMEOUT. -/
theorem exec_stepTimeout_expires {s : State} {g : Fin 4096} {at_ : Nat} (timer : (s.group g).timerAt = some at_)
    (valid : (s.gr g).valid = true) (due : at_ + (s.gr g).timeoutUs * 1000 ≤ s.now) :
    exec (.stepTimeout g) s = .next (State.plain s (raiseDue (expire s g))) := by
  have run : exec (.stepTimeout g) s = execStepTimeout g s := rfl
  have valid' : (s.group g).gr.valid = true := valid
  have due' : at_ + (s.group g).gr.timeoutUs * 1000 ≤ s.now := due
  rw [run, execStepTimeout, finishPlain_eq]
  simp only [timer, valid', due', decide_true, Bool.and_self, if_true]

/-- `twiceStarted`, where the step timer of group 0 has run for its TIMEOUT of 0. -/
def timedTwice : State := { twiceStarted with groups := [(0, { gr := { valid := true }, timerAt := some 0 })] }

theorem timedTwice_group : (timedTwice.gr 0).valid = true ∧ (timedTwice.group 0).halted = false ∧
    (timedTwice.gr 0).autoEvict = false ∧ (timedTwice.gr 0).queue = 0 ∧ (timedTwice.group 0).timerAt = some 0 ∧
    0 + (timedTwice.gr 0).timeoutUs * 1000 ≤ timedTwice.now := by decide

theorem timedTwice_not_due (g : Nat) : (timedTwice.group g).resumeDue = false := by
  by_cases e : 0 = g <;> simp [State.group, timedTwice, tabGet, e]

/-- An entry of queue 0 that the timeout has not ended, and that was not past its end. -/
def outlivesTimeout (o : Op) : Bool := o.q == 0 && o.ended.isNone && !timedTwice.past o

/-- The timeout finds the SIGNAL, which no longer ends early, under queue 0 and count 0, and the ALLREDUCE does not end. -/
theorem expire_timedTwice : (raiseDue (expire timedTwice 0)).ops.any outlivesTimeout = true := by decide

/-- Refutes O36: in `timedTwice` the step timeout leaves the ALLREDUCE of the halted group's queue unended, since its queue and count find
the SIGNAL before it. The statement lacks that no two started entries have the same queue and count. -/
theorem not_peersHaltTheGroup : ¬ Obligations.PeersHaltTheGroup := by
  unfold Obligations.PeersHaltTheGroup
  rintro ⟨-, timeouts, -⟩
  obtain ⟨valid, runs, noEvict, queue, timer, due⟩ := timedTwice_group
  obtain ⟨-, halts⟩ := timeouts 0 timedTwice 0 timedTwice_not_due timer
  obtain ⟨t, run, -, -, -, -, -, -, ended⟩ := halts valid due runs noEvict
  obtain rfl := Host.Outcome.next.inj ((exec_stepTimeout_expires (g := 0) timer valid due).symm.trans run)
  obtain ⟨o, started, on⟩ := List.any_eq_true.1 expire_timedTwice
  simp only [outlivesTimeout, Bool.and_eq_true, beq_iff_eq, Bool.not_eq_true', Option.isNone_iff_eq_none] at on
  obtain ⟨⟨ofQueue, unended⟩, notPast⟩ := on
  rcases ended o started (ofQueue.trans queue.symm) with finished | past
  · rw [unended] at finished; cases finished
  · rw [notPast] at past; cases past

end Sys2Proof.Machine
end
section
/-! PROOFS. What comes for a started entry reaches it (05 R209, R210, R221; 10 R379, R388, R389, R394; 04 R170): each arrival changes the
entry, and an entry that is paused on a fault makes no progress of its own. -/

namespace Sys2Proof.Machine

/-! ### A paused entry (04 R165) -/

section
variable {s : State} {q c : Nat} {o : Op}

theorem progress_paused (found : s.op? q c = some o) (paused : o.pause.isSome = true) : progress s q c = s := by
  unfold progress
  rw [found]
  exact if_pos (by simp [paused])

theorem advance_paused (found : s.op? q c = some o) (paused : o.pause.isSome = true) : advance s q c = s := by
  have still := progress_paused found paused
  rw [advance, progressN, progressN, progressN, progressN, still, still, still]

/-- With no parcel waiting in its group, nothing follows a change of a paused entry but the group's step timer. -/
theorem stepOp_paused {g : Nat} (found : s.op? q c = some o) (paused : o.pause.isSome = true) (group : o.desc.group = g)
    (none_early : (s.group g).early = []) : s.Stirred (stepOp s q c) g := by
  subst group
  unfold stepOp
  rw [found]
  dsimp only
  rw [advance_paused found paused, none_early]
  exact State.stirred_ite (.refl s _) (refreshTimer_stirred s _)

end

/-! ### The statement's state -/

/-- A started entry of group `g`, paused on a fault, in a group that runs and trades; nothing waits in the group, no weir runs for it, and no
resume mark is owed. -/
structure State.Receives (s : State) (o : Op) (g : Nat) : Prop where
  owed : ∀ k, (s.group k).resumeDue = false
  found : s.op? o.q o.c = some o
  open_ : o.ended = none
  unready : o.ready = false
  paused : o.pause.isSome = true
  group : o.desc.group = g
  valid : (s.gr g).valid = true
  runs : (s.group g).halted = false
  none_early : (s.group g).early = []
  unmarked : (s.group g).marking = none
  trades : s.mayTradeIn g = true

theorem State.Receives.stirred {s t : State} {o : Op} {g k : Nat} (h : s.Receives o g) (st : s.Stirred t k) : t.Receives o g where
  owed := st.resumeDue h.owed
  found := (st.op? _ _).trans h.found
  open_ := h.open_
  unready := h.unready
  paused := h.paused
  group := h.group
  valid := by rw [st.gr, h.valid]
  runs := (st.keeps GroupSt.halted (fun _ _ => rfl) g).trans h.runs
  none_early := (st.keeps GroupSt.early (fun _ _ => rfl) g).trans h.none_early
  unmarked := (st.keeps GroupSt.marking (fun _ _ => rfl) g).trans h.unmarked
  trades := (st.mayTradeIn g).trans h.trades

/-- What an arrival leaves of a paused entry: the entry becomes `r`, and the queues stay. -/
structure State.Reaches (s t : State) (o r : Op) : Prop where
  found : t.op? o.q o.c = some r
  queues : t.queues = s.queues

theorem State.Reaches.plain {s t : State} {o r : Op} (h : s.Reaches t o r) : s.Reaches (State.plain s t) o r := ⟨h.found, h.queues⟩

theorem State.Reaches.after {s t u : State} {o r : Op} {g : Nat} (h : t.Reaches u o r) (st : s.Stirred t g) : s.Reaches u o r :=
  ⟨h.found, h.queues.trans st.queues⟩

theorem State.Reaches.stepped {s t : State} {o r : Op} {g : Nat} (h : s.Reaches t o r) (paused : r.pause.isSome = true)
    (group : r.desc.group = g) (none_early : (t.group g).early = []) : s.Reaches (stepOp t o.q o.c) o r := by
  have timed := stepOp_paused h.found paused group none_early
  exact ⟨(timed.op? _ _).trans h.found, timed.queues.trans h.queues⟩

/-! ### Tokens (05 R209, R210) -/

/-- An entry and a token are compared by this engine's address and by the group's run, step, generation and latched digest. -/
theorem tokenDiffers_congr {s t : State} (me : t.me = s.me) (run : ∀ g, (t.group g).run = (s.group g).run)
    (step : ∀ g, (t.group g).step = (s.group g).step) (gen : ∀ g, (t.group g).gen = (s.group g).gen)
    (digestStep : ∀ g, (t.group g).digestStep = (s.group g).digestStep)
    (digestValid : ∀ g, (t.group g).digestValid = (s.group g).digestValid) (o : Op) (x : Token) :
    tokenDiffers t o x = tokenDiffers s o x := by
  simp only [tokenDiffers, tokenOf, commonOf, me, run, step, gen, digestStep, digestValid]

theorem opcode_of_agrees {s : State} {o : Op} {x : Token} (agree : tokenDiffers s o x = false) : x.opcode = o.desc.opcode := by
  by_contra differ
  have opcodes : (x.opcode != (tokenOf s o x.c.stage).opcode) = true := bne_iff_ne.2 differ
  simp [tokenDiffers, tokensDiffer, opcodes] at agree

theorem meetToken_agrees {s : State} {o : Op} {x : Token} (agree : tokenDiffers s o x = false) (time : Nat) :
    meetToken s o time x = s.updOp o.q o.c fun o => { o with slow := noteSlow o.slow x.c.stage x.src time } := by
  rw [meetToken, agree]
  rfl

/-- An entry that is no BARRIER has no group phase of its own. -/
theorem barrierStep_other {s : State} {q c : Nat} {o : Op} (found : s.op? q c = some o) (other : o.desc.opcode ≠ 0x0A) :
    barrierStep s q c = s := by
  unfold barrierStep
  rw [found]
  exact if_neg (by simp [opBarrier, other])

theorem useToken_agrees {s : State} {o : Op} {x : Token} (found : s.op? o.q o.c = some o)
    (named : s.opNum x.c.group x.c.entry = some o) (agree : tokenDiffers s o x = false) (opcode : x.opcode ≠ 0x0A) :
    useToken s x = s.updOp o.q o.c fun o => { o with slow := noteSlow o.slow x.c.stage x.src s.now } := by
  have noted := op?_updOp_found found (fun o => { o with slow := noteSlow o.slow x.c.stage x.src s.now }) fun _ => ⟨rfl, rfl⟩
  have other : o.desc.opcode ≠ 0x0A := opcode_of_agrees agree ▸ opcode
  unfold useToken
  simp only [opBarrier, beq_eq_false_iff_ne.2 opcode, Bool.false_and, Bool.false_eq_true, if_false, named, meetToken_agrees agree]
  exact barrierStep_other noted other

theorem keepToken_opNum (s : State) (x : Token) (g num : Nat) : (keepToken s x).opNum g num = s.opNum g num := by
  simp only [State.opNum, keepToken_group GroupSt.step fun _ _ => rfl, keepToken_group GroupSt.run fun _ _ => rfl]
  rfl

theorem keepToken_now (s : State) (x : Token) : (keepToken s x).now = s.now := rfl

theorem State.group_updOp (s : State) (q c : Nat) (f : Op → Op) (g : Nat) : (s.updOp q c f).group g = s.group g := rfl

theorem tokenKept_opNum (s : State) (x : Token) (g num : Nat) : (tokenKept s x).opNum g num = s.opNum g num :=
  ((tokenKept_stirred s x).opNum g num).trans (keepToken_opNum s x g num)

theorem tokenKept_op? (s : State) (x : Token) (q c : Nat) : (tokenKept s x).op? q c = s.op? q c :=
  (tokenKept_stirred s x).op? q c

theorem tokenKept_differs (s : State) (o : Op) (x : Token) : tokenDiffers (tokenKept s x) o x = tokenDiffers s o x :=
  tokenDiffers_congr (s := s) (tokenKept_stirred s x).me (tokenKept_group GroupSt.run (fun _ _ => rfl) (fun _ _ => rfl) s x)
    (tokenKept_group GroupSt.step (fun _ _ => rfl) (fun _ _ => rfl) s x)
    (tokenKept_group GroupSt.gen (fun _ _ => rfl) (fun _ _ => rfl) s x)
    (tokenKept_group GroupSt.digestStep (fun _ _ => rfl) (fun _ _ => rfl) s x)
    (tokenKept_group GroupSt.digestValid (fun _ _ => rfl) (fun _ _ => rfl) s x) o x

theorem State.Stirred.differs {s t : State} {g : Nat} (h : s.Stirred t g) (o : Op) (x : Token) :
    tokenDiffers t o x = tokenDiffers s o x :=
  tokenDiffers_congr h.me (h.keeps GroupSt.run fun _ _ => rfl) (h.keeps GroupSt.step fun _ _ => rfl)
    (h.keeps GroupSt.gen fun _ _ => rfl) (h.keeps GroupSt.digestStep fun _ _ => rfl)
    (h.keeps GroupSt.digestValid fun _ _ => rfl) o x

/-- The token of an equal entry is kept, and the entry notes it. -/
theorem recvToken_meets {s : State} {o : Op} {t : Token} (takes : s.TakesToken t) (found : s.op? o.q o.c = some o)
    (noBarrier : t.opcode ≠ 0x0A) (now : (s.group t.c.group).isNow t.c = true)
    (named : s.opNum t.c.group t.c.entry = some o) (agree : tokenDiffers s o t = false) : recvToken s t =
      (tokenKept s t).updOp o.q o.c fun o => { o with slow := noteSlow o.slow t.c.stage t.src s.now } := by
  have used := useToken_agrees ((tokenKept_op? s t _ _).trans found) ((tokenKept_opNum s t _ _).trans named)
    ((tokenKept_differs s o t).trans agree) noBarrier
  have unmarked : ((useToken (tokenKept s t) t).group t.c.group).marking = none := by
    rw [used, State.group_updOp, tokenKept_group GroupSt.marking (fun _ _ => rfl) fun _ _ => rfl, takes.unmarked]
  rw [recvToken_now takes now, markStep_unmarked unmarked, used, (tokenKept_stirred s t).now, keepToken_now]

theorem exec_token_meets {s : State} {o : Op} {t : Token} (h : s.Receives o t.c.group) (wf : t.wf = true)
    (peer : s.isPeer t.c.group t.c.stage t.src = true) (noBarrier : t.opcode ≠ 0x0A) (noMark : t.opcode ≠ 0x0E)
    (run : t.c.run = (s.group t.c.group).run) (step : t.c.step = (s.group t.c.group).step)
    (named : s.opNum t.c.group t.c.entry = some o) (agree : tokenDiffers s o t = false) : ∃ u, exec (.token t) s = .next u ∧
      s.Reaches u o { o with slow := noteSlow o.slow t.c.stage t.src s.now } ∧
      (u.group t.c.group).toks = (s.group t.c.group).toks ++ [(s.now, t)] ∧ (u.group t.c.group).halted = false := by
  have taken := takeIn_stirred s t.src (b := .token t) rfl
  generalize arrived : takeIn s t.src (.token t) = u at taken
  have received := h.stirred taken
  have takes : s.TakesToken t := ⟨h.valid, h.trades, peer, noMark, h.runs, h.unmarked⟩
  have now : (u.group t.c.group).isNow t.c = true := by
    rw [taken.keeps (GroupSt.isNow · _) fun _ _ => rfl]
    simp [GroupSt.isNow, run, step]
  have met := recvToken_meets (takes.stirred taken) received.found noBarrier now ((taken.opNum _ _).trans named)
    ((taken.differs o t).trans agree)
  have groups : ∀ g, (recvToken u t).group g = (tokenKept u t).group g := fun g => by rw [met, State.group_updOp]
  have due : ∀ g, ((recvToken u t).group g).resumeDue = false := fun g => by
    rw [groups, tokenKept_group GroupSt.resumeDue (fun _ _ => rfl) fun _ _ => rfl, received.owed]
  have noted : (recvToken u t).op? o.q o.c = some { o with slow := noteSlow o.slow t.c.stage t.src s.now } := by
    rw [met, taken.now]
    exact op?_updOp_found ((tokenKept_op? u t _ _).trans received.found)
      (fun o => { o with slow := noteSlow o.slow t.c.stage t.src s.now }) fun _ => ⟨rfl, rfl⟩
  refine ⟨State.plain s (recvToken u t), by rw [exec_token wf, arrived, raiseDue_of_none due], ⟨noted, ?queues⟩, ?toks, ?halted⟩
  case queues =>
    show (recvToken u t).queues = _
    rw [met]
    exact (tokenKept_stirred u t).queues.trans taken.queues
  case toks =>
    show ((recvToken u t).group _).toks = _
    rw [groups, tokenKept_toks, taken.keeps GroupSt.toks fun _ _ => rfl, taken.now]
  case halted =>
    show ((recvToken u t).group _).halted = _
    rw [groups, tokenKept_group GroupSt.halted (fun _ _ => rfl) fun _ _ => rfl, received.runs]

/-! ### Parcels (10 R379, R388; 04 R170) -/

theorem exec_parcel_left {s : State} {o : Op} {p : Parcel} (h : s.Receives o p.h.group) (wf : p.wf = true) (kind : p.h.kind ≤ 6)
    (place : s.place p.h = .entry o) (full : s.roomFor o p.payload.length = false) :
    exec (.parcel p) s = .next (leaveParcel s p) := by
  have held : s.noRoom p = true := by simp [State.noRoom, h.valid, h.trades, kind, place, h.paused, full]
  have plain : State.plain s (leaveParcel s p) = leaveParcel s p := by
    unfold leaveParcel
    dsimp only
    split <;> rfl
  have run : exec (.parcel p) s = checked p.wf "PARCEL" (finishPlain s
      (if s.noRoom p then leaveParcel s p else raiseDue (recvParcel (takeIn s p.src (.parcel p)) p))) := rfl
  rw [run, wf, checked_true, finishPlain_eq, held, if_pos rfl, plain]

/-- The state in which a parcel has come for a paused entry and takes room of its partition, before it is checked. -/
def parcelWaits (s : State) (o : Op) (p : Parcel) : State :=
  notePaused (groupStirs (takeIn s p.src (.parcel p)) p.h.group) o p

/-- The entry with a parcel among those it has received. -/
def Op.joinedBy (o : Op) (p : Parcel) (pv : PV) : Op :=
  { o with coll := { o.coll with rx := o.coll.rx ++ [{ h := p.h, src := p.src, pv, lanes := p.lanes }] } }

/-- The entry with a parcel's bytes in its partition. -/
def Op.waitsFor (o : Op) (p : Parcel) : Op := { o with waitBytes := o.waitBytes + p.payload.length }

theorem groupStirs_net (s : State) (g : Nat) : (groupStirs s g).net = s.net := rfl

theorem groupStirs_links (s : State) (g : Nat) : (groupStirs s g).links = s.links := rfl

theorem parcelWaits_form {o : Op} (paused : o.pause.isSome = true) (s : State) (p : Parcel) : ∃ t, s.Stirred t p.h.group ∧
    t.net = (takeIn s p.src (.parcel p)).net ∧ t.links = (takeIn s p.src (.parcel p)).links ∧
    parcelWaits s o p = t.updOp o.q o.c fun o => o.waitsFor p := by
  have taken := takeIn_stirred s p.src (b := .parcel p) rfl
  rw [parcelWaits]
  generalize takeIn s p.src (.parcel p) = u at taken
  refine ⟨groupStirs u p.h.group, taken.trans (groupStirs_stirred u _), groupStirs_net u _, groupStirs_links u _, ?_⟩
  rw [notePaused, if_pos paused]
  rfl

section
variable {s : State} {o : Op} {p : Parcel} (h : s.Receives o p.h.group) (kind : p.h.kind ≤ 6) (place : s.place p.h = .entry o)
include h kind place

theorem recvParcel_paused : recvParcel (takeIn s p.src (.parcel p)) p =
    stepOp (checkParcel (parcelWaits s o p) o p false) o.q o.c := by
  have taken := takeIn_stirred s p.src (b := .parcel p) rfl
  unfold recvParcel
  rw [if_neg (by simp [taken.gr, h.valid, kind]), if_neg (by simp [taken.mayTradeIn, h.trades]), taken.place, place]
  rfl

theorem exec_parcel_paused (wf : p.wf = true) (room : s.roomFor o p.payload.length = true) : exec (.parcel p) s =
    .next (State.plain s (raiseDue (stepOp (checkParcel (parcelWaits s o p) o p false) o.q o.c))) := by
  have notHeld : s.noRoom p = false := by simp [State.noRoom, place, room]
  rw [exec_parcel wf notHeld, recvParcel_paused h kind place]

end

/-- A parcel that passes its checks is acknowledged and joins those received. -/
theorem checkParcel_passes {s : State} {o : Op} {p : Parcel} (noUpdate : o.desc.opcode ≠ 0x08) (first : p.h.retry = false)
    (crc : parcelCrc p.h p.payload = p.h.crc) (ordered : (s.numCtx o.desc).orderFree = false) :
    checkParcel s o p false = addParcel (answerParcel s p false 0) o p := by
  have sound : s.residueFails o p = false := by rw [State.residueFails, ordered]; simp
  have noSkew : noteSkew s o p = s := if_pos (bne_iff_ne.2 noUpdate)
  rw [checkParcel, if_neg (by simp [crc]), sound, acceptParcel, noSkew, first]
  rfl

theorem exec_parcel_joins {s : State} {o : Op} {p : Parcel} (h : s.Receives o p.h.group) (wf : p.wf = true) (kind : p.h.kind ≤ 6)
    (place : s.place p.h = .entry o) (room : s.roomFor o p.payload.length = true) (noUpdate : o.desc.opcode ≠ 0x08)
    (first : p.h.retry = false) (crc : parcelCrc p.h p.payload = p.h.crc) (ordered : (s.numCtx o.desc).orderFree = false) :
    ∃ u, exec (.parcel p) s = .next u ∧ s.Reaches u o { o with
        waitBytes := o.waitBytes + p.payload.length
        coll := { o.coll with rx := o.coll.rx ++ [{ h := p.h, src := p.src, pv := s.parcelPV o p, lanes := p.lanes }] } } ∧
      u.integ = s.integ := by
  have run := exec_parcel_paused h kind place wf room
  obtain ⟨t, stirred, -, -, waits⟩ := parcelWaits_form h.paused s p
  have received := h.stirred stirred
  have ordered' : ((parcelWaits s o p).numCtx o.desc).orderFree = false := by
    rw [waits]
    exact (congrArg NumCtx.orderFree (stirred.numCtx o.desc)).trans ordered
  obtain ⟨links, answered⟩ := answerParcel_form (parcelWaits s o p) p false 0
  have checked := checkParcel_passes noUpdate first crc ordered'
  rw [answered] at checked
  rw [waits] at checked run
  have pv : ({ t.updOp o.q o.c fun o => o.waitsFor p with links } : State).parcelPV o p = s.parcelPV o p := stirred.parcelPV o p
  have joined : (checkParcel (t.updOp o.q o.c fun o => o.waitsFor p) o p false).op? o.q o.c =
      some ((o.waitsFor p).joinedBy p (s.parcelPV o p)) := by
    rw [checked, addParcel, pv]
    exact op?_updOp_found (op?_updOp_found received.found (fun o => o.waitsFor p) fun _ => ⟨rfl, rfl⟩)
      (fun r => r.joinedBy p (s.parcelPV o p)) fun _ => ⟨rfl, rfl⟩
  have groups : ∀ g, (checkParcel (t.updOp o.q o.c fun o => o.waitsFor p) o p false).group g = t.group g := by
    rw [checked]
    exact fun _ => rfl
  have timed := stepOp_paused joined h.paused h.group (by rw [groups, received.none_early])
  have due := timed.resumeDue fun g => by rw [groups, received.owed]
  refine ⟨_, run.trans (congrArg _ (congrArg _ (raiseDue_of_none due))), ⟨(timed.op? _ _).trans joined, timed.queues.trans ?_⟩,
    timed.integ.trans ?_⟩
  · rw [checked]; exact stirred.queues
  · rw [checked]; exact stirred.integ

theorem checkFailed_form (s : State) (r : FaultRecord) : ∃ siphons warden, checkFailed s r = { s with siphons, warden } := by
  unfold checkFailed
  split
  · exact ⟨s.siphons, _, rfl⟩
  · obtain ⟨siphons, _, _, -, made⟩ := makeRecord_form (s.updWarden fun w => { w with recent :=
        (w.recent.filter fun (t, u, at_) => s.now < at_ + 1000000 && !(t == r.type && u == r.unit)) ++
          (if 4 ≤ r.type && r.type ≤ 6 then [(r.type, r.unit, s.now)] else []) }) r
    exact ⟨siphons, _, made⟩

/-- The state in which a parcel's CRC failure has been counted and recorded, which may write to memory. -/
def crcRecorded (s : State) (siphons : Tab SiphonSt) (warden : WardenSt) : State := { countCrc s with siphons, warden }

/-- A parcel whose CRC fails is counted, recorded and asked for again (10 R391). -/
theorem checkParcel_asks {s : State} {o : Op} {p : Parcel} (first : p.h.retry = false) (crc : parcelCrc p.h p.payload ≠ p.h.crc)
    (direct : (s.gr p.h.group).flow = false) :
    ∃ siphons warden, checkParcel s o p false = answerParcel (crcRecorded s siphons warden) p true 0 := by
  have direct' : ((countCrc s).gr p.h.group).flow = false := direct
  obtain ⟨siphons, warden, recorded⟩ : ∃ siphons warden, checkRecord (countCrc s) o p 0 0 1 = crcRecorded s siphons warden :=
    checkFailed_form _ _
  refine ⟨siphons, warden, ?_⟩
  rw [checkParcel, if_pos (bne_iff_ne.2 crc), parcelFails]
  simp only [direct', first, Bool.false_and, Bool.or_self, Bool.false_eq_true, if_false, recorded]

/-- The request for a parcel again. -/
def nackOf (p : Parcel) (me : Nat) : Body := .answer
  { src := me, c := { group := p.h.group, stage := p.h.stage, run := p.h.run, step := p.h.step, entry := p.h.entry }
    chunk := p.h.chunk, indexBase := p.h.index, kind := p.h.kind, valid := 1, nack := 1, reason := 0 }

theorem answerParcel_nack (s : State) (p : Parcel) : answerParcel s p true 0 = sendTo s p.src (nackOf p s.me) := rfl

theorem exec_parcel_refused {s : State} {o : Op} {p : Parcel} (h : s.Receives o p.h.group) (wf : p.wf = true) (kind : p.h.kind ≤ 6)
    (place : s.place p.h = .entry o) (room : s.roomFor o p.payload.length = true) (first : p.h.retry = false)
    (crc : parcelCrc p.h p.payload ≠ p.h.crc) (direct : (s.gr p.h.group).flow = false) : ∃ u v, exec (.parcel p) s = .next u ∧
      u = State.plain s (stepOp (sendTo v p.src (nackOf p s.me)) o.q o.c) ∧
      v.links = (takeIn s p.src (.parcel p)).links ∧ v.net = (takeIn s p.src (.parcel p)).net ∧
      u.op? o.q o.c = some (o.waitsFor p) ∧
      u.integ = { s.integ with crcSeen := true, crcErrors := (s.integ.crcErrors + 1) % 2 ^ 64 } ∧
      (u.group p.h.group).halted = false ∧ u.members = s.members := by
  have run := exec_parcel_paused h kind place wf room
  obtain ⟨t, stirred, net, links, waits⟩ := parcelWaits_form h.paused s p
  have received := h.stirred stirred
  rw [waits] at run
  obtain ⟨siphons, warden, asked⟩ := checkParcel_asks (s := t.updOp o.q o.c fun o => o.waitsFor p) (o := o) first crc
    ((congrArg GroupRec.flow (stirred.gr p.h.group)).trans direct)
  have me : (crcRecorded (t.updOp o.q o.c fun o => o.waitsFor p) siphons warden).me = s.me := stirred.me
  rw [asked] at run
  obtain ⟨out, answered⟩ := answerParcel_form (crcRecorded (t.updOp o.q o.c fun o => o.waitsFor p) siphons warden) p true 0
  rw [answerParcel_nack, me] at run answered
  generalize sent : sendTo (crcRecorded (t.updOp o.q o.c fun o => o.waitsFor p) siphons warden) p.src (nackOf p s.me) = v
    at run answered
  have waiting : v.op? o.q o.c = some (o.waitsFor p) := by
    rw [answered]
    exact op?_updOp_found received.found (fun o => o.waitsFor p) fun _ => ⟨rfl, rfl⟩
  have groups : ∀ g, v.group g = t.group g := by
    rw [answered]
    exact fun _ => rfl
  have timed := stepOp_paused waiting h.paused h.group (by rw [groups, received.none_early])
  rw [raiseDue_of_none (timed.resumeDue fun g => by rw [groups, received.owed])] at run
  refine ⟨_, crcRecorded (t.updOp o.q o.c fun o => o.waitsFor p) siphons warden, run, by rw [sent], links, net,
    (timed.op? _ _).trans waiting, timed.integ.trans ?_, (timed.keeps GroupSt.halted (fun _ _ => rfl) _).trans ?_,
    timed.members.trans ?_⟩
  · rw [answered, ← stirred.integ]
    rfl
  · rw [groups, received.runs]
  · rw [answered]
    exact stirred.members

/-! ### Answers (10 R388, R389) -/

/-- Who is at the lag allowance is followed; nothing else of an entry and of its group is. -/
theorem noteLag_follows {s : State} {q c : Nat} {o : Op} (found : s.op? q c = some o) : ∃ paced lag,
    (noteLag s q c).op? q c = some { o with paced, lag } ∧ (noteLag s q c).queues = s.queues ∧
    ∀ g, ((noteLag s q c).group g).early = (s.group g).early := by
  have followed (paced : List Nat) := op?_updOp_found found (fun o => { o with paced }) fun _ => ⟨rfl, rfl⟩
  unfold noteLag
  split
  next missing => cases found.symm.trans missing
  next _ here =>
    obtain rfl := Option.some.inj (found.symm.trans here)
    extract_lets _ _ _ new _
    clear_value new
    cases new with
    | nil => exact ⟨_, _, followed _, rfl, fun _ => rfl⟩
    | cons _ _ =>
      dsimp only
      split
      · exact ⟨_, _, followed _, rfl, fun _ => rfl⟩
      · exact ⟨_, true, op?_updOp_found (followed _) (fun o => { o with lag := true }) fun _ => ⟨rfl, rfl⟩, rfl,
          fun g => State.group_updGroup_keeps (p := GroupSt.early) rfl g⟩

/-- The effect of bit `j` of an answer on an entry. -/
def answerBit (a : AnswerMsg) (q c : Nat) (s : State) (j : Nat) : State :=
  match s.op? q c with
  | some o => if bit a.valid j then answerOne s o a j else s
  | none => s

theorem answerBit_clear {a : AnswerMsg} {j : Nat} (clear : bit a.valid j = false) (q c : Nat) (s : State) :
    answerBit a q c s j = s := by
  unfold answerBit
  split
  · rw [clear]; rfl
  · rfl

/-- An answer whose VALID is 1 is about one parcel. -/
theorem foldl_answerBit {a : AnswerMsg} (one : a.valid = 1) (q c : Nat) (s : State) :
    (List.range 8).foldl (answerBit a q c) s = answerBit a q c s 0 := by
  have rest : ∀ j, j ≠ 0 → bit a.valid j = false := fun j other => by
    rw [one, bit, ← Bool.not_eq_true]
    exact fun set => other (Nat.testBit_one_eq_true_iff_self_eq_zero.1 set)
  have split8 : List.range 8 = 0 :: [1, 2, 3, 4, 5, 6, 7] := rfl
  rw [split8, List.foldl_cons]
  refine List.foldlRecOn (motive := fun t => t = answerBit a q c s 0) _ _ rfl ?_
  rintro _ rfl j mem
  refine answerBit_clear (rest j ?_) q c _
  rintro rfl
  simp at mem

theorem recvAnswer_started {s : State} {o : Op} {a : AnswerMsg} (named : s.opNum a.c.group a.c.entry = some o)
    (trades : s.mayTradeIn a.c.group = true) (run : a.c.run = o.run) (open_ : o.ended = none) :
    recvAnswer s a = stepOp ((List.range 8).foldl (answerBit a o.q o.c) (groupStirs s a.c.group)) o.q o.c := by
  unfold recvAnswer
  simp only [named]
  exact if_neg (by simp [trades, run, open_])

/-- The answer accepts the first parcel that is kept (10 R389). -/
structure Kept.AcceptedBy (k : Kept) (a : AnswerMsg) : Prop where
  step : a.c.step = k.p.h.step
  dest : k.dest = a.src
  kind : k.p.h.kind = a.kind
  chunk : k.p.h.chunk = a.chunk
  index : k.p.h.index = a.indexBase

/-- The entry once a parcel of it has been acknowledged. -/
def Op.released (o : Op) (k : Kept) : Op := Op.trimKeeps { o with kept := o.kept.erase k }

theorem Op.released_form (o : Op) (k : Kept) :
    ∃ keeps, o.released k = { o with kept := o.kept.erase k, keeps, wants := false } := ⟨_, rfl⟩

theorem Op.released_named (o : Op) (k : Kept) : (o.released k).q = o.q ∧ (o.released k).c = o.c := by
  obtain ⟨keeps, form⟩ := o.released_form k
  rw [form]
  exact ⟨rfl, rfl⟩

theorem answerOne_accepts {s : State} {o : Op} {a : AnswerMsg} {k : Kept} {rest : List Kept} (accepts : k.AcceptedBy a)
    (accepted : a.nack = 0) (kept : o.kept = k :: rest) :
    answerOne s o a 0 = noteLag (s.updOp o.q o.c fun o => o.released k) o.q o.c := by
  have hit : (o.kept.find? fun y => y.dest == a.src && y.p.h.step == a.c.step && y.p.h.kind == a.kind &&
      y.p.h.chunk == a.chunk && y.p.h.index == a.indexBase + 0) = some k := by
    rw [kept]
    exact List.find?_cons_of_pos (by simp [accepts.step, accepts.dest, accepts.kind, accepts.chunk, accepts.index])
  have ack : bit a.nack 0 = false := by rw [accepted]; rfl
  unfold answerOne
  simp only [hit, ack, Bool.false_eq_true, if_false]
  rfl

/-- An acknowledged parcel is no longer kept. -/
theorem recvAnswer_accepts {s : State} {o : Op} {a : AnswerMsg} {k : Kept} {rest : List Kept} (h : s.Receives o a.c.group)
    (named : s.opNum a.c.group a.c.entry = some o) (run : a.c.run = o.run) (one : a.valid = 1) (accepted : a.nack = 0)
    (kept : o.kept = k :: rest) (accepts : k.AcceptedBy a) :
    ∃ r, s.Reaches (recvAnswer s a) o r ∧ r.kept = rest ∧ r.coll = o.coll := by
  have stirred := groupStirs_stirred s a.c.group
  have answered := recvAnswer_started named h.trades run h.open_
  generalize groupStirs s a.c.group = t at stirred answered
  have received := h.stirred stirred
  have first : answerBit a o.q o.c t 0 = answerOne t o a 0 := by
    have valid : bit a.valid 0 = true := by rw [one]; rfl
    simp only [answerBit, received.found, valid, if_true]
  rw [foldl_answerBit one, first, answerOne_accepts accepts accepted kept] at answered
  obtain ⟨keeps, form⟩ := o.released_form k
  obtain ⟨paced, lag, found, queues, early⟩ :=
    noteLag_follows (op?_updOp_found received.found (fun o => o.released k) fun o => o.released_named k)
  rw [form] at found
  have reached : s.Reaches (noteLag (t.updOp o.q o.c fun o => o.released k) o.q o.c) o
      { o with kept := o.kept.erase k, keeps, wants := false, paced, lag } := ⟨found, queues.trans stirred.queues⟩
  refine ⟨{ o with kept := o.kept.erase k, keeps, wants := false, paced, lag }, ?_, ?_, rfl⟩
  · rw [answered]
    exact reached.stepped h.paused h.group ((early _).trans received.none_early)
  · show o.kept.erase k = rest
    rw [kept, List.erase_cons_head]

theorem exec_answer_accepts {s : State} {o : Op} {a : AnswerMsg} {k : Kept} {rest : List Kept} (h : s.Receives o a.c.group)
    (wf : a.wf = true) (named : s.opNum a.c.group a.c.entry = some o) (run : a.c.run = o.run) (one : a.valid = 1)
    (accepted : a.nack = 0) (kept : o.kept = k :: rest) (accepts : k.AcceptedBy a) : ∃ u r, exec (.answer a) s = .next u ∧
      s.Reaches u o r ∧ r.kept = rest ∧ r.coll = o.coll := by
  have taken := takeIn_stirred s a.src (b := .answer a) rfl
  obtain ⟨r, reaches, left, coll⟩ :=
    recvAnswer_accepts (h.stirred taken) ((taken.opNum _ _).trans named) run one accepted kept accepts
  exact ⟨_, r, exec_answer wf s, (reaches.after taken).plain, left, coll⟩

/-! ### Level marks (10 R394) -/

theorem settleOp_unready {s : State} {q c : Nat} {o : Op} (found : s.op? q c = some o) (unready : o.ready = false) :
    settleOp s q c = s := by
  unfold settleOp
  rw [found]
  exact if_pos (by simp [unready])

theorem recvLevel_started {s : State} {o : Op} {l : LevelMsg} (h : s.Receives o l.c.group)
    (named : s.opNum l.c.group l.c.entry = some o) (now : (s.group l.c.group).isNow l.c = true) :
    s.Reaches (recvLevel s l) o { o with marksHeld := addTo (l.c.stage, l.src) o.marksHeld } := by
  have valid : (s.group l.c.group).gr.valid = true := h.valid
  have stirred := groupStirs_stirred s l.c.group
  have named' := (stirred.opNum l.c.group l.c.entry).trans named
  have run : l.c.run = (s.group l.c.group).run := by
    simp only [GroupSt.isNow, Bool.and_eq_true, beq_iff_eq] at now
    exact now.2
  have held := op?_updOp_found (h.stirred stirred).found (fun o => { o with marksHeld := addTo (l.c.stage, l.src) o.marksHeld })
    fun _ => ⟨rfl, rfl⟩
  have marks : (s.group l.c.group).marksFor (o.desc.opcode == opUpdate) l.c = true := by rw [GroupSt.marksFor, now, Bool.true_or]
  unfold recvLevel
  rw [if_neg (by simp [valid, h.trades]), if_neg (by simp [h.unmarked, h.runs]), if_neg (by simp [h.runs, run])]
  simp only [named', Option.filter_some, marks, if_true]
  rw [settleOp_unready held h.unready]
  have timed := refreshTimer_stirred ((groupStirs s l.c.group).updOp o.q o.c fun o =>
    { o with marksHeld := addTo (l.c.stage, l.src) o.marksHeld }) l.c.group
  exact ⟨(timed.op? _ _).trans held, timed.queues.trans stirred.queues⟩

theorem exec_levelMark_held {s : State} {o : Op} {l : LevelMsg} (h : s.Receives o l.c.group) (wf : l.wf = true)
    (run : l.c.run = (s.group l.c.group).run) (step : l.c.step = (s.group l.c.group).step)
    (named : s.opNum l.c.group l.c.entry = some o) : ∃ u, exec (.levelMark l) s = .next u ∧
      s.Reaches u o { o with marksHeld := addTo (l.c.stage, l.src) o.marksHeld } := by
  have taken := takeIn_stirred s l.src (b := .level l) rfl
  have now : ((takeIn s l.src (.level l)).group l.c.group).isNow l.c = true := by
    rw [taken.keeps (GroupSt.isNow · _) fun _ _ => rfl]
    simp [GroupSt.isNow, run, step]
  have reaches := recvLevel_started (h.stirred taken) ((taken.opNum _ _).trans named) now
  exact ⟨_, exec_levelMark wf s, (reaches.after taken).plain⟩

/-! ### Landing credits (05 R221) -/

theorem exec_landingCredit {x : CreditMsg} (wf : x.wf = true) (s : State) :
    exec (.landingCredit x) s = .next (State.plain s (recvCredit (takeIn s x.src (.credit x)) x)) := by
  show checked _ _ (finishPlain s _) = _
  rw [wf, checked_true, finishPlain_eq]

theorem recvCredit_started {s : State} {o : Op} {x : CreditMsg} (h : s.Receives o x.c.group) (rotate : o.desc.opcode = 0x07)
    (step : x.c.step = o.step) (run : x.c.run = o.run) (named : s.opNum x.c.group x.c.entry = some o)
    (successor : x.src = s.ringAt x.c.group 1 true) :
    s.Reaches (recvCredit s x) o { o with rot := { o.rot with credits := max o.rot.credits x.k } } := by
  have stirred := groupStirs_stirred s x.c.group
  have counts : recvCredit s x = stepOp ((groupStirs s x.c.group).updOp o.q o.c fun o =>
      { o with rot := { o.rot with credits := max o.rot.credits x.k } }) o.q o.c := by
    unfold recvCredit
    simp only [named]
    exact if_neg (by simp [rotate, opRotate, h.open_, step, run, h.trades, ← successor])
  rw [counts]
  generalize groupStirs s x.c.group = t at stirred
  have received := h.stirred stirred
  have counted : s.Reaches (t.updOp o.q o.c fun o => { o with rot := { o.rot with credits := max o.rot.credits x.k } }) o
      { o with rot := { o.rot with credits := max o.rot.credits x.k } } :=
    ⟨op?_updOp_found received.found (fun o => { o with rot := { o.rot with credits := max o.rot.credits x.k } }) fun _ => ⟨rfl, rfl⟩,
      stirred.queues⟩
  exact counted.stepped h.paused h.group received.none_early

theorem exec_landingCredit_counts {s : State} {o : Op} {x : CreditMsg} (h : s.Receives o x.c.group) (wf : x.wf = true)
    (rotate : o.desc.opcode = 0x07) (step : x.c.step = o.step) (run : x.c.run = o.run)
    (named : s.opNum x.c.group x.c.entry = some o) (successor : x.src = s.ringAt x.c.group 1 true) :
    ∃ u, exec (.landingCredit x) s = .next u ∧ s.Reaches u o { o with rot := { o.rot with credits := max o.rot.credits x.k } } := by
  have taken := takeIn_stirred s x.src (b := .credit x) rfl
  have reaches := recvCredit_started (h.stirred taken) rotate step run ((taken.opNum _ _).trans named)
    (successor.trans (taken.sameTable.ringAt _ _ _).symm)
  exact ⟨_, exec_landingCredit wf s, (reaches.after taken).plain⟩

/-- Settles O39: each message finds the entry as it was before (`State.Stirred`), and a paused entry makes no progress
(`stepOp_paused`), so the entry is left as the message has changed it. -/
theorem arrivalsReachTheirEntry : Obligations.ArrivalsReachTheirEntry := by
  unfold Obligations.ArrivalsReachTheirEntry
  intro s o g owed found _ open_ unready paused group valid runs none_early unmarked trades _
  have h : s.Receives o g := ⟨owed, found, open_, unready, paused, group.symm, valid, runs, none_early, unmarked, trades⟩
  refine ⟨?token, ?left, ?joins, ?refused, ?answer, ?level, ?credit⟩
  case token =>
    rintro t wf rfl peer noBarrier noMark run step named agree
    obtain ⟨u, next, reaches, toks, runs⟩ := exec_token_meets h wf peer noBarrier noMark run step named agree
    exact ⟨u, _, next, reaches.found, rfl, toks, runs, reaches.queues⟩
  case left =>
    rintro p wf rfl kind place full
    exact exec_parcel_left h wf kind place full
  case joins =>
    rintro p wf rfl kind place room noUpdate first crc ordered
    obtain ⟨u, next, reaches, integ⟩ := exec_parcel_joins h wf kind place room noUpdate first crc ordered
    exact ⟨u, _, next, reaches.found, rfl, integ⟩
  case refused =>
    rintro p wf rfl kind place room first crc direct
    exact exec_parcel_refused h wf kind place room first crc direct
  case answer =>
    rintro a k rest wf rfl named step run one accepted kept dest kind chunk index
    obtain ⟨u, r, next, reaches, left, coll⟩ := exec_answer_accepts h wf named run one accepted kept ⟨step, dest, kind, chunk, index⟩
    exact ⟨u, r, next, reaches.found, left, coll, reaches.queues⟩
  case level =>
    rintro l wf rfl run step named
    obtain ⟨u, next, reaches⟩ := exec_levelMark_held h wf run step named
    exact ⟨u, next, reaches.found, reaches.queues⟩
  case credit =>
    rintro x wf rfl rotate step run named successor
    obtain ⟨u, next, reaches⟩ := exec_landingCredit_counts h wf rotate step run named successor
    exact ⟨u, next, reaches.found, reaches.queues⟩

end Sys2Proof.Machine
end
section
/-! PROOFS. Checks and test words (06 R244, R246; 12 R459; 13 R499): the check values of the two CRCs and of the generator, and the
registers in which the owner reads the words that it draws from the test key and counter. -/

namespace Sys2Proof.Machine

/-! ### Check values -/

theorem crc16_check : crc16 (([0x31, 0x32, 0x33, 0x34, 0x35, 0x36, 0x37, 0x38, 0x39] : List Nat).map (BitVec.ofNat 8)) = 0x29B1 := by
  decide +kernel

theorem crc64_check :
    crc64 (([0x31, 0x32, 0x33, 0x34, 0x35, 0x36, 0x37, 0x38, 0x39] : List Nat).map (BitVec.ofNat 8)) = 0x6C40DF5F0B497347 := by
  decide +kernel

theorem draw_check_zero : draw 0 0 0 0 0 = ⟨0x1DCD594D, 0x69DF1453, 0xC17661D5, 0x5B63E0CA⟩ := by decide +kernel

theorem draw_check_key : draw 1 0 0 7 3 = ⟨0x60D55022, 0x29CB2200, 0x23E91368, 0xBC6243E4⟩ := by decide +kernel

/-! ### The test registers -/

/-- A read that the gate lets through and that clears nothing is answered with the register's value. -/
theorem exec_rcRead_value {m : Mgmt} {off : BitVec 21} {s : State} {r : Reg} (ready : s.mgmt.portReady = true)
    (thawed : s.isFrozen m.agent = false) (h : regAt (byteOffset off) = some r) (n : r ≠ .keeperClaim) (kept : regClear s r = s) :
    exec (.rcRead m off) s = .next (State.answered s m 0 (BitVec.ofNat 64 (regRead s r))) := by
  have form : readRegister s m off =
      mgmtRead s m (fun s => BitVec.ofNat 64 (regRead s r)) fun s => if s.owns m.agent then regClear s r else s := by
    unfold readRegister
    rw [h]
    split
    next e => cases e
    next e => exact absurd (Option.some.inj e) n
    next e => cases e; rfl
  have answer : mgmtRead s m (fun s => BitVec.ofNat 64 (regRead s r)) (fun s => if s.owns m.agent then regClear s r else s) =
      State.answered s m 0 (BitVec.ofNat 64 (regRead s r)) := by simp [mgmtRead, ready, thawed, kept, respond_eq, respOk]
  show finish s (readRegister s m off) = _
  rw [form, answer, finish_answered]

theorem bits_high32 (d : W64) : bits d.toNat 32 32 = d.toNat / 2 ^ 32 := by
  rw [bits, Nat.shiftRight_eq_div_pow]
  exact Nat.mod_eq_of_lt (by have := d.isLt; omega)

/-- A register of two 32-bit fields holds one word after the other. -/
theorem ofNat_halves (lo hi : BitVec 32) : BitVec.ofNat 64 (halves lo.toNat hi.toNat) = hi ++ lo := by
  refine BitVec.eq_of_toNat_eq ?_
  have := lo.isLt
  have := hi.isLt
  rw [BitVec.toNat_append, ← Nat.shiftLeft_add_eq_or_of_lt lo.isLt, BitVec.toNat_ofNat, halves, at_, Nat.shiftLeft_eq, Nat.shiftLeft_eq]
  omega

/-- 06 R246: the test registers show the draw of the test key and counter. -/
theorem testDraw_eq (x : NumSt) : x.testDraw = draw x.testKey (x.testLo.toNat % 2 ^ 32) (x.testLo.toNat / 2 ^ 32)
    (x.testHi.toNat % 2 ^ 32) (x.testHi.toNat / 2 ^ 32) := by
  rw [NumSt.testDraw, bits_low32, bits_low32, bits_high32, bits_high32]

theorem regRead_testOutLo (s : State) : regRead s .testOutLo = halves s.num.testDraw.x0.toNat s.num.testDraw.x1.toNat := rfl

theorem regRead_testOutHi (s : State) : regRead s .testOutHi = halves s.num.testDraw.x2.toNat s.num.testDraw.x3.toNat := rfl

theorem exec_rcRead_testOutLo {m : Mgmt} {off : BitVec 21} {s : State} (ready : s.mgmt.portReady = true)
    (thawed : s.isFrozen m.agent = false) (h : regAt (byteOffset off) = some .testOutLo) :
    exec (.rcRead m off) s = .next (State.answered s m 0 (s.num.testDraw.x1 ++ s.num.testDraw.x0)) := by
  rw [exec_rcRead_value ready thawed h Reg.noConfusion rfl, regRead_testOutLo, ofNat_halves]

theorem exec_rcRead_testOutHi {m : Mgmt} {off : BitVec 21} {s : State} (ready : s.mgmt.portReady = true)
    (thawed : s.isFrozen m.agent = false) (h : regAt (byteOffset off) = some .testOutHi) :
    exec (.rcRead m off) s = .next (State.answered s m 0 (s.num.testDraw.x3 ++ s.num.testDraw.x2)) := by
  rw [exec_rcRead_value ready thawed h Reg.noConfusion rfl, regRead_testOutHi, ofNat_halves]

end Sys2Proof.Machine
end
section
/-! PROOFS. Sums (06 R252-R254, R256, R261, R364): exact addition is commutative, and so is the fast addition, which takes the larger
operand first, since two operands of one format and one magnitude are the same but for their signs; saturating INT32 addition. -/

namespace Sys2Proof.Machine

/-! ### Exact and strict addition -/

theorem Val_add_comm (a b : Val) : Val_add a b = Val_add b a := by
  match a, b with
  | .nan, b => cases b <;> rfl
  | .inf _, .nan => rfl
  | .inf s, .inf t => cases s <;> cases t <;> rfl
  | .inf _, .fin _ _ _ => rfl
  | .fin _ _ _, .nan => rfl
  | .fin _ _ _, .inf _ => rfl
  | .fin s m e, .fin t n g =>
    have signs : (s && t && m == 0 && n == 0) = (t && s && n == 0 && m == 0) := by
      rw [Bool.and_comm s t, Bool.and_assoc, Bool.and_comm (m == 0), ← Bool.and_assoc]
    simp only [Val_add, min_comm e g, add_comm, signs]

theorem addStrict_comm (f : Fmt) (code a b : Nat) : addStrict f code a b = addStrict f code b a := by
  rw [addStrict, Val_add_comm, ← addStrict]

/-! ### Values of one format -/

/-- A value as a format encodes it: the significand fits, and it has its hidden bit or the exponent of the subnormals (06 R228). A zero
may have any exponent, since an input that is flushed becomes one (06 R238). -/
def Val.InFormat (f : Fmt) : Val → Prop
  | .fin _ m e => m = 0 ∨ (m < 2 ^ f.p ∧ (e = f.emin - (f.p - 1 : Nat) ∨ f.emin - (f.p - 1 : Nat) ≤ e ∧ 2 ^ (f.p - 1) ≤ m))
  | _ => True

/-- A format has a hidden bit, and exponent field 1 means its smallest normal exponent. -/
theorem fmtOf_smallest {code : Nat} {f : Fmt} (h : fmtOf code = some f) : 0 < f.p ∧ f.emin = 1 - f.bias := by
  unfold fmtOf at h
  split at h <;> cases h <;> exact ⟨by decide, by decide⟩

theorem decodeF_inFormat {f : Fmt} (wide : 0 < f.p) (smallest : f.emin = 1 - f.bias) (x : Nat) : (decodeF f x).InFormat f := by
  have double : 2 ^ f.p = 2 ^ (f.p - 1) * 2 := by rw [← pow_succ, Nat.sub_add_cancel wide]
  have small : bits (x >>> f.pad) 0 (f.p - 1) < 2 ^ (f.p - 1) := Nat.mod_lt _ (by positivity)
  unfold decodeF
  dsimp only
  split
  · split <;> exact trivial
  split
  · exact trivial
  split
  · exact .inr ⟨by omega, .inl rfl⟩
  next normal =>
    have := Nat.pos_of_ne_zero fun e => normal (beq_iff_eq.2 e)
    exact .inr ⟨by omega, .inr ⟨by omega, by omega⟩⟩

/-- A format without integers or pairs is decoded at scale byte 127 as if it had no scale. -/
theorem decodeEl_eq_decodeF {code : Nat} {f : Fmt} (h : fmtOf code = some f) (x : Nat) : decodeEl code 127 x = decodeF f x := by
  have unscaled : ∀ v : Val, Val_scale ((127 : Nat) - 127) v = v := fun v => by cases v <;> simp [Val_scale]
  unfold fmtOf at h
  split at h
  case h_5 | h_6 => cases h; exact unscaled _
  case h_7 => cases h
  all_goals cases h; rfl

theorem decodeFlush_inFormat {code : Nat} {f : Fmt} (h : fmtOf code = some f) (x : Nat) : (decodeFlush code 127 x).1.InFormat f := by
  obtain ⟨wide, smallest⟩ := fmtOf_smallest h
  have decoded := decodeF_inFormat wide smallest x
  unfold decodeFlush
  rw [decodeEl_eq_decodeF h]
  split
  next e =>
    rw [e] at decoded
    split
    · exact .inl rfl
    · exact decoded
  next => exact decoded

/-! ### Magnitudes -/

theorem magLt_asymm {m n : Nat} {e g : Int} (h : magLt m e n g = true) : magLt n g m e = false := by
  simp only [magLt, decide_eq_true_eq, decide_eq_false_iff_not, min_comm g e] at *
  omega

theorem magLt_zero_left {n : Nat} {e g : Int} (h : n ≠ 0) : magLt 0 e n g = true := by
  simpa [magLt, Nat.shiftLeft_eq] using Nat.pos_of_ne_zero h

/-- In one format a magnitude has one significand and one exponent. -/
theorem eq_of_not_magLt_of_le {f : Fmt} {s t : Bool} {m n : Nat} {e g : Int} (wide : 0 < f.p) (x : (Val.fin s m e).InFormat f)
    (y : (Val.fin t n g).InFormat f) (hm : m ≠ 0) (hn : n ≠ 0) (less : magLt m e n g = false) (more : magLt n g m e = false)
    (le : e ≤ g) : m = n ∧ e = g := by
  have double : 2 ^ f.p = 2 ^ (f.p - 1) * 2 := by rw [← pow_succ, Nat.sub_add_cancel wide]
  obtain x | ⟨fits, low⟩ := x
  · exact absurd x hm
  obtain y | ⟨-, high⟩ := y
  · exact absurd y hn
  have same : m = n * 2 ^ (g - e).toNat := by
    simp only [magLt, min_comm g e, min_eq_left le, sub_self, decide_eq_false_iff_not, Nat.shiftLeft_eq, Int.toNat_zero, pow_zero,
      mul_one] at less more
    omega
  obtain eq | lt := eq_or_lt_of_le le
  · subst eq
    exact ⟨by simpa using same, rfl⟩
  · have hidden : 2 ^ (f.p - 1) ≤ n := by omega
    have two : 2 ^ 1 ≤ 2 ^ (g - e).toNat := Nat.pow_le_pow_right (by decide) (by omega)
    have := Nat.mul_le_mul hidden two
    omega

theorem eq_of_not_magLt {f : Fmt} {s t : Bool} {m n : Nat} {e g : Int} (wide : 0 < f.p) (x : (Val.fin s m e).InFormat f)
    (y : (Val.fin t n g).InFormat f) (hm : m ≠ 0) (hn : n ≠ 0) (less : magLt m e n g = false) (more : magLt n g m e = false) :
    m = n ∧ e = g := by
  obtain le | le := le_total e g
  · exact eq_of_not_magLt_of_le wide x y hm hn less more le
  · obtain ⟨rfl, rfl⟩ := eq_of_not_magLt_of_le wide y x hn hm more less le
    exact ⟨rfl, rfl⟩

/-! ### Fast addition -/

/-- The fast addition once the larger operand stands first: the other is cut at two bits below the first one's last place (06 R253). -/
def alignedSum (f : Fmt) (code : Nat) (s : Bool) (m : Nat) (e : Int) (t : Bool) (n : Nat) (g : Int) : Rnd :=
  if m == 0 then ⟨zeroSum f s t, false, false⟩
  else
    let qe := max (magExp m e) f.emin - (f.p : Int) + 1 - 2
    roundF f code false 0 0 (Val_add (.fin s m e) (.fin t (quantum n g qe).1 qe))

theorem addFast_eq_alignedSum (f : Fmt) (code : Nat) (s : Bool) (m : Nat) (e : Int) (t : Bool) (n : Nat) (g : Int) :
    addFast f code (.fin s m e) (.fin t n g) =
      if magLt m e n g then alignedSum f code t n g s m e else alignedSum f code s m e t n g := by
  cases h : magLt m e n g <;> simp only [addFast, h] <;> rfl

theorem addFast_special {f : Fmt} {code : Nat} {a b : Val} (h : Val_isFin a = false ∨ Val_isFin b = false) :
    addFast f code a b = roundF f code false 0 0 (Val_add a b) := by
  unfold addFast
  split
  · obtain h | h := h <;> cases h
  · rfl

/-- A value and its negation, cut at or below its last place, are +0 (06 R242). -/
theorem Val_add_cut_neg {s t : Bool} {m : Nat} {e qe : Int} (signs : s ≠ t) (below : qe ≤ e) :
    Val_add (.fin s m e) (.fin t (quantum m e qe).1 qe) = .fin false 0 0 := by
  have cut : quantum m e qe = (m <<< (e - qe).toNat, 0, 0) := if_pos below
  obtain rfl := Bool.eq_not.2 signs.symm
  rw [cut]
  cases s <;> simp [Val_add, min_eq_right below]

/-- Operands of one magnitude may stand in either order. -/
theorem alignedSum_swap {f : Fmt} {m : Nat} {e : Int} {s : Bool} (code : Nat) (t : Bool) (x : (Val.fin s m e).InFormat f)
    (hm : m ≠ 0) : alignedSum f code s m e t m e = alignedSum f code t m e s m e := by
  obtain rfl | signs := eq_or_ne s t
  · rfl
  obtain x | ⟨fits, low⟩ := x
  · exact absurd x hm
  have below : max (magExp m e) f.emin - (f.p : Int) + 1 - 2 ≤ e := by
    have := (Nat.log2_lt hm).2 fits
    unfold magExp
    omega
  simp only [alignedSum, Val_add_cut_neg signs below, Val_add_cut_neg signs.symm below]
  rw [if_neg (by simpa using hm), if_neg (by simpa using hm)]

theorem alignedSum_zero (f : Fmt) (code : Nat) (s : Bool) (e : Int) (t : Bool) (g : Int) :
    alignedSum f code s 0 e t 0 g = alignedSum f code t 0 g s 0 e := by
  simp [alignedSum, zeroSum, Bool.and_comm]

theorem addFast_comm_fin {f : Fmt} {s t : Bool} {m n : Nat} {e g : Int} (code : Nat) (wide : 0 < f.p)
    (x : (Val.fin s m e).InFormat f) (y : (Val.fin t n g).InFormat f) :
    addFast f code (.fin s m e) (.fin t n g) = addFast f code (.fin t n g) (.fin s m e) := by
  rw [addFast_eq_alignedSum, addFast_eq_alignedSum]
  cases less : magLt m e n g
  case true => simp [magLt_asymm less]
  cases more : magLt n g m e
  case true => simp
  by_cases hm : m = 0
  · subst hm
    obtain rfl : n = 0 := by
      by_contra hn
      rw [magLt_zero_left hn] at less
      cases less
    simpa using alignedSum_zero f code s e t g
  · have hn : n ≠ 0 := by
      rintro rfl
      rw [magLt_zero_left hm] at more
      cases more
    obtain ⟨rfl, rfl⟩ := eq_of_not_magLt wide x y hm hn less more
    simpa using alignedSum_swap code t x hm

theorem addFast_comm {f : Fmt} {a b : Val} (code : Nat) (wide : 0 < f.p) (x : a.InFormat f) (y : b.InFormat f) :
    addFast f code a b = addFast f code b a := by
  match a, b with
  | .fin _ _ _, .fin _ _ _ => exact addFast_comm_fin code wide x y
  | .nan, b => rw [addFast_special (.inl rfl), addFast_special (.inr rfl), Val_add_comm]
  | .inf _, b => rw [addFast_special (.inl rfl), addFast_special (.inr rfl), Val_add_comm]
  | a, .nan => rw [addFast_special (.inr rfl), addFast_special (.inl rfl), Val_add_comm]
  | a, .inf _ => rw [addFast_special (.inr rfl), addFast_special (.inl rfl), Val_add_comm]

theorem addNative_bits_comm (code a b : Nat) : (addNative code a b).bits = (addNative code b a).bits := by
  unfold addNative
  split
  next f h =>
    show (addFast f code _ _).bits = (addFast f code _ _).bits
    exact congrArg Rnd.bits (addFast_comm code (fmtOf_smallest h).1 (decodeFlush_inFormat h a) (decodeFlush_inFormat h b))
  next => rfl

/-! ### INT32 addition -/

/-- An integer as an exact value. -/
def Val.ofInt (z : Int) : Val := .fin (z < 0) z.natAbs 0

theorem decodeI_toNat (a : BitVec 32) : decodeI 32 a.toNat = Val.ofInt a.toInt := by
  have := a.isLt
  rw [decodeI, Val.ofInt, BitVec.toInt_eq_toNat_cond, Nat.mod_eq_of_lt a.isLt]
  by_cases h : a.toNat < 2 ^ 31
  · rw [if_pos h, if_pos (by omega)]
    simp
  · rw [if_neg h, if_neg (by omega)]
    congr 1
    · simp; omega
    · omega

theorem Val_add_ofInt (x y : Int) : Val_add (.ofInt x) (.ofInt y) = .ofInt (x + y) := by
  have signed : ∀ z : Int, (if decide (z < 0) = true then (-1 : Int) else 1) * (z.natAbs : Int) = z := fun z => by
    simp only [decide_eq_true_eq]; split <;> omega
  simp only [Val.ofInt, Val_add, min_self, sub_self, Int.toNat_zero, Nat.shiftLeft_zero, signed]
  split
  next zero =>
    rw [beq_iff_eq.1 zero]
    simp
    omega
  next => rfl

/-- An integer rounds to the nearest that INT32 holds (06 R252). -/
theorem roundI_ofInt (z : Int) : (roundI 32 (2 ^ 31) (2 ^ 31 - 1) 0 0 (.ofInt z)).bits =
    (BitVec.ofInt 32 (max (-(2 ^ 31)) (min (2 ^ 31 - 1) z))).toNat := by
  have whole : quantum z.natAbs 0 0 = (z.natAbs, 0, 0) := by simp [quantum]
  simp only [roundI, Val.ofInt, whole, roundUp, BEq.rfl, if_true, b1, Bool.false_eq_true, if_false, Nat.add_zero, decide_eq_true_eq,
    BitVec.toNat_ofInt]
  split <;> split <;> simp only <;> omega

theorem addInt32_eq (a b : BitVec 32) : (addInt32 a.toNat b.toNat).bits =
    (BitVec.ofInt 32 (max (-(2 ^ 31)) (min (2 ^ 31 - 1) (a.toInt + b.toInt)))).toNat := by
  rw [addInt32, decodeI_toNat, decodeI_toNat, Val_add_ofInt, roundI_ofInt]

theorem addInt32_comm (a b : Nat) : addInt32 a b = addInt32 b a := by
  rw [addInt32, Val_add_comm, ← addInt32]

/-! ### Combinations -/

theorem combineEl_orderFree {x : NumCtx} (h : x.orderFree = true) (poisoned : Bool) (a b : Nat) :
    (combineEl x poisoned a b).bits = if poisoned then a ||| b else (a + b) % 2 ^ wordBits x.acc := by
  rw [combineEl, if_pos h]
  split <;> rfl

theorem combineEl_orderFree_comm {x : NumCtx} (h : x.orderFree = true) (poisoned : Bool) (a b : Nat) :
    (combineEl x poisoned a b).bits = (combineEl x poisoned b a).bits := by
  rw [combineEl_orderFree h, combineEl_orderFree h, Nat.or_comm, Nat.add_comm]

/-- 06 R261: an order-free sum may be bracketed in any way. -/
theorem combineEl_orderFree_assoc {x : NumCtx} (h : x.orderFree = true) (poisoned : Bool) (a b c : Nat) :
    (combineEl x poisoned (combineEl x poisoned a b).bits c).bits =
      (combineEl x poisoned a (combineEl x poisoned b c).bits).bits := by
  simp only [combineEl_orderFree h]
  cases poisoned
  · simp [Nat.add_assoc]
  · exact Nat.or_assoc a b c

/-- A combination that compares no values and adds no pairs has the same bits in either order. -/
theorem combineEl_bits_comm {x : NumCtx} (poisoned : Bool) (a b : Nat) (ordered : x.orderFree = false) (noMax : x.operator ≠ 1)
    (noMin : x.operator ≠ 2) (noAbs : x.operator ≠ 3) (noPair : x.acc ≠ 11 ∧ x.acc ≠ 12) :
    (combineEl x poisoned a b).bits = (combineEl x poisoned b a).bits := by
  unfold combineEl
  simp only [ordered, Bool.false_eq_true, if_false]
  split
  · contradiction
  · contradiction
  · contradiction
  · exact Nat.and_comm a b
  · exact Nat.or_comm a b
  · rw [addInt32_comm]
  · split
    · rw [addInt32_comm]
    split
    next pair => simp [noPair] at pair
    split
    · rw [addStrict_comm]
    · exact addNative_bits_comm x.acc a b

end Sys2Proof.Machine
end
section
/-! PROOFS. The cut of a chunk (05 R510; 10 R375): the pieces that `cutFrom` has made so far are a cut of the grains that it has passed,
and the statement about checks, sums and cuts. -/

namespace Sys2Proof.Machine

/-- Numbered pieces that tile `k` grains from `g0`, each of 1 to `mx` grains of one signature; the last ends where the tiled grains do. -/
structure IsCut (sig : Nat → List Nat) (mx g0 k : Nat) (ps : List Piece) : Prop where
  tiles : ps.flatMap (fun p => List.range' p.grain p.grains) = List.range' g0 k
  numbered : ps.map (·.idx) = List.range ps.length
  bounded : ∀ p ∈ ps, 1 ≤ p.grains ∧ p.grains ≤ mx
  uniform : ∀ p ∈ ps, ∀ j, j < p.grains → sig (p.grain + j) = sig p.grain
  ends : ∀ p ∈ ps.getLast?, p.grain + p.grains = g0 + k

section
variable {sig : Nat → List Nat} {mx g0 k : Nat} {ps : List Piece}

theorem IsCut.nil : IsCut sig mx g0 0 [] := ⟨rfl, rfl, by simp, by simp, by simp⟩

/-- The next grain begins a piece. -/
theorem IsCut.begin (h : IsCut sig mx g0 k ps) (pos : 1 ≤ mx) :
    IsCut sig mx g0 (k + 1) (ps ++ [{ idx := ps.length, grain := g0 + k, grains := 1 }]) where
  tiles := by rw [List.flatMap_append, h.tiles]; simp [List.range'_concat]
  numbered := by simp [h.numbered, List.range_succ]
  bounded := by simpa [or_imp, forall_and, pos] using h.bounded
  uniform := by simpa [or_imp, forall_and] using h.uniform
  ends := by simp; omega

theorem IsCut.idx_last {p : Piece} (h : IsCut sig mx g0 k (ps ++ [p])) : p.idx = ps.length := by
  have numbered := h.numbered
  simp only [List.map_append, List.length_append, List.length_singleton, List.range_succ] at numbered
  simpa using (List.append_inj' numbered rfl).2

/-- The next grain joins the last piece, whose signature it has. -/
theorem IsCut.join {p : Piece} (h : IsCut sig mx g0 k (ps ++ [p])) (room : p.grains < mx) (same : sig p.grain = sig (g0 + k)) :
    IsCut sig mx g0 (k + 1) (ps ++ [{ p with grains := p.grains + 1 }]) := by
  have ends : p.grain + p.grains = g0 + k := h.ends p (by simp)
  refine ⟨?tiles, ?numbered, fun q hq => ?bounded, fun q hq j hj => ?uniform, ?ends⟩
  case tiles =>
    have tiles := h.tiles
    simp only [List.flatMap_append, List.flatMap_singleton] at tiles ⊢
    rw [List.range'_concat, List.range'_concat, ← List.append_assoc, tiles, one_mul, one_mul, ends]
  case numbered => simpa using h.numbered
  case bounded =>
    obtain hq | hq := List.mem_append.1 hq
    · exact h.bounded q (List.mem_append_left _ hq)
    · obtain rfl := List.mem_singleton.1 hq
      exact ⟨Nat.le_add_left 1 _, room⟩
  case uniform =>
    obtain hq | hq := List.mem_append.1 hq
    · exact h.uniform q (List.mem_append_left _ hq) j hj
    · obtain rfl := List.mem_singleton.1 hq
      obtain old | rfl := Nat.lt_succ_iff_lt_or_eq.1 hj
      · exact h.uniform p (by simp) j old
      · exact (congrArg sig ends).trans same.symm
  case ends => simp; omega

/-- What `cutFrom` has made so far stays a cut to its end. -/
theorem cutFrom_isCut (pos : 1 ≤ mx) (count : Nat) {acc : List Piece} (h : IsCut sig mx g0 k acc.reverse) :
    IsCut sig mx g0 (k + count) (cutFrom sig mx count (g0 + k) acc) := by
  induction count generalizing k acc with
  | zero => exact h
  | succ count ih =>
    rw [show k + (count + 1) = k + 1 + count by omega]
    match acc with
    | [] =>
      rw [cutFrom]
      exact ih (h.begin pos)
    | p :: rest =>
      rw [List.reverse_cons] at h
      rw [cutFrom]
      split
      next joins =>
        simp only [Bool.and_eq_true, decide_eq_true_eq, beq_iff_eq] at joins
        refine ih ?_
        rw [List.reverse_cons]
        exact h.join joins.1 joins.2
      next =>
        have index : p.idx + 1 = (rest.reverse ++ [p]).length := by simp [h.idx_last]
        refine ih ?_
        rw [List.reverse_cons, List.reverse_cons, index]
        exact h.begin pos

end

/-- 05 R510; 10 R375: the parcels of a chunk are a cut of its grains by the parts of every stage. -/
theorem chunkPieces_isCut {x : Lay} {n c g0 gc : Nat} (ks : List Scheme) (mx : Nat) (h : chunkGrains (grains n) x.m c = (g0, gc)) :
    IsCut (fun g => ks.map fun k => partOf k.parts gc (g - g0)) (max 1 mx) g0 gc (chunkPieces x ks n mx c) := by
  unfold chunkPieces
  rw [h]
  simpa using cutFrom_isCut (le_max_left 1 mx) gc (acc := []) IsCut.nil

/-- Settles O60: the check values by evaluation, the registers by the gate of reads, the sums by the symmetry of each addition, and the
parcels of a chunk by the cut that `cutFrom` makes. -/
theorem checksSumsAndCutsAreAsDefined : Obligations.ChecksSumsAndCutsAreAsDefined := by
  unfold Obligations.ChecksSumsAndCutsAreAsDefined
  refine ⟨⟨crc16_check, crc64_check, draw_check_zero, draw_check_key⟩, ?registers,
    fun x poisoned a b c => ⟨?either, fun free => combineEl_orderFree_assoc free poisoned a b c⟩, addInt32_eq, ?cut⟩
  case registers =>
    rintro m off s x ready thawed rfl
    rw [← testDraw_eq]
    exact ⟨exec_rcRead_testOutLo ready thawed, exec_rcRead_testOutHi ready thawed⟩
  case either =>
    intro h
    cases free : x.orderFree
    · rw [free] at h
      obtain h | ⟨noMax, noMin, noAbs, noPair⟩ := h
      · cases h
      · exact combineEl_bits_comm poisoned a b free noMax noMin noAbs noPair
    · exact combineEl_orderFree_comm free poisoned a b
  case cut =>
    rintro x ks n mx c g0 gc _ chunk rfl
    have cut := chunkPieces_isCut ks mx chunk
    refine ⟨by simpa only [List.range'_eq_map_range] using cut.tiles, cut.numbered, fun p hp => ?_⟩
    obtain ⟨some_, most⟩ := cut.bounded p hp
    exact ⟨some_, most, fun k hk j hj => List.map_inj_left.1 (cut.uniform p hp j hj) k hk⟩

end Sys2Proof.Machine
end
section
/-! PROOFS. Barrier wires (08 R326, R328, R329, R337): what the end of a generation leaves of the wire, and the BARRIER that goes on. -/

namespace Sys2Proof.Machine

/-! ### The entry of the engine, and the end of a generation (08 R326, R328) -/

/-- The wire in its next generation. -/
def Weir.nextGen (x : Weir) (tally : Nat) : Weir :=
  { x with sense := !x.sense, gen := (x.gen + 1) % 2 ^ 32, and_ := false, lastTally := tally }

theorem completeGen_eq (s : State) (w : Nat) : completeGen s w = s.setWeir w ((s.weir w).nextGen s.stamp) := rfl

/-- Where the engine takes no part its input counts as entered. -/
theorem Weir.entered_apart {x : Weir} (apart : x.engine = false) : x.entered = true := by
  simp [Weir.entered, Weir.barIn, apart]

/-- In the next generation an engine that takes part has entered where it had not. -/
theorem Weir.entered_nextGen {x : Weir} (tally : Nat) (part : x.engine = true) : (x.nextGen tally).entered = !x.entered := by
  cases sense : x.sense <;> cases input : x.input <;> simp [Weir.entered, Weir.barIn, Weir.nextGen, part, sense, input]

/-! ### The BARRIER that waits for its release (08 R329) -/

/-- The BARRIERs that wait for the release of a wire, or for the entry of its dies. -/
def Op.waitsOnWire (o : Op) (n : Nat) : Bool :=
  o.desc.opcode == opBarrier && o.running && o.ended.isNone && bit o.desc.aux16 6 && bits o.desc.aux16 0 6 == n &&
    (o.bar == 0 || o.bar == 2)

theorem Op.opcode_of_waitsOnWire {o : Op} {n : Nat} (h : o.waitsOnWire n = true) : o.desc.opcode = 0x0A := by
  simp only [Op.waitsOnWire, Bool.and_eq_true, beq_iff_eq] at h
  obtain ⟨⟨⟨⟨⟨opcode, -⟩, -⟩, -⟩, -⟩, -⟩ := h
  exact opcode

/-- What a BARRIER does when SENSE of its wire changes. -/
def barrierGoesOn (s : State) (o : Op) : State :=
  if o.bar == 0 then barrierStep (s.updOp o.q o.c fun o => { o with bar := 1 }) o.q o.c
  else settleOp (s.updOp o.q o.c fun o => { o with bar := 3, ready := true }) o.q o.c

theorem senseChanged_eq (s : State) (n : Nat) : senseChanged s n = (s.ops.filter (·.waitsOnWire n)).foldl barrierGoesOn s := rfl

theorem senseChanged_none {s : State} (none : ∀ o ∈ s.ops, o.desc.opcode ≠ 0x0A) (n : Nat) : senseChanged s n = s := by
  have unwaited : s.ops.filter (·.waitsOnWire n) = [] := List.filter_eq_nil_iff.2 fun o mem => by
    simp [Op.waitsOnWire, opBarrier, none o mem]
  rw [senseChanged_eq, unwaited]
  rfl

/-- The entry with its BARRIER complete. -/
def Op.barrierDone (o : Op) : Op := { o with bar := 3, ready := true, settled := true }

theorem settleOp_barrier {s : State} {q c : Nat} {o : Op} (found : s.op? q c = some o) (ready : o.ready = true) (open_ : o.ended = none)
    (opcode : o.desc.opcode = 0x0A) : settleOp s q c = s.updOp q c fun o => { o with settled := true } := by
  simp [settleOp, found, ready, open_, opcode, opBarrier]

/-- The release over the wire completes the entry, and touches no wire. -/
theorem barrierGoesOn_done {s : State} {o y : Op} (found : s.op? o.q o.c = some y) (opcode : y.desc.opcode = 0x0A)
    (open_ : y.ended = none) (waits : o.bar = 2) : (barrierGoesOn s o).op? o.q o.c = some y.barrierDone ∧
      (barrierGoesOn s o).sync = s.sync := by
  have found' : (s.updOp o.q o.c fun o => { o with bar := 3, ready := true }).op? o.q o.c = some { y with bar := 3, ready := true } :=
    op?_updOp_found found _ fun _ => ⟨rfl, rfl⟩
  rw [barrierGoesOn, if_neg (by simp [waits]), settleOp_barrier found' rfl open_ opcode]
  exact ⟨op?_updOp_found found' _ fun _ => ⟨rfl, rfl⟩, rfl⟩

/-- Each of the waiting BARRIERs is `o`, which goes on once or, listed twice, again with the same end. -/
theorem foldl_barrierGoesOn {o : Op} {l : List Op} {s : State} (own : ∀ y ∈ l, y = o) (opcode : o.desc.opcode = 0x0A)
    (open_ : o.ended = none) (waits : o.bar = 2) (found : s.op? o.q o.c = some o ∧ l ≠ [] ∨ s.op? o.q o.c = some o.barrierDone) :
    (l.foldl barrierGoesOn s).op? o.q o.c = some o.barrierDone ∧ (l.foldl barrierGoesOn s).sync = s.sync := by
  induction l generalizing s with
  | nil => exact ⟨found.resolve_left fun h => h.2 rfl, rfl⟩
  | cons y l ih =>
    obtain rfl : y = o := own y List.mem_cons_self
    have once : (barrierGoesOn s y).op? y.q y.c = some y.barrierDone ∧ (barrierGoesOn s y).sync = s.sync := by
      rcases found with ⟨found, -⟩ | found
      · exact barrierGoesOn_done found opcode open_ waits
      · exact barrierGoesOn_done (y := y.barrierDone) found opcode open_ waits
    obtain ⟨done, sync⟩ := ih (fun z mem => own z (List.mem_cons_of_mem _ mem)) (.inr once.1)
    exact ⟨done, sync.trans once.2⟩

/-- The only started BARRIER, which waits for the release over the wire, completes. -/
theorem senseChanged_releases {s : State} {o : Op} {n : Nat} (mem : o ∈ s.ops) (opcode : o.desc.opcode = 0x0A)
    (only : ∀ y ∈ s.ops, y.desc.opcode = 0x0A → y = o) (found : s.op? o.q o.c = some o) (running : o.running = true)
    (open_ : o.ended = none) (wired : bit o.desc.aux16 6 = true) (wire : bits o.desc.aux16 0 6 = n) (waits : o.bar = 2) :
    (senseChanged s n).op? o.q o.c = some o.barrierDone ∧ (senseChanged s n).sync = s.sync := by
  have listed : o ∈ s.ops.filter (·.waitsOnWire n) :=
    List.mem_filter.2 ⟨mem, by simp [Op.waitsOnWire, opcode, opBarrier, running, open_, wired, wire, waits]⟩
  rw [senseChanged_eq]
  refine foldl_barrierGoesOn (fun y memY => ?_) opcode open_ waits (.inl ⟨found, List.ne_nil_of_mem listed⟩)
  obtain ⟨started, asks⟩ := List.mem_filter.1 memY
  exact only y started (Op.opcode_of_waitsOnWire asks)

/-! ### The commands -/

theorem exec_barrierAndRise (w : Fin 64) (s : State) : exec (.barrierAndRise w) s =
    .next (State.plain s (if (s.weir w).entered then senseChanged (completeGen s w) w else s)) := rfl

theorem exec_barrierAndRise_entered {w : Fin 64} {s : State} (entered : (s.weir w).entered = true) :
    exec (.barrierAndRise w) s = .next (State.plain s (senseChanged (completeGen s w) w)) := by
  rw [exec_barrierAndRise, if_pos entered]

/-- 08 R337: FORCE completes the generation whatever the wire. -/
theorem exec_force_accepted {m : Mgmt} {w : Fin 64} {s : State} (may : State.MayWrite s m) :
    exec (.force m w) s = .next (State.accepted s m (senseChanged (completeGen s w) w)) := by
  refine mgmtWrite_accepted may (congrArg some ?_)
  have clear : bit (0x1000000000 : W64).toNat 35 = false := by decide
  have force : bit (0x1000000000 : W64).toNat 36 = true := by decide
  rw [writeWeir, clear, force]
  rfl

/-- Settles O40: AND counts only where the engine has entered; `completeGen` inverts SENSE, and the one BARRIER that waits is complete. -/
theorem barrierWiresCompleteGenerations : Obligations.BarrierWiresCompleteGenerations := by
  unfold Obligations.BarrierWiresCompleteGenerations
  rintro w m s t x rfl rfl
  have enters : (s.weir w).engine = false ∨ (s.weir w).entered = true → (s.weir w).entered = true := fun h =>
    h.elim Weir.entered_apart id
  refine ⟨fun _ out => ?out, fun none => ⟨fun h => ?and, fun may => ?force⟩, fun part => ?next, Weir.entered_apart, fun v other => ?other,
    fun o mem opcode only found running open_ wired wire waits h => ?released⟩
  case out => rw [exec_barrierAndRise, out]; rfl
  case and =>
    have same : senseChanged (completeGen s w) w = completeGen s w := senseChanged_none (s := completeGen s w) none w
    rw [exec_barrierAndRise_entered (enters h), same]
    rfl
  case force =>
    have same : senseChanged (completeGen s w) w = completeGen s w := senseChanged_none (s := completeGen s w) none w
    rw [exec_force_accepted may, same]
    rfl
  case next =>
    rw [State.weir_setWeir]
    exact Weir.entered_nextGen s.stamp part
  case other => exact State.weir_setWeir_other s _ other
  case released =>
    obtain ⟨done, sync⟩ := senseChanged_releases (s := completeGen s w) mem opcode only found running open_ wired wire waits
    exact ⟨_, exec_barrierAndRise_entered (enters h), State.weir_congr (congrArg SyncSt.weirs sync) w, done⟩

end Sys2Proof.Machine
end
section
/-! PROOFS. Counters by the owner, wake wires, mirrors and dumps (08 R316-R318, R336, R338, R345; 03 R117). -/

namespace Sys2Proof.Machine

theorem State.counter_congr {s t : State} (h : t.sync.counters = s.sync.counters) (n : Nat) : t.counter n = s.counter n := by
  rw [State.counter, h, ← State.counter]

@[simp] theorem State.accepted_counter (s t : State) (m : Mgmt) (n : Nat) : (State.accepted s m t).counter n = t.counter n := by
  rw [State.counter, State.accepted_sync, ← State.counter]

@[simp] theorem State.accepted_siphon (s t : State) (m : Mgmt) (i : Nat) : (State.accepted s m t).siphon i = t.siphon i := by
  rw [State.siphon, State.accepted_siphons, ← State.siphon]

/-! ### The owner's write of a value (08 R336) -/

/-- The counter that the owner has written. -/
def Counter.written (s : State) (x : Counter) (v agent : Nat) : Counter :=
  stampLast s { x with value := v, sat := false, under := false } ⟨kindOwner, s.me, agent⟩ false

/-- The state in which the value stands and the wire has pulsed, before the counter's waiters are checked. -/
def valuePut (s : State) (n v agent : Nat) : State :=
  pulse (s.setCounter n (markMirror n (s.counter n) ((s.counter n).written s v agent))) (wakeWire n ((s.counter n).written s v agent))

theorem setValue_eq (s : State) (n v agent : Nat) : setValue s n v agent = checkWaiters (valuePut s n v agent) n := rfl

theorem valuePut_puts (s : State) (n v agent : Nat) : s.PutsCounter (valuePut s n v agent) n ((s.counter n).written s v agent) := by
  obtain ⟨mirrorDirty, marked⟩ := markMirror_form n (s.counter n) ((s.counter n).written s v agent)
  rw [valuePut, marked]
  exact (setCounter_puts s n _ mirrorDirty).pulse _

/-- One waiter that is satisfied is released. -/
theorem checkWaiters_releases {s : State} {v : Waiter} (lone : s.sync.waiters = [v])
    (met : (s.counter v.counter).meets v.threshold = true) : checkWaiters s v.counter = rotateWaits (releaseWaiter s v) := by
  have mine : s.sync.waiters.filter (fun w => w.counter == v.counter) = [v] := by simp [lone]
  rw [checkWaiters, mine]
  simp [met]

/-- The state in which the waiter of a WAIT has left, and its entry is complete. -/
def waitReleased (s : State) (v : Waiter) : State :=
  (s.updSync fun y => { y with waiters := y.waiters.erase v, quietSince := none }).updOp v.q v.c fun o => { o with ready := true }

theorem waitReleased_op? (s : State) (v : Waiter) : (waitReleased s v).op? v.q v.c =
    (s.op? v.q v.c).map fun o => { o with ready := true } :=
  State.op?_updOp (s.updSync _) v.q v.c (fun o => { o with ready := true }) fun _ => ⟨rfl, rfl⟩

/-- The lone waiter, of a WAIT that does not consume, is satisfied. -/
theorem checkWaiters_wait {s : State} {v : Waiter} (lone : s.sync.waiters = [v])
    (met : (s.counter v.counter).meets v.threshold = true) (keeps : v.consume = false) (wait : v.rotate = false)
    (still : ∀ y ∈ s.ops, y.desc.opcode ≠ 0x07) : checkWaiters s v.counter = waitReleased s v := by
  have released : releaseWaiter s v = waitReleased s v := by simp [releaseWaiter, waitReleased, keeps, wait]
  rw [checkWaiters_releases lone met, released]
  exact rotateWaits_none (updOp_no_rotate still _ _ still)

section
variable {s : State} {m : Mgmt} {n : Fin 4096} {d : W64} (may : State.MayWrite s m) (still : ∀ y ∈ s.ops, y.desc.opcode ≠ 0x07)
include may

theorem exec_syncValueWrite_accepted : exec (.syncValueWrite m n d) s =
    .next (State.accepted s m (setValue s n (d.toNat % 2 ^ 32) m.agent)) := by
  refine mgmtWrite_accepted may ?_
  rw [bits_low32]

include still

theorem exec_syncValueWrite_sets (free : ∀ v ∈ s.sync.waiters, v.counter ≠ n.val) : ∃ t, exec (.syncValueWrite m n d) s = .next t ∧
    (t.counter n).value = d.toNat % 2 ^ 32 ∧ (t.counter n).sat = false ∧ (t.counter n).under = false ∧
    (t.counter n).lastKind = 9 ∧ (t.counter n).lastSource = m.agent ∧ (∀ k, k ≠ n.val → t.counter k = s.counter k) ∧
    t.ops = s.ops ∧ t.groups = s.groups := by
  obtain ⟨⟨queues, siphons, sync, rest⟩, waiters, ⟨_, counter⟩, others, -⟩ := valuePut_puts s n (d.toNat % 2 ^ 32) m.agent
  refine ⟨_, exec_syncValueWrite_accepted may, ?_⟩
  rw [setValue_eq, checkWaiters_none (by rw [waiters]; exact free), rotateWaits_none (by rw [rest]; exact still)]
  simp only [State.accepted_counter, State.accepted_ops, State.accepted_groups, counter]
  exact ⟨rfl, rfl, rfl, rfl, rfl, others, by rw [rest], by rw [rest]⟩

/-- The owner's value releases the WAIT that it satisfies. -/
theorem exec_syncValueWrite_releases {v : Waiter} (lone : s.sync.waiters = [v]) (own : v.counter = n.val)
    (enough : v.threshold ≤ d.toNat % 2 ^ 32) (keeps : v.consume = false) (wait : v.rotate = false) :
    ∃ t, exec (.syncValueWrite m n d) s = .next t ∧ t.sync.waiters = [] ∧
      t.op? v.q v.c = (s.op? v.q v.c).map fun o => { o with ready := true } := by
  obtain ⟨⟨queues, siphons, sync, rest⟩, waiters, ⟨_, counter⟩, -, -⟩ := valuePut_puts s n (d.toNat % 2 ^ 32) m.agent
  have met : ((valuePut s n (d.toNat % 2 ^ 32) m.agent).counter v.counter).meets v.threshold = true := by
    rw [own, counter, Counter.meets_iff]
    exact ⟨rfl, rfl, enough⟩
  have released := checkWaiters_wait (waiters.trans lone) met keeps wait (by rw [rest]; exact still)
  rw [own] at released
  refine ⟨_, exec_syncValueWrite_accepted may, ?_⟩
  rw [setValue_eq, released, State.accepted_sync, State.accepted_op?, waitReleased_op?]
  refine ⟨?_, by rw [rest]; rfl⟩
  rw [waitReleased, State.updOp_sync, State.updSync_sync, waiters, lone]
  exact List.erase_cons_head v []

end

/-! ### Wake pulses (08 R317, R318; 03 R117) -/

theorem wakeWaiters_none {s : State} {w : Nat} (free : ∀ v ∈ s.sync.waiters, wakeWire v.counter (s.counter v.counter) ≠ w) :
    wakeWaiters s w = s := by
  refine List.foldlRecOn (motive := fun t => t = s) _ _ rfl fun t same n mem => ?_
  obtain ⟨v, parked, rfl⟩ := List.mem_map.1 (List.mem_eraseDups.1 mem)
  subst same
  exact if_neg (by simp [free v parked])

/-- A queue that is not in its reset state is listed. -/
theorem mem_of_queue_state {s : State} {q : Nat} (h : (s.queue q).state ≠ .absent) : q ∈ s.queues.map (·.1) := by
  by_contra unlisted
  exact h (congrArg QueueSt.state (tabGet_of_unlisted _ unlisted))

theorem wakeQueues_unheard {s : State} {w : Nat} (deaf : ∀ q, (s.queue q).wakeEn = true → (s.queue q).wake ≠ w) :
    wakeQueues s w = s := by
  refine List.foldlRecOn (motive := fun t => t = s) _ _ rfl fun t same q _ => ?_
  subst same
  refine if_neg fun hears => ?_
  obtain ⟨on, wire⟩ := Bool.and_eq_true_iff.1 hears
  exact deaf q on (beq_iff_eq.1 wire)

/-- A queue listens to a wire and may fetch now. -/
structure QueueSt.WakesOn (x : QueueSt) (w : Nat) : Prop where
  on : x.wakeEn = true
  wire : x.wake = w
  running : x.state = .running
  free : x.batch = none
  askable : 0 < x.askable

theorem QueueSt.askable_pos {x : QueueSt} (room : x.buffered.length < 16) (left : diff32 x.fetch x.head < 2 ^ x.log2) :
    0 < x.askable := by
  have pos : x.fetch % 2 ^ x.log2 < 2 ^ x.log2 := Nat.mod_lt _ (Nat.two_pow_pos _)
  simp only [QueueSt.askable, QueueSt.room]
  omega

/-- What one queue does at a pulse. -/
def wakeQueue (w : Nat) (s : State) (q : Nat) : State := if (s.queue q).wakeEn && (s.queue q).wake == w then startFetch s q else s

theorem wakeQueue_queue_other (w : Nat) (s : State) {q p : Nat} (h : p ≠ q) : (wakeQueue w s q).queue p = s.queue p := by
  unfold wakeQueue
  split
  · exact startFetch_queue_other s h
  · rfl

theorem wakeQueue_fetches {w q : Nat} {s : State} (h : (s.queue q).WakesOn w) : ((wakeQueue w s q).queue q).batch.isSome = true := by
  obtain ⟨b, batch, -⟩ := startFetch_batch h.running h.free h.askable
  rw [wakeQueue, if_pos (by simp [h.on, h.wire]), batch]
  rfl

/-- An outstanding batch stays. -/
theorem wakeQueue_batch {w q p : Nat} {s : State} (out : (s.queue q).batch.isSome = true) :
    ((wakeQueue w s p).queue q).batch.isSome = true := by
  by_cases h : q = p
  · subst h
    have idle : startFetch s q = s := startFetch_idle (.inr (.inl fun none => by rw [none] at out; cases out))
    rw [wakeQueue, idle, ite_self]
    exact out
  · rwa [wakeQueue_queue_other w s h]

theorem foldl_wakeQueue_fetches {w q : Nat} {l : List Nat} {s : State}
    (h : (s.queue q).batch.isSome = true ∨ q ∈ l ∧ (s.queue q).WakesOn w) : ((l.foldl (wakeQueue w) s).queue q).batch.isSome = true := by
  induction l generalizing s with
  | nil => exact h.resolve_right fun h => nomatch h.1
  | cons p l ih =>
    refine ih ?_
    rcases h with out | ⟨listed, wakes⟩
    · exact .inl (wakeQueue_batch out)
    by_cases own : q = p
    · subst own
      exact .inl (wakeQueue_fetches wakes)
    · rw [wakeQueue_queue_other w s own]
      exact .inr ⟨(List.mem_cons.1 listed).resolve_left own, wakes⟩

theorem wakeQueues_fetches {w q : Nat} {s : State} (wakes : (s.queue q).WakesOn w) : ((wakeQueues s w).queue q).batch.isSome = true :=
  foldl_wakeQueue_fetches (.inr ⟨mem_of_queue_state (by simp [wakes.running]), wakes⟩)

theorem exec_wakePulse {w : Fin 256} {s : State} (free : ∀ v ∈ s.sync.waiters, wakeWire v.counter (s.counter v.counter) ≠ w.val) :
    exec (.wakePulse w) s = .next (State.plain s (wakeQueues s w)) := by
  show finishPlain s (wakeQueues (wakeWaiters s w) w) = _
  rw [wakeWaiters_none free, finishPlain_eq]

/-! ### Mirror words (08 R316) -/

/-- The mirror word of a counter. -/
def Counter.mirrorWord (x : Counter) : List Byte := leBytes 8 (x.value + at_ (b1 x.sat) 32 + at_ (b1 x.under) 33)

section
variable {s : State} {n : Fin 64}

theorem exec_hostMirrorWrite_due (on : s.sync.mirrorEn = true) (mirrored : (s.counter n).mirror = true)
    (dirty : (s.counter n).mirrorDirty = true) (late : (s.counter n).mirrorAt + 256 ≤ s.now) (aligned : s.sync.mirrorBase % 8 = 0) :
    exec (.hostMirrorWrite n) s = .next (enqueue
      (s.setCounter n { s.counter n with mirrorDirty := false, mirrorAt := s.now }) (siphonOf (s.sync.mirrorBase + 8 * n))
      { cls := 1, pur := .mirror n, addr := s.sync.mirrorBase + 8 * n, len := 8, queue := 257, data := (s.counter n).mirrorWord }) := by
  have length : (s.counter n).mirrorWord.length = 8 := length_leBytes 8 _
  have due : writeMirror s n = enqueueWrite (s.setCounter n { s.counter n with mirrorDirty := false, mirrorAt := s.now }) 1 257
      (s.sync.mirrorBase + 8 * n) (s.counter n).mirrorWord siphonOf fun _ => .mirror n := if_pos (by simp [on, mirrored, dirty, late])
  show finishPlain s (writeMirror s n) = _
  rw [due, enqueueWrite_within _ _ _ _ _ (by omega) (by omega), length]
  rfl

theorem exec_hostMirrorWrite_not_due (h : s.sync.mirrorEn = false ∨ (s.counter n).mirror = false ∨
    (s.counter n).mirrorDirty = false ∨ s.now < (s.counter n).mirrorAt + 256) : exec (.hostMirrorWrite n) s = .next s := by
  have waits : writeMirror s n = s := if_neg (by
    simp only [Bool.and_eq_true, decide_eq_true_eq]
    rintro ⟨⟨⟨on, mirrored⟩, dirty⟩, late⟩
    rcases h with h | h | h | h
    · rw [h] at on; cases on
    · rw [h] at mirrored; cases mirrored
    · rw [h] at dirty; cases dirty
    · omega)
  show finishPlain s (writeMirror s n) = _
  rw [waits]
  rfl

end

/-! ### Dumps (08 R338, R345) -/

/-- The first piece of a range begins at its address. -/
theorem mem_blocks_first {addr len : Nat} (some_ : 0 < len) : ∃ n, (addr, 0, n) ∈ blocks addr len := by
  refine ⟨min len (256 - addr % 256), ?_⟩
  simp [blocks, blocksFrom, Nat.ne_of_gt some_]

theorem length_dumpBytes_pos (s : State) (reason group : Nat) : 0 < (dumpBytes s reason group).length := by
  simp only [dumpBytes, List.length_append, length_leBytes]
  omega

section
variable {s : State}

theorem writeDump_written (on : s.sync.dumpEn = true) (free : s.sync.dumpFull = false) (idle : s.sync.dumpBusy = false)
    (reason group : Nat) : (writeDump s reason group).1 = enqueueWrite (s.updSync fun y => { y with dumpBusy := true }) 3 257
      s.sync.dumpAddr (dumpBytes s reason group) siphonOf fun _ => .dump := by
  rw [writeDump, if_pos (by simp [on, free, idle])]

theorem writeDump_missed (h : s.sync.dumpEn = false ∨ s.sync.dumpFull = true ∨ s.sync.dumpBusy = true) (reason group : Nat) :
    (writeDump s reason group).1 = { s with sync := { s.sync with dumpMissed := min 255 (s.sync.dumpMissed + 1) } } := by
  rw [writeDump, if_neg (by rcases h with h | h | h <;> simp [h])]
  rfl

theorem exec_dump_accepted {m : Mgmt} (may : State.MayWrite s m) :
    exec (.dump m) s = .next (State.accepted s m (writeDump s 0 0xFFFF).1) := by
  refine mgmtWrite_accepted may (congrArg some ?_)
  have asked : bit (1 : W64).toNat 0 = true := by decide
  rw [writeDumpCtrl, if_pos asked]

theorem exec_dump_written {m : Mgmt} (may : State.MayWrite s m) (on : s.sync.dumpEn = true) (free : s.sync.dumpFull = false)
    (idle : s.sync.dumpBusy = false) : ∃ t, exec (.dump m) s = .next t ∧ t.sync.dumpBusy = true ∧
      (∃ z ∈ (t.siphon (siphonOf s.sync.dumpAddr)).waiting, z.pur = .dump ∧ z.cls = 3 ∧ z.addr = s.sync.dumpAddr) ∧
      t.sync.counters = s.sync.counters ∧ t.ops = s.ops := by
  obtain ⟨len, first⟩ := mem_blocks_first (addr := s.sync.dumpAddr) (length_dumpBytes_pos s 0 0xFFFF)
  have waits := waiting_enqueueWrite (s.updSync fun y => { y with dumpBusy := true }) 3 257 s.sync.dumpAddr
    (dumpBytes s 0 0xFFFF) siphonOf (fun _ => .dump) _ first
  obtain ⟨siphons, form⟩ := enqueueWrite_form (s.updSync fun y => { y with dumpBusy := true }) 3 257 s.sync.dumpAddr
    (dumpBytes s 0 0xFFFF) siphonOf fun _ => .dump
  refine ⟨_, exec_dump_accepted may, ?_⟩
  rw [writeDump_written on free idle, State.accepted_sync, State.accepted_siphon, State.accepted_ops]
  refine ⟨?_, ⟨_, waits, rfl, rfl, rfl⟩, ?_, ?_⟩ <;> rw [form] <;> rfl

end

/-- Settles O41: a write through the gate puts the value and checks the waiters; a pulse makes the queues of its wire fetch; a due mirror
word is one write, and a dump begins with the write of its first block. -/
theorem syncObjectsByTheOwnerAndWires : Obligations.SyncObjectsByTheOwnerAndWires := by
  unfold Obligations.SyncObjectsByTheOwnerAndWires
  intro s
  refine ⟨fun m n d may still => ⟨exec_syncValueWrite_sets may still, fun v lone own enough keeps wait =>
      exec_syncValueWrite_releases may still lone own enough keeps wait⟩,
    fun w free => ⟨exec_wakePulse free, fun deaf => ?deaf, fun q on wire running batch room left => ?fetches⟩,
    fun n => ⟨exec_hostMirrorWrite_due, exec_hostMirrorWrite_not_due⟩,
    fun m may => ⟨exec_dump_written may, fun h => ?missed⟩⟩
  case deaf => rw [exec_wakePulse free, wakeQueues_unheard deaf]; rfl
  case fetches =>
    exact ⟨_, exec_wakePulse free, wakeQueues_fetches ⟨on, wire, running, batch, QueueSt.askable_pos room left⟩⟩
  case missed => rw [exec_dump_accepted may, writeDump_missed h]

end Sys2Proof.Machine
end
section
/-! PROOFS. Remote signals (08 R307, R308, R312, R323-R325): a signal that arrives, and one that is held, is refused or applied by
`applyRemote`; what of the state decides it is not touched by what taking the message in leaves. -/

namespace Sys2Proof.Machine

/-! ### What a change of a counter makes of the sync unit (08 R313, R317) -/

theorem pulse_form (s : State) (w : Nat) : ∃ queues siphons wakeOut,
    pulse s w = { s with queues, siphons, sync := { s.sync with wakeOut } } := by
  obtain ⟨⟨queues, siphons, rest⟩, -⟩ := wakeQueues_onlyFetches
    { s with sync := { s.sync with wakeOut := (s.sync.wakeOut.filter fun p => p.1 != w) ++ [(w, s.now)] } } w
  exact ⟨queues, siphons, _, rest⟩

theorem putCounter_form (s : State) (n : Nat) (old new : Counter) : ∃ queues siphons counters wakeOut,
    putCounter s n old new = { s with queues, siphons, sync := { s.sync with counters, wakeOut } } := by
  unfold putCounter
  dsimp only
  split
  · obtain ⟨queues, siphons, wakeOut, pulsed⟩ := pulse_form (s.setCounter n (markMirror n old new)) (wakeWire n new)
    exact ⟨queues, siphons, _, wakeOut, pulsed⟩
  · exact ⟨s.queues, s.siphons, _, s.sync.wakeOut, rfl⟩

theorem signalPut_form (s : State) (n : Nat) (sub : Bool) (amount : Nat) (src : ChangeSrc) :
    ∃ queues siphons counters wakeOut satSeen underSeen, signalPut s n sub amount src =
      { s with queues, siphons, sync := { s.sync with counters, wakeOut, satSeen, underSeen } } := by
  obtain ⟨queues, siphons, counters, wakeOut, put⟩ := putCounter_form s n (s.counter n)
    (stampLast s ((s.counter n).signalled sub amount) src false)
  rw [signalPut, put]
  exact ⟨queues, siphons, counters, wakeOut, _, _, rfl⟩

/-! ### What decides about a signal (08 R307, R308, R323) -/

theorem State.SameTable.presentIn {s t : State} (h : s.SameTable t) (g : Nat) : t.presentIn g = s.presentIn g := by
  rw [State.presentIn, State.presentIn, h.gr, h.ownEntry]

section
variable {s t : State} {g : Nat} (h : s.Stirred t g)
include h

theorem State.Stirred.counters : t.sync.counters = s.sync.counters := by obtain ⟨_, _, _, _, rfl⟩ := h.rest; rfl

theorem State.Stirred.waiters : t.sync.waiters = s.sync.waiters := by obtain ⟨_, _, _, _, rfl⟩ := h.rest; rfl

theorem State.Stirred.held : t.sync.held = s.sync.held := by obtain ⟨_, _, _, _, rfl⟩ := h.rest; rfl

theorem State.Stirred.stamp : t.stamp = s.stamp := by obtain ⟨_, _, _, _, rfl⟩ := h.rest; rfl

theorem State.Stirred.counter (n : Nat) : t.counter n = s.counter n := State.counter_congr h.counters n

theorem State.Stirred.presentIn (k : Nat) : t.presentIn k = s.presentIn k := h.sameTable.presentIn k

theorem State.Stirred.remoteRefusal (x : SignalMsg) : t.remoteRefusal x = s.remoteRefusal x := by
  simp only [State.remoteRefusal, h.counter, h.presentIn]

theorem State.Stirred.signalDue (x : SignalMsg) : t.signalDue x = s.signalDue x := by
  simp only [State.signalDue, State.started, h.ops, h.keeps GroupSt.step fun _ _ => rfl, h.keeps GroupSt.entryNo fun _ _ => rfl]

theorem State.Stirred.closed (x : SignalMsg) : ((t.group x.c.group).halted || (t.group x.c.group).ranOut x.c) =
    ((s.group x.c.group).halted || (s.group x.c.group).ranOut x.c) := by
  rw [h.keeps GroupSt.halted fun _ _ => rfl, h.keeps (GroupSt.ranOut · x.c) fun _ _ => rfl]

end

section
variable {s : State} {x : SignalMsg}

theorem remoteRefusal_absent (away : s.presentIn x.c.group = false) : s.remoteRefusal x = some 2 := by
  simp [State.remoteRefusal, away]

theorem remoteRefusal_unbound (here : s.presentIn x.c.group = true)
    (other : (s.counter x.counter).bound = false ∨ (s.counter x.counter).bind ≠ x.c.group) : s.remoteRefusal x = some 1 := by
  rcases other with other | other <;> simp [State.remoteRefusal, here, other]

theorem remoteRefusal_bound (here : s.presentIn x.c.group = true) (bound : (s.counter x.counter).bound = true)
    (bind : (s.counter x.counter).bind = x.c.group) : s.remoteRefusal x = none := by
  simp [State.remoteRefusal, here, bound, bind]

/-! ### A signal refused or applied (08 R308, R312, R323) -/

theorem ackSignal_form (s : State) (x : SignalMsg) (code : Nat) : ∃ links, ackSignal s x code = { s with links } := by
  unfold ackSignal
  split
  · exact sendTo_form s _ _
  · exact ⟨s.links, rfl⟩

theorem ackSignal_trades (trades : s.mayTrade = true) (code : Nat) : ackSignal s x code =
    sendTo s x.src (.ack { src := s.me, c := x.c, code, ref := x.ref }) := if_pos trades

/-- A remote signal has been refused for a reason: it stands in SYNC_REFUSAL, and no counter has changed. -/
structure State.Refuses (s t : State) (x : SignalMsg) (reason : Nat) : Prop where
  refused : t.sync.refused = true
  reason : t.sync.refReason = reason
  counter : t.sync.refCounter = x.counter
  kind : t.sync.refKind = 7
  die : t.sync.refDie = x.src
  counters : t.sync.counters = s.sync.counters
  held : t.sync.held = s.sync.held

theorem applyRemote_refuses {reason : Nat} (refused : s.remoteRefusal x = some reason) : s.Refuses (applyRemote s x) x reason := by
  unfold applyRemote
  rw [refused]
  obtain ⟨links, answered⟩ := ackSignal_form (refuse s x.counter ⟨kindRemote, x.src, 0⟩ reason) x 3
  dsimp only
  rw [answered]
  exact ⟨rfl, rfl, rfl, rfl, rfl, rfl, rfl⟩

/-- A remote signal has been applied to its counter. -/
structure State.AppliesRemote (s t : State) (x : SignalMsg) : Prop where
  counter : ∃ mirrorDirty, t.counter x.counter =
    { stampLast s ((s.counter x.counter).signalled x.sub x.amount) ⟨kindRemote, x.src, 0⟩ false with mirrorDirty }
  held : t.sync.held = s.sync.held

section
variable (bound : s.remoteRefusal x = none) (sat : (s.counter x.counter).sat = false) (under : (s.counter x.counter).under = false)
  (free : ∀ v ∈ s.sync.waiters, v.counter ≠ x.counter) (still : ∀ y ∈ s.ops, y.desc.opcode ≠ 0x07)
include bound sat under free still

theorem applyRemote_applies : s.AppliesRemote (applyRemote s x) x := by
  unfold applyRemote
  rw [bound]
  dsimp only
  rw [applySignal_puts x.sub x.amount _ sat under free still]
  obtain ⟨_, _, _, _, _, _, put⟩ := signalPut_form s x.counter x.sub x.amount ⟨kindRemote, x.src, 0⟩
  obtain ⟨links, answered⟩ := ackSignal_form (signalPut s x.counter x.sub x.amount ⟨kindRemote, x.src, 0⟩) x
    (if (s.counter x.counter).misused x.sub x.amount then if x.sub then 2 else 1 else 0)
  rw [answered]
  exact ⟨(signalPut_puts s x.counter x.sub x.amount ⟨kindRemote, x.src, 0⟩).counter, by rw [put]⟩

end

/-! ### A signal that arrives (08 R323-R325) -/

section
variable (trades : s.mayTrade = true)
include trades

theorem recvSignal_absent (away : s.presentIn x.c.group = false) : recvSignal s x = applyRemote s x := by
  simp [recvSignal, trades, away]

variable (here : s.presentIn x.c.group = true)
include here

theorem recvSignal_ended (closed : ((s.group x.c.group).halted || (s.group x.c.group).ranOut x.c) = true) : recvSignal s x = s := by
  simp only [Bool.or_eq_true] at closed
  simp [recvSignal, trades, here, closed]

variable (going : ((s.group x.c.group).halted || (s.group x.c.group).ranOut x.c) = false)
include going

theorem recvSignal_stirs : recvSignal s x =
    if 1024 ≤ (groupStirs s x.c.group).sync.held.length then ackSignal (groupStirs s x.c.group) x 4
    else if ((groupStirs s x.c.group).remoteRefusal x).isSome || (groupStirs s x.c.group).signalDue x then
      applyRemote (groupStirs s x.c.group) x
    else (groupStirs s x.c.group).updSync fun y => { y with held := y.held ++ [⟨x, (groupStirs s x.c.group).stamp⟩] } := by
  simp only [recvSignal, trades, here, going, Bool.not_true, Bool.false_eq_true, if_true, if_false]

theorem recvSignal_busy (full : 1024 ≤ s.sync.held.length) : recvSignal s x = ackSignal (groupStirs s x.c.group) x 4 := by
  have st := groupStirs_stirred s x.c.group
  rw [recvSignal_stirs trades here going, if_pos (by rw [st.held]; exact full)]

theorem recvSignal_applies (room : s.sync.held.length < 1024) (h : (s.remoteRefusal x).isSome = true ∨ s.signalDue x = true) :
    recvSignal s x = applyRemote (groupStirs s x.c.group) x := by
  have st := groupStirs_stirred s x.c.group
  rw [recvSignal_stirs trades here going, if_neg (by rw [st.held]; omega), st.remoteRefusal, st.signalDue, if_pos (Bool.or_eq_true _ _ ▸ h)]

theorem recvSignal_holds (room : s.sync.held.length < 1024) (bound : s.remoteRefusal x = none) (early : s.signalDue x = false) :
    recvSignal s x = (groupStirs s x.c.group).updSync fun y => { y with held := y.held ++ [⟨x, s.stamp⟩] } := by
  have st := groupStirs_stirred s x.c.group
  rw [recvSignal_stirs trades here going, if_neg (by rw [st.held]; omega), st.remoteRefusal, st.signalDue, bound, early, st.stamp]
  rfl

end

theorem exec_remoteSignal (wf : x.wf = true) (s : State) :
    exec (.remoteSignal x) s = .next (State.plain s (recvSignal (takeIn s x.src (.signal x)) x)) := by
  show checked _ _ (finishPlain s _) = _
  rw [wf, checked_true, finishPlain_eq]

/-! ### A held signal (08 R312, R323, R324) -/

/-- The state in which the `i`-th held signal is held no longer. -/
def heldTaken (s : State) (i : Nat) : State := s.updSync fun y => { y with held := y.held.eraseIdx i }

variable {i : Nat} {h : Held} (found : s.sync.held[i]? = some h)
include found

theorem applyHeld_waits (early : s.signalDue h.m = false) : applyHeld s i = s := by
  simp [applyHeld, found, early]

/-- The only held signal of its counter comes before no other. -/
theorem applyHeld_alone (due : s.signalDue h.m = true)
    (alone : ∀ (j : Nat) k, s.sync.held[j]? = some k → j ≠ i → k.m.counter ≠ h.m.counter) :
    applyHeld s i = applyRemote (heldTaken s i) h.m := by
  have first : ((s.sync.held.zipIdx.filter fun (k, _) => k.m.counter == h.m.counter && s.signalDue k.m).any fun k =>
      heldBefore k (h, i)) = false := by
    refine List.any_eq_false.2 fun ⟨k, j⟩ mem => ?_
    obtain ⟨listed, rival⟩ := List.mem_filter.1 mem
    have at_ : s.sync.held[j]? = some k := List.mk_mem_zipIdx_iff_getElem?.1 listed
    by_cases same : j = i
    · subst same
      obtain rfl : k = h := Option.some.inj (at_.symm.trans found)
      simp [heldBefore]
    · exact absurd (beq_iff_eq.1 (Bool.and_eq_true_iff.1 rival).1) (alone j k at_ same)
  unfold applyHeld
  rw [found]
  dsimp only
  rw [due, first]
  rfl

end

theorem exec_heldSignalApply (i : Nat) (s : State) : exec (.heldSignalApply i) s = .next (State.plain s (applyHeld s i)) := rfl

/-! ### The commands -/

theorem stampLast_congr {s t : State} (stamp : t.stamp = s.stamp) : stampLast t = stampLast s := by
  funext x src ignored
  rw [stampLast, stampLast, stamp]

section
variable {s t : State} {x : SignalMsg}

/-- A signal that is refused after the message has been taken in. -/
theorem State.Refuses.arrives {u : State} {g reason : Nat} (h : t.Refuses u x reason) (st : s.Stirred t g) :
    s.Refuses (State.plain s u) x reason :=
  ⟨h.refused, h.reason, h.counter, h.kind, h.die, h.counters.trans st.counters, h.held.trans st.held⟩

theorem State.AppliesRemote.arrives {u : State} {g : Nat} (h : t.AppliesRemote u x) (st : s.Stirred t g) :
    s.AppliesRemote (State.plain s u) x := by
  obtain ⟨⟨mirrorDirty, counter⟩, held⟩ := h
  rw [st.counter, stampLast_congr st.stamp] at counter
  exact ⟨⟨mirrorDirty, counter⟩, held.trans st.held⟩

section
variable (wf : x.wf = true) (trades : s.mayTrade = true)
include wf trades

theorem exec_remoteSignal_absent (away : s.presentIn x.c.group = false) :
    ∃ t, exec (.remoteSignal x) s = .next t ∧ s.Refuses t x 2 := by
  have st : s.Stirred (takeIn s x.src (.signal x)) x.c.group := takeIn_stirred s x.src rfl
  have away' := (st.presentIn _).trans away
  refine ⟨_, exec_remoteSignal wf s, ?_⟩
  rw [recvSignal_absent (st.mayTrade.trans trades) away']
  exact (applyRemote_refuses (remoteRefusal_absent away')).arrives st

variable (here : s.presentIn x.c.group = true)
include here

theorem exec_remoteSignal_ended (closed : (s.group x.c.group).halted = true ∨ (s.group x.c.group).ranOut x.c = true) :
    exec (.remoteSignal x) s = .next (takeIn s x.src (.signal x)) := by
  have st : s.Stirred (takeIn s x.src (.signal x)) x.c.group := takeIn_stirred s x.src rfl
  rw [exec_remoteSignal wf s, recvSignal_ended (st.mayTrade.trans trades) ((st.presentIn _).trans here)
    ((st.closed x).trans (Bool.or_eq_true _ _ ▸ closed)), st.plain]

variable (runs : (s.group x.c.group).halted = false) (present : (s.group x.c.group).ranOut x.c = false)
include runs present

theorem exec_remoteSignal_busy (full : 1024 ≤ s.sync.held.length) : exec (.remoteSignal x) s = .next (State.plain s
    (sendTo (groupStirs (takeIn s x.src (.signal x)) x.c.group) x.src (.ack { src := s.me, c := x.c, code := 4, ref := x.ref }))) := by
  have st : s.Stirred (takeIn s x.src (.signal x)) x.c.group := takeIn_stirred s x.src rfl
  have st' := st.trans (groupStirs_stirred (takeIn s x.src (.signal x)) x.c.group)
  rw [exec_remoteSignal wf s, recvSignal_busy (st.mayTrade.trans trades) ((st.presentIn _).trans here)
    ((st.closed x).trans (Bool.or_eq_false_iff.2 ⟨runs, present⟩)) (by rw [st.held]; exact full),
    ackSignal_trades (st'.mayTrade.trans trades), st'.me]

theorem exec_remoteSignal_busy_keeps (full : 1024 ≤ s.sync.held.length) : ∃ t, exec (.remoteSignal x) s = .next t ∧
    t.sync.held = s.sync.held ∧ t.sync.counters = s.sync.counters := by
  have st : s.Stirred (takeIn s x.src (.signal x)) x.c.group := takeIn_stirred s x.src rfl
  have st' := st.trans (groupStirs_stirred (takeIn s x.src (.signal x)) x.c.group)
  have run := exec_remoteSignal_busy wf trades here runs present full
  obtain ⟨links, sent⟩ := sendTo_form (groupStirs (takeIn s x.src (.signal x)) x.c.group) x.src
    (.ack { src := s.me, c := x.c, code := 4, ref := x.ref })
  exact ⟨_, run, by rw [sent]; exact st'.held, by rw [sent]; exact st'.counters⟩

variable (room : s.sync.held.length < 1024)
include room

/-- What becomes of a signal of a present run for which there is room: it is held, or `applyRemote` refuses or applies it. -/
theorem exec_remoteSignal_taken : ∃ t, s.Stirred t x.c.group ∧
    ((s.remoteRefusal x).isSome = true ∨ s.signalDue x = true → exec (.remoteSignal x) s = .next (State.plain s (applyRemote t x))) ∧
    (s.remoteRefusal x = none → s.signalDue x = false → exec (.remoteSignal x) s =
      .next (State.plain s (t.updSync fun y => { y with held := y.held ++ [⟨x, s.stamp⟩] }))) := by
  have st : s.Stirred (takeIn s x.src (.signal x)) x.c.group := takeIn_stirred s x.src rfl
  have trades' := st.mayTrade.trans trades
  have here' := (st.presentIn x.c.group).trans here
  have going := (st.closed x).trans (Bool.or_eq_false_iff.2 ⟨runs, present⟩)
  have room' : (takeIn s x.src (.signal x)).sync.held.length < 1024 := by rw [st.held]; exact room
  refine ⟨_, st.trans (groupStirs_stirred _ _), fun h => ?_, fun bound early => ?_⟩
  · rw [exec_remoteSignal wf s, recvSignal_applies trades' here' going room' (by rwa [st.remoteRefusal, st.signalDue])]
  · rw [exec_remoteSignal wf s, recvSignal_holds trades' here' going room' ((st.remoteRefusal x).trans bound)
      ((st.signalDue x).trans early), st.stamp]

theorem exec_remoteSignal_unbound (other : (s.counter x.counter).bound = false ∨ (s.counter x.counter).bind ≠ x.c.group) :
    ∃ t, exec (.remoteSignal x) s = .next t ∧ s.Refuses t x 1 := by
  obtain ⟨t, st, taken, -⟩ := exec_remoteSignal_taken wf trades here runs present room
  have refused := remoteRefusal_unbound here other
  refine ⟨_, taken (.inl (by rw [refused]; rfl)), ?_⟩
  exact (applyRemote_refuses ((st.remoteRefusal x).trans refused)).arrives st

variable (bound : (s.counter x.counter).bound = true) (bind : (s.counter x.counter).bind = x.c.group)
include bound bind

theorem exec_remoteSignal_held (early : s.signalDue x = false) : ∃ t, exec (.remoteSignal x) s = .next t ∧
    t.sync.held = s.sync.held ++ [⟨x, s.stamp⟩] ∧ t.sync.counters = s.sync.counters ∧ t.ops = s.ops := by
  obtain ⟨t, st, -, held⟩ := exec_remoteSignal_taken wf trades here runs present room
  exact ⟨_, held (remoteRefusal_bound here bound bind) early, congrArg (· ++ _) st.held, st.counters, st.ops⟩

theorem exec_remoteSignal_applied (due : s.signalDue x = true) (free : ∀ v ∈ s.sync.waiters, v.counter ≠ x.counter)
    (still : ∀ y ∈ s.ops, y.desc.opcode ≠ 0x07) (sat : (s.counter x.counter).sat = false)
    (under : (s.counter x.counter).under = false) : ∃ t, exec (.remoteSignal x) s = .next t ∧ s.AppliesRemote t x := by
  obtain ⟨t, st, taken, -⟩ := exec_remoteSignal_taken wf trades here runs present room
  refine ⟨_, taken (.inr due), (applyRemote_applies ?_ ?_ ?_ ?_ ?_).arrives st⟩
  · exact (st.remoteRefusal x).trans (remoteRefusal_bound here bound bind)
  · rw [st.counter]; exact sat
  · rw [st.counter]; exact under
  · rw [st.waiters]; exact free
  · rw [st.ops]; exact still

end

/-- A held signal that is due, the only one of its counter, is applied and held no longer. -/
theorem exec_heldSignalApply_applied {i : Nat} {h : Held} (found : s.sync.held[i]? = some h) (due : s.signalDue h.m = true)
    (alone : ∀ (j : Nat) k, s.sync.held[j]? = some k → j ≠ i → k.m.counter ≠ h.m.counter) (here : s.presentIn h.m.c.group = true)
    (bound : (s.counter h.m.counter).bound = true) (bind : (s.counter h.m.counter).bind = h.m.c.group)
    (free : ∀ v ∈ s.sync.waiters, v.counter ≠ h.m.counter) (still : ∀ y ∈ s.ops, y.desc.opcode ≠ 0x07)
    (sat : (s.counter h.m.counter).sat = false) (under : (s.counter h.m.counter).under = false) :
    ∃ t, exec (.heldSignalApply i) s = .next t ∧ (heldTaken s i).AppliesRemote t h.m := by
  have applied := applyRemote_applies (s := heldTaken s i) (remoteRefusal_bound here bound bind) sat under free still
  refine ⟨_, exec_heldSignalApply i s, ?_⟩
  rw [applyHeld_alone found due alone]
  exact ⟨applied.counter, applied.held⟩

end

/-- Settles O42: the cases of `recvSignal` on the state that has taken the message in, which decides as the state before, and those of
`applyHeld`; a refusal and an application are `applyRemote`. -/
theorem remoteSignalsAreHeldUntilDue : Obligations.RemoteSignalsAreHeldUntilDue := by
  unfold Obligations.RemoteSignalsAreHeldUntilDue
  rintro s x u wf rfl trades
  refine ⟨fun away => ?absent, fun here => ⟨exec_remoteSignal_ended wf trades here, fun runs present =>
    ⟨fun full => ⟨exec_remoteSignal_busy wf trades here runs present full, exec_remoteSignal_busy_keeps wf trades here runs present full⟩,
      fun room other => ?refused, fun room bound bind => ⟨exec_remoteSignal_held wf trades here runs present room bound bind,
        fun due free still add sat under => ?applied⟩⟩⟩,
    fun i h found => ⟨fun early => ?waits, fun due alone here bound bind free still sub sat under => ?applies⟩⟩
  case absent =>
    obtain ⟨t, run, refused, reason, counter, kind, -, counters, held⟩ := exec_remoteSignal_absent wf trades away
    exact ⟨t, run, refused, reason, counter, kind, counters, held⟩
  case refused =>
    obtain ⟨t, run, refused, reason, counter, kind, die, counters, held⟩ :=
      exec_remoteSignal_unbound wf trades here runs present room other
    exact ⟨t, run, refused, reason, counter, kind, die, held, counters⟩
  case applied =>
    obtain ⟨t, run, ⟨_, counter⟩, held⟩ := exec_remoteSignal_applied wf trades here runs present room bound bind due free still sat under
    refine ⟨t, run, held, ?_⟩
    rw [counter, add]
    exact ⟨rfl, rfl, rfl⟩
  case waits => rw [exec_heldSignalApply, applyHeld_waits found early]; rfl
  case applies =>
    obtain ⟨t, run, ⟨_, counter⟩, held⟩ := exec_heldSignalApply_applied found due alone here bound bind free still sat under
    refine ⟨t, run, held, ?_⟩
    rw [counter, sub]
    exact ⟨rfl, rfl⟩

end Sys2Proof.Machine
end
section
/-! PROOFS. Acknowledgements of remote SIGNALs, and the SIGNAL that goes again (08 R314, R323; 03 R121, R131). -/

namespace Sys2Proof.Machine

/-! ### The entry that is named (08 R323) -/

theorem State.Stirred.signalOf {s t : State} {g : Nat} (h : s.Stirred t g) (a : AckMsg) : t.signalOf a = s.signalOf a := by
  rw [State.signalOf, State.signalOf, h.ops]

/-- The SIGNAL with its acknowledgement: it is complete. -/
def Op.acknowledged (o : Op) : Op := { o with sig := none, ready := true, settled := true }

/-- The state in which the SIGNAL is complete. -/
def signalDone (s : State) (o : Op) : State := s.updOp o.q o.c Op.acknowledged

/-- The SIGNAL with its answer BUSY. -/
def Op.busySince (o : Op) (now : Nat) : Op := { o with sig := o.sig.map fun x => { x with busyAt := some now } }

section
variable {s : State} {a : AckMsg}

theorem recvAck_ignored (h : s.mayTradeIn a.c.group = false ∨ s.signalOf a = none) : recvAck s a = s := by
  rcases h with h | h <;> simp [recvAck, h]

section
variable {o : Op} (trades : s.mayTradeIn a.c.group = true) (named : s.signalOf a = some o)
include trades named

theorem recvAck_applied (code : a.code = 0) :
    recvAck s a = refreshTimer (signalDone (groupStirs s a.c.group) o) a.c.group := by
  simp only [recvAck, trades, named, code, if_true]
  rfl

theorem recvAck_misused (code : a.code = 1 ∨ a.code = 2) :
    recvAck s a = refreshTimer (queueError (signalDone (groupStirs s a.c.group) o) o.q 8 o.c) a.c.group := by
  rcases code with code | code <;> (simp only [recvAck, trades, named, code, if_true]; rfl)

theorem recvAck_refused (code : a.code = 3) :
    recvAck s a = refreshTimer (queueError ((groupStirs s a.c.group).removeOp o.q o.c) o.q 8 o.c) a.c.group := by
  simp only [recvAck, trades, named, code, if_true]
  rfl

theorem recvAck_busy (code : a.code = 4) :
    recvAck s a = (groupStirs s a.c.group).updOp o.q o.c fun y => y.busySince (groupStirs s a.c.group).now := by
  simp only [recvAck, trades, named, code, if_true]
  rfl

end

theorem exec_signalAck (wf : a.wf = true) (s : State) :
    exec (.signalAck a) s = .next (State.plain s (recvAck (takeIn s a.src (.ack a)) a)) := by
  show checked _ _ (finishPlain s _) = _
  rw [wf, checked_true, finishPlain_eq]

theorem exec_signalAck_ignored (wf : a.wf = true) (h : s.mayTradeIn a.c.group = false ∨ s.signalOf a = none) :
    exec (.signalAck a) s = .next (takeIn s a.src (.ack a)) := by
  have st : s.Stirred (takeIn s a.src (.ack a)) a.c.group := takeIn_stirred s a.src rfl
  rw [exec_signalAck wf s, recvAck_ignored (by rwa [st.mayTradeIn, st.signalOf]), st.plain]

/-! ### What each code does -/

/-- A further error of a queue in ERROR leaves its ENABLE. -/
theorem queueError_enable_of_error {s : State} {q : Nat} (failed : (s.queue q).state = .error) (cause index : Nat) :
    ((queueError s q cause index).queue q).enable = (s.queue q).enable := by
  have same : queueError s q cause index = discardUnstarted s q := by simp [queueError, failed]
  rw [same, discardUnstarted_queue]

section
variable {o : Op} (wf : a.wf = true) (trades : s.mayTradeIn a.c.group = true) (named : s.signalOf a = some o)
  (found : s.op? o.q o.c = some o)
include wf trades named

/-- The state in which the message has been taken in, and the group's timer is set, decides as the state before. -/
theorem exec_signalAck_named : ∃ t, s.Stirred t a.c.group ∧
    (a.code = 0 → exec (.signalAck a) s = .next (State.plain s (refreshTimer (signalDone t o) a.c.group))) ∧
    (a.code = 1 ∨ a.code = 2 → exec (.signalAck a) s =
      .next (State.plain s (refreshTimer (queueError (signalDone t o) o.q 8 o.c) a.c.group))) ∧
    (a.code = 3 → exec (.signalAck a) s =
      .next (State.plain s (refreshTimer (queueError (t.removeOp o.q o.c) o.q 8 o.c) a.c.group))) ∧
    (a.code = 4 → exec (.signalAck a) s = .next (State.plain s (t.updOp o.q o.c fun y => y.busySince s.now))) := by
  have st : s.Stirred (takeIn s a.src (.ack a)) a.c.group := takeIn_stirred s a.src rfl
  have st' := st.trans (groupStirs_stirred (takeIn s a.src (.ack a)) a.c.group)
  have trades' := (st.mayTradeIn _).trans trades
  have named' := (st.signalOf a).trans named
  rw [exec_signalAck wf s]
  refine ⟨_, st', fun code => ?_, fun code => ?_, fun code => ?_, fun code => ?_⟩
  · rw [recvAck_applied trades' named' code]
  · rw [recvAck_misused trades' named' code]
  · rw [recvAck_refused trades' named' code]
  · rw [recvAck_busy trades' named' code, st'.now]

include found

theorem exec_signalAck_applied (code : a.code = 0) : ∃ t, exec (.signalAck a) s = .next t ∧
    t.op? o.q o.c = some o.acknowledged ∧ t.queues = s.queues := by
  obtain ⟨t, st, applied, -⟩ := exec_signalAck_named wf trades named
  exact ⟨_, applied code, op?_updOp_found ((st.op? _ _).trans found) Op.acknowledged fun _ => ⟨rfl, rfl⟩, st.queues⟩

/-- 08 R314: misuse completes the SIGNAL, and its queue enters ERROR. -/
theorem exec_signalAck_misused (code : a.code = 1 ∨ a.code = 2) : ∃ t, exec (.signalAck a) s = .next t ∧
    (s.queue o.q).Failed (t.queue o.q) 8 o.c ∧ t.op? o.q o.c = some o.acknowledged := by
  obtain ⟨t, st, -, misused, -⟩ := exec_signalAck_named wf trades named
  have failed := queueError_failed (signalDone t o) o.q 8 o.c
  have own : (signalDone t o).queue o.q = s.queue o.q := by rw [State.queue, State.queue, ← st.queues]; rfl
  rw [own] at failed
  obtain ⟨queues, e⟩ := queueError_form (signalDone t o) o.q 8 o.c
  refine ⟨_, misused code, failed, ?_⟩
  have done := op?_updOp_found ((st.op? _ _).trans found) Op.acknowledged fun _ => ⟨rfl, rfl⟩
  show (queueError (signalDone t o) o.q 8 o.c).op? o.q o.c = _
  rw [e]
  exact done

omit found in
/-- 08 R323; 03 R121: a refusal takes the SIGNAL out, and its queue enters ERROR. -/
theorem exec_signalAck_refused (code : a.code = 3) : ∃ t, exec (.signalAck a) s = .next t ∧
    (s.queue o.q).Failed (t.queue o.q) 8 o.c ∧ t.op? o.q o.c = none ∧
    ((s.queue o.q).state = .error → (t.queue o.q).enable = (s.queue o.q).enable) := by
  obtain ⟨t, st, -, -, refused, -⟩ := exec_signalAck_named wf trades named
  have failed := queueError_failed (t.removeOp o.q o.c) o.q 8 o.c
  have own : (t.removeOp o.q o.c).queue o.q = s.queue o.q := by rw [State.queue, State.queue, ← st.queues]; rfl
  rw [own] at failed
  obtain ⟨queues, e⟩ := queueError_form (t.removeOp o.q o.c) o.q 8 o.c
  refine ⟨_, refused code, failed, ?_, fun already => ?_⟩
  · show (queueError (t.removeOp o.q o.c) o.q 8 o.c).op? o.q o.c = _
    rw [e]
    exact State.op?_removeOp t o.q o.c
  · have kept := queueError_enable_of_error (s := t.removeOp o.q o.c) (q := o.q) (by rw [own]; exact already) 8 o.c
    rwa [own] at kept

theorem exec_signalAck_busy (code : a.code = 4) : ∃ t, exec (.signalAck a) s = .next t ∧ t.queues = s.queues ∧
    t.op? o.q o.c = some (o.busySince s.now) := by
  obtain ⟨t, st, -, -, -, busy⟩ := exec_signalAck_named wf trades named
  exact ⟨_, busy code, st.queues, op?_updOp_found ((st.op? _ _).trans found) (fun y => y.busySince s.now) fun _ => ⟨rfl, rfl⟩⟩

end

end

/-! ### The SIGNAL that goes again (08 R323) -/

theorem exec_busyResend (q : Fin 256) (c : Nat) (s : State) :
    exec (.busyResend q c) s = .next (State.plain s (resendSignal s q c)) := rfl

/-- The state in which the SIGNAL waits no longer. -/
def resendDue (s : State) (q c : Nat) (x : RemoteSig) : State := s.updOp q c fun y => { y with sig := some { x with busyAt := none } }

/-- The message of a SIGNAL that goes again. -/
def resentSignal (s : State) (o : Op) (x : RemoteSig) : SignalMsg where
  src := s.me
  c := { commonOf s o.desc.group 0 0 with step := x.step, run := o.run }
  counter := o.desc.sync
  sub := bit o.desc.aux16 0
  amount := o.desc.aux32
  n := x.n
  ref := x.ref

section
variable {s : State} {q c : Nat} {o : Op} {x : RemoteSig} {at_ : Nat} (found : s.op? q c = some o) (sig : o.sig = some x)
  (busy : x.busyAt = some at_)
include found sig busy

theorem resendSignal_early (early : s.now < at_ + 1000) : resendSignal s q c = s := by
  simp [resendSignal, found, sig, busy, early]

theorem resendSignal_due (late : at_ + 1000 ≤ s.now) (open_ : o.ended = none) : resendSignal s q c =
    if s.mayTradeIn o.desc.group then sendTo (resendDue s q c x) (bits o.desc.aux64 0 18) (.signal (resentSignal s o x))
    else resendDue s q c x := by
  simp only [resendSignal, found, sig, busy, open_, Option.isSome_none, Nat.not_lt.2 late, decide_false, Bool.or_self,
    Bool.false_eq_true, if_false]
  rfl

theorem resendSignal_form (late : at_ + 1000 ≤ s.now) (open_ : o.ended = none) :
    ∃ links, resendSignal s q c = { resendDue s q c x with links } := by
  rw [resendSignal_due found sig busy late open_]
  split
  · exact sendTo_form _ _ _
  · exact ⟨s.links, rfl⟩

end

/-- Settles O43: the cases of `recvAck` on the state that has taken the message in, which names the same SIGNAL, and those of
`resendSignal`. -/
theorem acknowledgementsEndRemoteSignals : Obligations.AcknowledgementsEndRemoteSignals := by
  unfold Obligations.AcknowledgementsEndRemoteSignals
  intro s
  refine ⟨fun a wf h => exec_signalAck_ignored wf h, fun a o wf trades named found =>
      ⟨exec_signalAck_applied wf trades named found, fun code here => ?misused, fun code here => ?refused,
        exec_signalAck_busy wf trades named found⟩,
    fun q c o x at_ found sig busy => ⟨fun early => ?early, fun late open_ => ?again, fun late open_ trades => ?sent⟩⟩
  case misused =>
    obtain ⟨t, run, failed, done⟩ := exec_signalAck_misused wf trades named found code
    exact ⟨t, run, failed.state here, done, fun first => (failed.first first here).2⟩
  case refused =>
    obtain ⟨t, run, failed, gone, kept⟩ := exec_signalAck_refused wf trades named code
    refine ⟨t, run, failed.state here, gone, ?_, fun first => (failed.first first here).2⟩
    split
    next already => exact kept already
    next first => exact (failed.first first here).1
  case early => rw [exec_busyResend, resendSignal_early found sig busy early]; rfl
  case again =>
    obtain ⟨links, again⟩ := resendSignal_form found sig busy late open_
    refine ⟨_, exec_busyResend q c s, ?_, by rw [again]; rfl⟩
    rw [again]
    exact op?_updOp_found (u := s) found (fun y => { y with sig := some { x with busyAt := none } }) fun _ => ⟨rfl, rfl⟩
  case sent =>
    rw [exec_busyResend, resendSignal_due found sig busy late open_, if_pos trades]
    rfl

end Sys2Proof.Machine
end
section
/-! PROOFS. Signal requests on the fabric ports (12 R458; 08 R307, R312-R314): a request is refused, or is a signal to its counter; each
is answered on its port. -/

namespace Sys2Proof.Machine

/-! ### The request and its answer -/

/-- The kind of a requester (08 R307). -/
def requestKind (x : FabricSignal) : Nat := if x.origin == 0 then kindDie else if x.origin == 1 then kindHost else kindOther

/-- The source of the change that a request asks for (08 R341). -/
def requestSrc (s : State) (x : FabricSignal) : ChangeSrc := ⟨requestKind x, s.me, x.requester⟩

/-- A request that may not change its counter (12 R458; 08 R307). -/
def requestBarred (x : FabricSignal) : Bool :=
  requestKind x == kindOther || (requestKind x == kindHost && 64 ≤ x.counter.val) || x.amount == 0

/-- A die may change every counter, a host the first 64, and nobody by 0. -/
theorem requestBarred_iff (x : FabricSignal) : requestBarred x = true ↔
    x.origin.val ≥ 2 ∨ (x.origin.val = 1 ∧ 64 ≤ x.counter.val) ∨ x.amount = 0 := by
  have kinds : ∀ o : Fin 4, ((if o == 0 then kindDie else if o == 1 then kindHost else kindOther) = kindOther ↔ o.val ≥ 2) ∧
      ((if o == 0 then kindDie else if o == 1 then kindHost else kindOther) = kindHost ↔ o.val = 1) := by decide
  obtain ⟨other, host⟩ := kinds x.origin
  simp only [requestBarred, Bool.or_eq_true, Bool.and_eq_true, beq_iff_eq, decide_eq_true_eq, requestKind] at other host ⊢
  rw [other, host, or_assoc]

/-- The answer of a request on its port, in the place of an earlier one. -/
def requestAnswered (s : State) (i : Nat) (x : FabricSignal) (code : Nat) : State :=
  s.updSync fun y => { y with answers := (y.answers.filter fun a => a.1 != i) ++ [(i, x.tag.val, code)] }

theorem mem_answers_requestAnswered (s : State) (i : Nat) (x : FabricSignal) (code : Nat) :
    (i, x.tag.val, code) ∈ (requestAnswered s i x code).sync.answers := by simp [requestAnswered]

section
variable {s : State} {x : FabricSignal} {i : Fin 8}

theorem exec_signalRequest_refused (barred : requestBarred x = true) : exec (.signalRequest i x) s =
    .next (State.plain s (requestAnswered (refuse s x.counter (requestSrc s x) 0) i x 3)) :=
  congrArg (finishPlain s) (if_pos barred)

theorem exec_signalRequest_changes (open_ : requestBarred x = false) : exec (.signalRequest i x) s =
    .next (State.plain s (requestAnswered (applySignal s x.counter x.sub x.amount.toNat (requestSrc s x)).1 i x
      (applySignal s x.counter x.sub x.amount.toNat (requestSrc s x)).2)) := by
  have barred : ¬ requestBarred x = true := by simp [open_]
  exact congrArg (finishPlain s) (if_neg barred)

/-- A counter at an end ignores the signal, which is noted; the code tells of the end (08 R314). -/
theorem applySignal_shut {n : Nat} (shut : (s.counter n).sat = true ∨ (s.counter n).under = true) (sub : Bool) (amount : Nat)
    (src : ChangeSrc) : ((applySignal s n sub amount src).1.counter n) = stampLast s (s.counter n) src true ∧
      (applySignal s n sub amount src).2 = if (s.counter n).sat then 1 else 2 := by
  have ends : ((s.counter n).sat || (s.counter n).under) = true := Bool.or_eq_true _ _ ▸ shut
  rw [applySignal]
  dsimp only
  rw [if_pos ends]
  exact ⟨State.counter_setCounter s n _, rfl⟩

theorem exec_signalRequest_ignored (open_ : requestBarred x = false)
    (shut : (s.counter x.counter).sat = true ∨ (s.counter x.counter).under = true) : ∃ t, exec (.signalRequest i x) s = .next t ∧
      (t.counter x.counter).value = (s.counter x.counter).value ∧ (t.counter x.counter).lastIgnored = true ∧
      (i.val, x.tag.val, if (s.counter x.counter).sat then 1 else 2) ∈ t.sync.answers := by
  obtain ⟨counter, code⟩ := applySignal_shut shut x.sub x.amount.toNat (requestSrc s x)
  have run := exec_signalRequest_changes (s := s) (i := i) open_
  rw [code] at run
  refine ⟨_, run, ?_, ?_, mem_answers_requestAnswered _ i x _⟩
  · exact (congrArg Counter.value counter :)
  · exact (congrArg Counter.lastIgnored counter :)

/-- A request has changed its counter by a signal, and is answered. -/
structure State.Requested (s t : State) (i : Fin 8) (x : FabricSignal) : Prop where
  counter : ∃ mirrorDirty, t.counter x.counter =
    { stampLast s ((s.counter x.counter).signalled x.sub x.amount.toNat) (requestSrc s x) false with mirrorDirty }
  answer : (i.val, x.tag.val, if (s.counter x.counter).misused x.sub x.amount.toNat then if x.sub then 2 else 1 else 0) ∈ t.sync.answers
  others : ∀ n, n ≠ x.counter.val → t.counter n = s.counter n
  groups : t.groups = s.groups

theorem exec_signalRequest_applied (open_ : requestBarred x = false) (sat : (s.counter x.counter).sat = false)
    (under : (s.counter x.counter).under = false) (free : ∀ v ∈ s.sync.waiters, v.counter ≠ x.counter.val)
    (still : ∀ y ∈ s.ops, y.desc.opcode ≠ 0x07) : ∃ t, exec (.signalRequest i x) s = .next t ∧ s.Requested t i x := by
  have run := exec_signalRequest_changes (s := s) (i := i) open_
  obtain ⟨⟨queues, siphons, sync, rest⟩, -, counter, others, -⟩ := signalPut_puts s x.counter x.sub x.amount.toNat (requestSrc s x)
  rw [applySignal_puts x.sub x.amount.toNat _ sat under free still] at run
  exact ⟨_, run, counter, mem_answers_requestAnswered _ i x _, others, by rw [rest]; rfl⟩

end

/-- The end of a counter as the bound of its 32 bits. -/
theorem Counter.misused_add (x : Counter) (amount : Nat) : x.misused false amount = decide (2 ^ 32 ≤ x.value + amount) := by
  simp only [Counter.misused, Bool.false_eq_true, if_false, decide_eq_decide]
  omega

/-- Settles O44: a barred request is refused, any other is `applySignal`, with the counter at an end or not. -/
theorem fabricRequestsAreAnswered : Obligations.FabricRequestsAreAnswered := by
  unfold Obligations.FabricRequestsAreAnswered
  rintro i x s k rfl
  refine ⟨fun barred => ⟨_, exec_signalRequest_refused ((requestBarred_iff x).2 barred), mem_answers_requestAnswered _ i x _, rfl, rfl, rfl⟩,
    fun who amount => ?_⟩
  have open_ : requestBarred x = false := by
    rw [← Bool.not_eq_true, requestBarred_iff]
    rintro (h | h | h)
    · omega
    · omega
    · exact amount h
  refine ⟨exec_signalRequest_ignored open_, fun sat under free still => ?_⟩
  obtain ⟨t, run, ⟨_, counter⟩, answer, others, groups⟩ := exec_signalRequest_applied (i := i) open_ sat under free still
  refine ⟨fun add => ⟨t, run, ?_⟩, fun sub => ⟨t, run, ?_⟩⟩
  · rw [add, Counter.misused_add] at answer
    rw [counter, add]
    exact ⟨rfl, Counter.misused_add _ _, by simpa using answer, others, groups⟩
  · rw [sub] at answer
    rw [counter, sub]
    exact ⟨rfl, rfl, by simpa [Counter.misused] using answer, others, groups⟩

end Sys2Proof.Machine
end
section
/-! PROOFS. The loan of the power budget (08 R321, R322): the shared operations of the engine leave it as it is. It is in the hands of the
lending commands alone. -/

namespace Sys2Proof.Machine

/-- What the sync unit holds of the loan: whether the budget is lent, whether the offer stands, and since when the budget is asked back. -/
def State.loan (s : State) : Bool × Bool × Option Nat := (s.sync.lent, s.sync.lendValid, s.sync.reclaimAt)

theorem loan_of_sync {s t : State} (h : t.sync = s.sync) : t.loan = s.loan := by rw [State.loan, h, ← State.loan]

@[simp] theorem loan_ite {c : Prop} [Decidable c] (s t : State) : (if c then s else t).loan = if c then s.loan else t.loan :=
  apply_ite State.loan c s t

theorem loan_ite_fst {α : Type} {c : Prop} [Decidable c] {s : State} {x y : State × α} (yes : x.1.loan = s.loan)
    (no : y.1.loan = s.loan) : (if c then x else y).1.loan = s.loan := by
  split
  · exact yes
  · exact no

theorem loan_foldl {α : Type} {f : State → α → State} (h : ∀ (t : State) a, (f t a).loan = t.loan) (l : List α) (s : State) :
    (l.foldl f s).loan = s.loan :=
  List.foldlRecOn (motive := fun t => State.loan t = s.loan) l f rfl fun t same a _ => (h t a).trans same

/-! ### Named updates of the state -/

section
variable (s : State)

@[simp] theorem updOp_loan (q c : Nat) (f : Op → Op) : (s.updOp q c f).loan = s.loan := rfl
@[simp] theorem setQueue_loan (q : Nat) (x : QueueSt) : (s.setQueue q x).loan = s.loan := rfl
@[simp] theorem updQueue_loan (q : Nat) (f : QueueSt → QueueSt) : (s.updQueue q f).loan = s.loan := rfl
@[simp] theorem updGroup_loan (g : Nat) (f : GroupSt → GroupSt) : (s.updGroup g f).loan = s.loan := rfl
@[simp] theorem setMember_loan (i : Nat) (m : Member) : (s.setMember i m).loan = s.loan := rfl
@[simp] theorem setPace_loan (d : Nat) (x : PaceReg) : (s.setPace d x).loan = s.loan := rfl
@[simp] theorem updWarden_loan (f : WardenSt → WardenSt) : (s.updWarden f).loan = s.loan := rfl
@[simp] theorem updInteg_loan (f : IntegSt → IntegSt) : (s.updInteg f).loan = s.loan := rfl
@[simp] theorem updTwin_loan (f : TwinSt → TwinSt) : (s.updTwin f).loan = s.loan := rfl
@[simp] theorem setCounter_loan (n : Nat) (x : Counter) : (s.setCounter n x).loan = s.loan := rfl
@[simp] theorem dropHeld_loan (g : Nat) : (dropHeld s g).loan = s.loan := rfl
@[simp] theorem refreshTimer_loan (g : Nat) : (refreshTimer s g).loan = s.loan := rfl
@[simp] theorem refreshResume_loan (q : Nat) : (refreshResume s q).loan = s.loan := rfl
@[simp] theorem setQState_loan (q : Nat) (st : QState) : (setQState s q st).loan = s.loan := rfl
@[simp] theorem discardUnstarted_loan (q : Nat) : (discardUnstarted s q).loan = s.loan := rfl
@[simp] theorem dropTransfers_loan (q c : Nat) : (dropTransfers s q c).loan = s.loan := rfl
@[simp] theorem refuse_loan (n : Nat) (src : ChangeSrc) (reason : Nat) : (refuse s n src reason).loan = s.loan := rfl
@[simp] theorem countCrc_loan : (countCrc s).loan = s.loan := rfl
@[simp] theorem countResidue_loan : (countResidue s).loan = s.loan := rfl
@[simp] theorem recallNamed_loan (g num : Nat) : (recallNamed s g num).loan = s.loan := rfl

/-! ### Transfers, messages and records -/

@[simp] theorem enqueueRead_loan (queue addr len : Nat) (via : Nat → Nat) (pur : Nat → Purpose) :
    (enqueueRead s queue addr len via pur).loan = s.loan := by
  obtain ⟨_, read⟩ := enqueueRead_form s queue addr len via pur
  rw [read]; rfl

@[simp] theorem enqueueWrite_loan (cls queue addr : Nat) (data : List Byte) (via : Nat → Nat) (pur : Nat → Purpose) :
    (enqueueWrite s cls queue addr data via pur).loan = s.loan := by
  obtain ⟨_, written⟩ := enqueueWrite_form s cls queue addr data via pur
  rw [written]; rfl

@[simp] theorem readRegion_loan (o : Op) (r : Region) (addr base len : Nat) : (readRegion s o r addr base len).loan = s.loan :=
  enqueueRead_loan _ _ _ _ _ _

@[simp] theorem sendTo_loan (dest : Nat) (b : Body) : (sendTo s dest b).loan = s.loan := by
  obtain ⟨_, sent⟩ := sendTo_form s dest b
  rw [sent]; rfl

@[simp] theorem sendAll_loan (dests : List Nat) (b : Body) : (sendAll s dests b).loan = s.loan := by
  obtain ⟨_, sent⟩ := sendAll_form s dests b
  rw [sent]; rfl

@[simp] theorem makeRecord_loan (r : FaultRecord) : (makeRecord s r).loan = s.loan := by
  obtain ⟨_, _, _, _, made⟩ := makeRecord_form s r
  rw [made]; rfl

@[simp] theorem engineRecord_loan (type s0 s1 s2 action : Nat) : (engineRecord s type s0 s1 s2 action).loan = s.loan := makeRecord_loan _ _

@[simp] theorem writeRecord_loan (fault : Bool) : (writeRecord s fault).loan = s.loan := by
  obtain ⟨_, written⟩ := writeRecord_form s fault
  rw [written]; rfl

@[simp] theorem setRecRing_loan (fault : Bool) (r : Ring) : (s.setRecRing fault r).loan = s.loan := by cases fault <;> rfl

@[simp] theorem recallRecord_loan (kind : Nat) (origin completed minority : Bool) (g step entry run stage chunk originDie
    suspect count : Nat) :
    (recallRecord s kind origin completed minority g step entry run stage chunk originDie suspect count).loan = s.loan := by
  simp [recallRecord, ringRecord]

@[simp] theorem checkFailed_loan (r : FaultRecord) : (checkFailed s r).loan = s.loan := by simp [checkFailed]

@[simp] theorem checkRecord_loan (o : Op) (p : Parcel) (kind found action : Nat) : (checkRecord s o p kind found action).loan = s.loan :=
  checkFailed_loan _ _

@[simp] theorem answerParcel_loan (p : Parcel) (nack : Bool) (reason : Nat) : (answerParcel s p nack reason).loan = s.loan :=
  sendTo_loan _ _ _

@[simp] theorem sendLevel_loan (g stage num : Nat) : (sendLevel s g stage num).loan = s.loan := by simp [sendLevel]

@[simp] theorem writeDump_loan (reason group : Nat) : (writeDump s reason group).1.loan = s.loan := by
  unfold writeDump
  refine loan_ite_fst ?_ rfl
  rw [enqueueWrite_loan]
  rfl

@[simp] theorem sendHalt_loan (g cause : Nat) (missing : List Nat) : (sendHalt s g cause missing).loan = s.loan := by simp [sendHalt]

@[simp] theorem writeSlotHeader_loan (g step : Nat) : (writeSlotHeader s g step).loan = s.loan := by simp [writeSlotHeader]

/-! ### Queues and early ends -/

@[simp] theorem settleQueue_loan (q : Nat) : (settleQueue s q).loan = s.loan := by
  obtain ⟨_, settled⟩ := settleQueue_form s q
  rw [settled]; rfl

@[simp] theorem queueError_loan (q cause index : Nat) : (queueError s q cause index).loan = s.loan := by
  obtain ⟨_, failed⟩ := queueError_form s q cause index
  rw [failed]; rfl

@[simp] theorem endedEarly_loan (q c st : Nat) (torn : Bool) : (endedEarly s q c st torn).loan = s.loan := rfl

@[simp] theorem endOp_loan (q c st : Nat) : (endOp s q c st).loan = s.loan := by
  cases found : s.op? q c with
  | none => rw [endOp, found]
  | some o =>
    cases past : s.past o
    case true => rw [endOp_past st found past]
    case false =>
      cases ended : o.ended with
      | some old => rw [endOp_again st found past ended, updOp_loan]
      | none =>
        obtain ⟨torn, e⟩ := endOp_ends st found past ended
        rw [e]
        simp

@[simp] theorem endWhere_loan (p : Op → Bool) (st : Op → Nat) : (endWhere s p st).loan = s.loan :=
  loan_foldl (fun t _ => endOp_loan t _ _ _) _ s

@[simp] theorem haltGroup_loan (g cause : Nat) (st : Op → Nat) : (haltGroup s g cause st).loan = s.loan := by
  unfold haltGroup
  simp only [loan_ite, setQState_loan, updQueue_loan, discardUnstarted_loan, endWhere_loan, ite_self]
  split <;> rfl

@[simp] theorem haltOnFault_loan (g cause : Nat) (st : Op → Nat) : (haltOnFault s g cause st).loan = s.loan := by simp [haltOnFault]

@[simp] theorem haltPumpless_loan (unit : Option Nat) : (haltPumpless s unit).1.loan = s.loan :=
  loan_foldl (fun t g => (makeRecord_loan _ _).trans (haltOnFault_loan t g _ _)) _ s

@[simp] theorem disableQueue_loan (q : Nat) : (disableQueue s q).loan = s.loan := by simp [disableQueue]

/-! ### The warden -/

@[simp] theorem setEntry_loan (g i : Nat) (m : Member) : (s.setEntry g i m).loan = s.loan := by
  unfold State.setEntry
  split
  · exact loan_foldl (fun t x => by simp) _ s
  · rfl

@[simp] theorem stageEvict_loan (g die : Nat) : (stageEvict s g die).loan = s.loan := by
  obtain ⟨_, refreshed⟩ := refreshQuarantine_form
    ((s.activeEntries g die).foldl (fun s i => s.setEntry g i { s.member i with state := stEvict }) s)
  rw [stageEvict, refreshed]
  exact loan_foldl (fun t i => setEntry_loan t g i _) _ s

@[simp] theorem refreshDraw_loan : (refreshDraw s).loan = s.loan := by
  obtain ⟨_, drawn, -⟩ := refreshDraw_form s
  rw [drawn]; rfl

@[simp] theorem refreshVeng_loan : (refreshVeng s).loan = s.loan := by
  obtain ⟨_, followed, -⟩ := refreshVeng_form s
  rw [followed]; rfl

@[simp] theorem endSurge_loan (s0 : Nat) : (endSurge s s0).loan = s.loan := by simp [endSurge]

@[simp] theorem deferTest_loan : (deferTest s).loan = s.loan := by simp [deferTest]

@[simp] theorem noteRepeat_loan (g unit : Nat) (r : Repeats) (stress : Bool) : (noteRepeat s g unit r stress).loan = s.loan := by
  unfold noteRepeat
  split
  · rfl
  · split <;> rfl

@[simp] theorem addSuspicion_loan (unit : Nat) : (addSuspicion s unit).1.loan = s.loan := loan_ite_fst rfl rfl

@[simp] theorem paceStep_loan (d : Nat) : (paceStep s d).loan = s.loan := rfl

@[simp] theorem voltStep_loan : (voltStep s).loan = s.loan := refreshVeng_loan _

@[simp] theorem withdrawEngine_loan (type : Nat) : (withdrawEngine s type).1.loan = s.loan := by
  have halted : (s.activeGroups.foldl (fun s g => haltOnFault s g haltFault endHalted) s).loan = s.loan :=
    loan_foldl (fun t g => haltOnFault_loan t g _ _) _ s
  refine loan_ite_fst rfl (loan_ite_fst halted ?_)
  refine (engineRecord_loan _ _ _ _ _ _).trans ((loan_foldl (fun t g => ?_) _ _).trans ((loan_foldl (fun t g => ?_) _ _).trans halted))
  · simp
  · exact stageEvict_loan t g _

@[simp] theorem fencePump_loan (p : Nat) : (fencePump s p).1.loan = s.loan :=
  loan_ite_fst rfl ((haltPumpless_loan _ _).trans (deferTest_loan _))

@[simp] theorem permanent_loan (unit type : Nat) : (permanent s unit type).1.loan = s.loan :=
  loan_ite_fst rfl (loan_ite_fst (fencePump_loan s unit) (loan_ite_fst (loan_ite_fst (withdrawEngine_loan _ type) rfl)
    (withdrawEngine_loan s type)))

@[simp] theorem ladder_loan (unit type : Nat) : (ladder s unit type).1.loan = s.loan :=
  loan_ite_fst (paceStep_loan _ _) (loan_ite_fst (voltStep_loan _) (permanent_loan s unit type))

@[simp] theorem onVerdict_loan (unit type verdict : Nat) : (onVerdict s unit type verdict).1.loan = s.loan :=
  loan_ite_fst (loan_ite_fst ((ladder_loan _ unit type).trans (addSuspicion_loan s unit)) (addSuspicion_loan s unit))
    (loan_ite_fst (permanent_loan s unit type) (loan_ite_fst (loan_ite_fst (voltStep_loan s) rfl)
      (loan_ite_fst (ladder_loan s unit type) rfl)))

@[simp] theorem judgeFault_loan (x : RepeatWork) (type : Nat) (rep : Repeats) (kept stress : Bool) :
    (judgeFault s x type rep kept stress).1.loan = s.loan := by
  refine (onVerdict_loan _ _ _ _).trans ?_
  split
  · rfl
  · exact noteRepeat_loan s _ _ _ _

end

end Sys2Proof.Machine
end
section
/-! PROOFS. The loan of the power budget: what the progress of the entries leaves of it (08 R321, R322). -/

namespace Sys2Proof.Machine

section
variable (s : State)

/-! ### ROTATE and the sync unit (05 R219-R223; 08 R310-R314) -/

@[simp] theorem putCounter_loan (n : Nat) (old new : Counter) : (putCounter s n old new).loan = s.loan := by
  obtain ⟨_, _, _, _, put⟩ := putCounter_form s n old new
  rw [put]; rfl

@[simp] theorem consume_loan (n amount : Nat) (src : ChangeSrc) : (consume s n amount src).loan = s.loan := putCounter_loan _ _ _ _

@[simp] theorem rotateCredits_loan (o : Op) (fuel : Nat) : (rotateCredits s o fuel).loan = s.loan := by
  induction fuel generalizing s o with
  | zero => rfl
  | succ fuel ih => simp [rotateCredits, ih]

@[simp] theorem releaseWaiter_loan (w : Waiter) : (releaseWaiter s w).loan = s.loan := by
  unfold releaseWaiter
  extract_lets left src taken released
  have kept : taken.loan = s.loan := by
    have leaves : left.loan = s.loan := rfl
    simp [taken, leaves]
  have counted : released.loan = s.loan := kept
  rw [loan_ite, updOp_loan, kept]
  split
  · split
    · rw [rotateCredits_loan, counted]
    · exact counted
  · rfl

@[simp] theorem parkOrRelease_loan (w : Waiter) : (parkOrRelease s w).loan = s.loan := by
  have parks : (s.updSync fun y => { y with waiters := y.waiters ++ [w] }).loan = s.loan := rfl
  simp [parkOrRelease, parks]

@[simp] theorem rotateWait_loan (q c fuel : Nat) : (rotateWait s q c fuel).loan = s.loan := by
  induction fuel generalizing s with
  | zero => rfl
  | succ fuel ih =>
    unfold rotateWait
    split
    · rfl
    · simp [ih]

@[simp] theorem checkWaiters_loan (n : Nat) : (checkWaiters s n).loan = s.loan :=
  (loan_foldl (fun t o => by simp) _ _).trans (loan_foldl (fun t w => by simp) _ s)

@[simp] theorem applySignal_loan (n : Nat) (sub : Bool) (amount : Nat) (src : ChangeSrc) :
    (applySignal s n sub amount src).1.loan = s.loan :=
  loan_ite_fst rfl (loan_ite_fst ((checkWaiters_loan _ n).trans (putCounter_loan s n _ _))
    ((checkWaiters_loan _ n).trans (putCounter_loan s n _ _)))

@[simp] theorem entryChange_loan (o : Op) (n : Nat) (sub : Bool) (amount kind : Nat) :
    (entryChange s o n sub amount kind).loan = s.loan := by
  simp [entryChange, entrySignal]

@[simp] theorem rotateLanded_loan (o : Op) : (rotateLanded s o).loan = s.loan := rfl

@[simp] theorem rotateReads_loan (q c : Nat) : (rotateReads s q c).loan = s.loan := by
  unfold rotateReads
  split
  · rfl
  · exact loan_foldl (fun t _ => (loan_foldl (fun _ _ => enqueueRead_loan _ _ _ _ _ _) _ _).trans (updOp_loan t _ _ _)) _ s

@[simp] theorem rotateArrivals_loan (q c fuel : Nat) : (rotateArrivals q c fuel s).loan = s.loan := by
  induction fuel generalizing s with
  | zero => rfl
  | succ fuel ih =>
    unfold rotateArrivals
    split
    · rfl
    · simp [ih]

@[simp] theorem rotateStep_loan (q c : Nat) : (rotateStep s q c).loan = s.loan := by
  unfold rotateStep
  split
  · rfl
  · dsimp only
    split <;> simp

/-! ### The twin's notes (09 R368-R370) -/

@[simp] theorem twinMatch_loan (key : TwinKey) (own theirs : Nat) : (twinMatch s key own theirs).loan = s.loan := by simp [twinMatch]

@[simp] theorem twinNote_loan (key : TwinKey) (crc : Nat) : (twinNote s key crc).loan = s.loan := by
  unfold twinNote
  dsimp only
  split <;> simp

@[simp] theorem twinParcel_loan (o : Op) (p : Parcel) (up : Bool) (round : Nat) : (twinParcel s o p up round).loan = s.loan := by
  unfold twinParcel
  split <;> simp

/-! ### Headers, inputs and grants (04 R150-R152; 07 R294; 10 R402-R404) -/

@[simp] theorem askHeaders_loan : (askHeaders s).loan = s.loan := loan_foldl (fun t o => by simp) _ s

@[simp] theorem placeInput_loan (o : Op) : (placeInput s o).loan = s.loan := by simp [placeInput]

@[simp] theorem readFrom_loan (o : Op) (r : Region) (base n : Nat) : (readFrom s o r base n).loan = s.loan := by simp [readFrom]

@[simp] theorem readInput_loan (o : Op) : (readInput s o).loan = s.loan := by
  unfold readInput
  split
  · rfl
  · simp [probeSlot, readSource]

@[simp] theorem readMapHalves_loan (q c fuel : Nat) : (readMapHalves q c fuel s).loan = s.loan := by
  induction fuel generalizing s with
  | zero => rfl
  | succ fuel ih =>
    unfold readMapHalves
    split
    · rfl
    · simp [ih]

@[simp] theorem issueReads_loan (o : Op) : (issueReads s o).loan = s.loan := by simp [issueReads]

@[simp] theorem givePair_loan (o : Op) (k : Nat) : (givePair s o k).loan = s.loan := by simp [givePair]

@[simp] theorem grantPairs_loan (p fuel : Nat) : (grantPairs p fuel s).loan = s.loan := by
  induction fuel generalizing s with
  | zero => rfl
  | succ fuel ih =>
    unfold grantPairs
    split
    · rw [ih, givePair_loan]
    · rfl

/-! ### The refiner (07 R289-R299) -/

@[simp] theorem keepWaiting_loan (keep : Xfer → Bool) : (s.keepWaiting keep).loan = s.loan := rfl

@[simp] theorem askState_loan (o : Op) (x : RedCx) (l : StLay) (t : Take) : (askState s o x l t).loan = s.loan := by
  have read : ∀ (rs : List (Nat × Nat)) (u : State), (rs.foldl (fun s r => enqueueRead s o.q (o.desc.aux64 + r.1) r.2 siphonOf fun k =>
      .payload o.q o.c .state (r.1 + k)) u).loan = u.loan := fun rs u => loan_foldl (fun _ _ => enqueueRead_loan _ _ _ _ _ _) rs u
  unfold askState
  dsimp only
  split
  · split <;> rw [read, updOp_loan]
  · refine (loan_foldl (fun u k => ?_) _ _).trans (updOp_loan s _ _ _)
    split
    · exact read _ _
    · rfl

@[simp] theorem putState_loan (o : Op) (off : Nat) (data : List Byte) (pur : Purpose) : (putState s o off data pur).loan = s.loan := by
  simp [putState]

@[simp] theorem formTake_loan (o : Op) (x : RedCx) (l : StLay) (t : Take) : (formTake s o x l t).loan = s.loan := rfl

@[simp] theorem writeUnit_loan (o : Op) (l : StLay) (f : UnitSt) : (writeUnit s o l f).loan = s.loan :=
  (loan_foldl (fun t _ => putState_loan t _ _ _ _) _ _).trans rfl

@[simp] theorem takeNext_loan (o : Op) (x : RedCx) (l : StLay) : (takeNext s o x l).loan = s.loan := by
  unfold takeNext
  split
  · rfl
  split <;> simp

@[simp] theorem refineStep_loan (o : Op) : (refineStep s o).loan = s.loan := by
  unfold refineStep
  dsimp only
  split
  · rfl
  split <;> simp [writeStHeader]

@[simp] theorem refine_loan (q c fuel : Nat) : (refine q c fuel s).loan = s.loan := by
  induction fuel generalizing s with
  | zero => exact askHeaders_loan s
  | succ fuel ih =>
    unfold refine
    split <;> simp [ih]

/-! ### Results and parcels (04 R143; 05 R215-R218; 10 R389) -/

@[simp] theorem noteLag_loan (q c : Nat) : (noteLag s q c).loan = s.loan := by
  unfold noteLag
  split
  · rfl
  · dsimp only
    split <;> simp

@[simp] theorem writeResult_loan (o : Op) (cls off : Nat) (bs : List Byte) : (writeResult s o cls off bs).loan = s.loan := by
  simp [writeResult]

@[simp] theorem makeRoom_loan (q c n : Nat) : (makeRoom s q c n).loan = s.loan := by
  unfold makeRoom
  split <;> simp

@[simp] theorem sendEdge_loan (lay : Lay) (q c : Nat) (it : Item) (payload : List Byte) (e : Edge) :
    (sendEdge lay q c it payload s e).loan = s.loan := by
  unfold sendEdge
  extract_lets mates fans begun n
  split
  · rfl
  next o _ =>
    rw [loan_ite]
    split
    · rfl
    extract_lets room noted
    have kept : room.loan = s.loan := by simp [room]
    split
    · exact kept
    next o' _ =>
      have marked : noted.loan = room.loan := updOp_loan _ _ _ _
      simp [kept, marked, sendParcel]

@[simp] theorem writeItem_loan (q c : Nat) (it : Item) : (writeItem q c it s).loan = s.loan := by
  unfold writeItem
  split
  · rw [loan_ite, loan_foldl fun t _ => writeResult_loan t _ _ _ _, updOp_loan, ite_self]
  · rfl

@[simp] theorem runItem_loan (lay : Lay) (q c : Nat) (it : Item) : (runItem lay q c s it).loan = s.loan := by
  unfold runItem
  split
  · rfl
  · simp [loan_foldl fun t e => sendEdge_loan t lay q c it _ e]

@[simp] theorem runItems_loan (o : Op) (its : List (Option Item)) : (runItems s o its).loan = s.loan :=
  loan_foldl (fun t it => runItem_loan t _ _ _ it) _ s

/-! ### Tokens, level marks and recalls (05 R209; 10 R393-R400) -/

@[simp] theorem sendTokens_loan (q c : Nat) : (sendTokens s q c).loan = s.loan := by
  unfold sendTokens
  split
  · rfl
  · exact loan_foldl (fun t i => by simp) _ s

@[simp] theorem settleOp_loan (q c : Nat) : (settleOp s q c).loan = s.loan := by
  unfold settleOp
  split
  · rfl
  · simp [loan_foldl fun t st => sendLevel_loan t _ st _]

@[simp] theorem takeRecall_loan (m : RecallMsg) (origin : Bool) : (takeRecall s m origin).loan = s.loan := by
  simp [takeRecall]

@[simp] theorem raiseRecall_loan (g stage num chunk kind suspect : Nat) : (raiseRecall s g stage num chunk kind suspect).loan = s.loan :=
  (takeRecall_loan _ _ _).trans (updInteg_loan s _)

@[simp] theorem repairFails_loan (o : Op) (type unit stage chunk idx : Nat) : (repairFails s o type unit stage chunk idx).loan = s.loan :=
  (makeRecord_loan _ _).trans ((haltOnFault_loan _ _ _ _).trans rfl)

/-! ### Progress (04 R150-R155; 05 R209-R218) -/

@[simp] theorem prepassStep_loan (o : Op) : (prepassStep s o).loan = s.loan := by
  unfold prepassStep
  dsimp only
  split <;> simp

@[simp] theorem countPoison_loan (o : Op) : (countPoison s o).loan = s.loan := by
  unfold countPoison
  dsimp only
  split <;> rfl

@[simp] theorem checkSums_loan (o : Op) : (checkSums s o).loan = s.loan := by
  unfold checkSums
  dsimp only
  split
  · rfl
  split <;> simp

@[simp] theorem updateStep_loan (o : Op) : (updateStep s o).loan = s.loan := by simp [updateStep]

@[simp] theorem moreReads_loan (q c fuel : Nat) : (moreReads q c fuel s).loan = s.loan := by
  induction fuel generalizing s with
  | zero => rfl
  | succ fuel ih =>
    unfold moreReads
    split
    · rfl
    · simp [ih, loan_foldl]

theorem onOp_loan (q c : Nat) {f : State → Op → State} (h : ∀ (t : State) o, (f t o).loan = t.loan) : (onOp q c f s).loan = s.loan := by
  unfold onOp
  split <;> simp [h]

@[simp] theorem runPieces_loan (q c : Nat) : (runPieces s q c).loan = s.loan := by
  simp [runPieces, onOp_loan]

@[simp] theorem closePart_loan (o : Op) : (closePart s o).loan = s.loan := (settleOp_loan _ _ _).trans (updOp_loan s _ _ _)

@[simp] theorem progress_loan (q c : Nat) : (progress s q c).loan = s.loan := by
  unfold progress
  split
  · rfl
  · simp [onOp_loan]

@[simp] theorem advance_loan (q c : Nat) : (advance s q c).loan = s.loan := by simp [advance, progressN]

@[simp] theorem advanceAll_loan : (advanceAll s).loan = s.loan := loan_foldl (fun t _ => advance_loan t _ _) _ s

@[simp] theorem sendDue_loan : (sendDue s).loan = s.loan :=
  loan_foldl (fun t _ => (loan_foldl (fun _ _ => sendTo_loan _ _ _) _ _).trans (updOp_loan t _ _ _)) _ s

end

end Sys2Proof.Machine
end
section
/-! PROOFS. The lending commands (08 R321, R322; 09 R357; 12 R485). -/

namespace Sys2Proof.Machine

section
variable {s : State}

/-- The sync unit without a loan, an offer or a request. -/
def State.noLoan (s : State) : SyncSt := { s.sync with lent := false, lendValid := false, reclaimAt := none }

/-! ### The offer and the grant (08 R321; 12 R485) -/

theorem endSurge_off (calm : s.warden.surging = false) (s0 : Nat) : endSurge s s0 = s := by
  simp [endSurge, calm]

theorem exec_lendOffer_due {a : Nat} (since : s.sync.quietSince = some a) (due : a + 2000 ≤ s.now) (en : s.sync.lendEn = true)
    (free : s.sync.lent = false) (new : s.sync.lendValid = false) (quiet : s.quiescent = true) (calm : s.warden.surging = false) :
    exec .lendOffer s = .next { s with sync := { s.sync with lendValid := true, offer := min 40 (fullLoad s.warden.vengMv - 6) } } := by
  show finishPlain s (if _ then _ else _) = _
  rw [if_pos (by simp [since, due, en, free, new, quiet]), finishPlain_eq, endSurge_off calm]
  rfl

theorem exec_lendOffer_not (why : s.sync.lendEn = false ∨ s.sync.quietSince = none ∨ s.quiescent = false) :
    exec .lendOffer s = .next s := by
  show finishPlain s (if _ then _ else _) = _
  rw [if_neg]
  · rfl
  · rcases why with h | h | h <;> simp [h]

theorem exec_lendGrant_offered (valid : s.sync.lendValid = true) (free : s.sync.lent = false) :
    exec .lendGrant s = .next { s with sync := { s.sync with lent := true, lends := (s.sync.lends + 1) % 2 ^ 32 } } := by
  show finishPlain s (if _ then _ else _) = _
  rw [if_pos (by simp [valid, free])]
  rfl

theorem exec_lendGrant_not (why : s.sync.lendValid = false ∨ s.sync.lent = true) : exec .lendGrant s = .next s := by
  show finishPlain s (if _ then _ else _) = _
  rw [if_neg]
  · rfl
  · rcases why with h | h <;> simp [h]

/-! ### The budget asked back (08 R322) -/

theorem exec_lendReclaim_offered (valid : s.sync.lendValid = true) (ended : s.sync.quietSince = none) :
    exec .lendReclaim s = .next { s with
      sync := { s.sync with lendValid := false, quietSince := none, reclaimAt := if s.sync.lent then some s.now else none } } := by
  show finishPlain s (if _ then _ else _) = _
  rw [if_pos (by simp [valid, ended])]
  rfl

theorem exec_lendReclaim_not (invalid : s.sync.lendValid = false) : exec .lendReclaim s = .next s := by
  show finishPlain s (if _ then _ else _) = _
  rw [if_neg (by simp [invalid])]
  rfl

/-! ### The budget back (08 R322) -/

theorem plain_resumeWork_loan (s : State) : (State.plain s (resumeWork s)).loan = (false, false, none) := by
  show (resumeWork s).loan = _
  rw [resumeWork, advanceAll_loan, sendDue_loan]
  rfl

/-- With no entry on the engine there is nothing to go on with. -/
theorem plain_resumeWork_empty (idle : s.ops = []) : State.plain s (resumeWork s) = { s with sync := s.noLoan } := by
  have work : resumeWork s = { s with sync := s.noLoan } := by
    simp [resumeWork, sendDue, advanceAll, idle, State.updSync, State.noLoan]
  rw [work]
  rfl

theorem exec_budgetReturned_lent (lent : s.sync.lent = true) :
    exec .budgetReturned s = .next (State.plain s (resumeWork s)) := by
  show finishPlain s (if _ then _ else _) = _
  rw [if_pos lent]
  rfl

theorem exec_budgetReturned_not (free : s.sync.lent = false) : exec .budgetReturned s = .next s := by
  show finishPlain s (if _ then _ else _) = _
  rw [if_neg (by simp [free])]
  rfl

theorem exec_reclaimLimit_due {a : Nat} (lent : s.sync.lent = true) (asked : s.sync.reclaimAt = some a) (due : a + 1000 ≤ s.now) :
    exec .reclaimLimit s = .next (State.plain s (resumeWork s)) := by
  show finishPlain s (if _ then _ else _) = _
  rw [if_pos (by simp [lent, asked, due])]
  rfl

theorem exec_reclaimLimit_early {a : Nat} (asked : s.sync.reclaimAt = some a) (early : s.now < a + 1000) :
    exec .reclaimLimit s = .next s := by
  show finishPlain s (if _ then _ else _) = _
  rw [if_neg (by simp [asked, early])]
  rfl

theorem exec_reclaimLimit_not (free : s.sync.lent = false) : exec .reclaimLimit s = .next s := by
  show finishPlain s (if _ then _ else _) = _
  rw [if_neg (by simp [free])]
  rfl

end

/-- Settles O45: each lending command by its condition; work goes on without the loan, which progress leaves as it is. -/
theorem lendingFollowsQuiescence : Obligations.LendingFollowsQuiescence := by
  unfold Obligations.LendingFollowsQuiescence
  rintro s w rfl
  refine ⟨fun _ => exec_lendOffer_due, exec_lendOffer_not, exec_lendGrant_offered, exec_lendGrant_not, exec_lendReclaim_offered,
    exec_lendReclaim_not, fun free => ⟨exec_budgetReturned_not free, exec_reclaimLimit_not free⟩, fun lent => ?_⟩
  have loan := plain_resumeWork_loan s
  simp only [State.loan, Prod.mk.injEq] at loan
  obtain ⟨free, invalid, unasked⟩ := loan
  have back := exec_budgetReturned_lent lent
  refine ⟨back, ⟨_, back, free, invalid, unasked⟩, fun a asked due => ⟨_, exec_reclaimLimit_due lent asked due, free, invalid⟩,
    fun idle => ?_, fun a asked => ⟨fun due idle => ?_, exec_reclaimLimit_early asked⟩⟩
  · rw [back, plain_resumeWork_empty idle]
    rfl
  · rw [exec_reclaimLimit_due lent asked due, plain_resumeWork_empty idle]
    rfl

end Sys2Proof.Machine
end
section
/-! PROOFS. The warden's power and heat commands (11 R424, R425, R441-R444; 12 R484-R486) change the warden, what is on its way to memory
and, by an owner's write, the keeper and the port alone. -/

namespace Sys2Proof.Machine

/-! ### What power and heat may change -/

/-- Only the warden, apart from its fences and its withdrawal, and the siphons, the keeper, the port and the supply of draws change. -/
def State.PowersOnly (s t : State) : Prop :=
  ∃ siphons keeper mgmt fresh warden, t = { s with siphons, keeper, mgmt, fresh, warden } ∧ warden.fenced = s.warden.fenced ∧
    warden.withdrawn = s.warden.withdrawn

namespace State.PowersOnly

theorem refl (s : State) : s.PowersOnly s := ⟨_, _, _, _, _, rfl, rfl, rfl⟩

theorem trans {s t u : State} : s.PowersOnly t → t.PowersOnly u → s.PowersOnly u := by
  rintro ⟨_, _, _, _, _, rfl, fenced, withdrawn⟩ ⟨_, _, _, _, _, rfl, fenced', withdrawn'⟩
  exact ⟨_, _, _, _, _, rfl, fenced'.trans fenced, withdrawn'.trans withdrawn⟩

theorem ite {s t u : State} {c : Prop} [Decidable c] (yes : s.PowersOnly t) (no : s.PowersOnly u) :
    s.PowersOnly (if c then t else u) := by
  split
  · exact yes
  · exact no

/-- A step of the warden that neither fences a pump nor withdraws the engine. -/
theorem updWarden (s : State) {f : WardenSt → WardenSt} (fenced : (f s.warden).fenced = s.warden.fenced)
    (withdrawn : (f s.warden).withdrawn = s.warden.withdrawn) : s.PowersOnly (s.updWarden f) :=
  ⟨_, _, _, _, _, rfl, fenced, withdrawn⟩

end State.PowersOnly

/-! ### The voltage, the records and surge -/

theorem WardenSt.compared_fenced (w : WardenSt) (now target : Nat) :
    (w.compared now target).fenced = w.fenced ∧ (w.compared now target).withdrawn = w.withdrawn := by
  unfold WardenSt.compared
  split
  · exact ⟨rfl, rfl⟩
  split <;> exact ⟨rfl, rfl⟩

theorem startWaitingTest_powersOnly (s : State) : s.PowersOnly (startWaitingTest s) :=
  .ite (.updWarden s rfl rfl) (.refl s)

theorem refreshDraw_powersOnly (s : State) : s.PowersOnly (refreshDraw s) :=
  .ite (.refl s) (.updWarden s rfl rfl)

theorem refreshVeng_powersOnly (s : State) : s.PowersOnly (refreshVeng s) := by
  obtain ⟨fenced, withdrawn⟩ := s.warden.compared_fenced s.now s.vengTarget.1
  rw [refreshVeng_eq]
  exact .trans ⟨_, _, _, _, _, rfl, fenced, withdrawn⟩ ((startWaitingTest_powersOnly _).trans (refreshDraw_powersOnly _))

theorem makeRecord_powersOnly (s : State) (r : FaultRecord) : s.PowersOnly (makeRecord s r) := by
  obtain ⟨_, _, _, -, recorded⟩ := makeRecord_form s r
  rw [recorded]
  exact ⟨_, _, _, _, _, rfl, rfl, rfl⟩

theorem engineRecord_powersOnly (s : State) (type s0 s1 s2 action : Nat) : s.PowersOnly (engineRecord s type s0 s1 s2 action) :=
  makeRecord_powersOnly s _

theorem thermalRecord_powersOnly (s : State) (s0 action : Nat) : s.PowersOnly (thermalRecord s s0 action) :=
  engineRecord_powersOnly s _ _ _ _ _

theorem beginSurge_powersOnly (s : State) : s.PowersOnly (beginSurge s) :=
  .ite (.trans (.updWarden s rfl rfl) ((engineRecord_powersOnly _ _ _ _ _ _).trans (refreshVeng_powersOnly _))) (.refl s)

theorem endSurge_powersOnly (s : State) (s0 : Nat) : s.PowersOnly (endSurge s s0) :=
  .ite (.trans (.updWarden s rfl rfl) ((engineRecord_powersOnly _ _ _ _ _ _).trans (refreshVeng_powersOnly _))) (.refl s)

/-! ### The ledger (11 R443) -/

theorem writeLedger_powersOnly (s : State) : s.PowersOnly (writeLedger s) := by
  refine .ite ?_ (.refl s)
  obtain ⟨_, written⟩ := enqueueWrite_form (s.updWarden fun w => { w with ledgerDue := false, ledgerNoted := s.warden.ledgerSec / 60 })
    1 257 s.warden.ledgerAddr _ siphonOf fun _ => .ledger
  rw [written]
  exact ⟨_, _, _, _, _, rfl, rfl, rfl⟩

theorem restoreLedger_powersOnly {s t : State} (h : restoreLedger s = some t) : s.PowersOnly t := by
  unfold restoreLedger at h
  dsimp only at h
  split at h
  · cases h
  refine .trans (.updWarden s (f := fun w => { w with restoreUsed := true }) rfl rfl) ?_
  split at h
  · cases h
    exact .trans (.updWarden _ rfl rfl) (refreshDraw_powersOnly _)
  · cases h
    exact .trans (.updWarden _ rfl rfl) (engineRecord_powersOnly _ _ _ _ _ _)

theorem writeSurgeCtrl_powersOnly {s t : State} {req restore : Bool} (h : writeSurgeCtrl s req restore = some t) : s.PowersOnly t := by
  obtain ⟨u, restored, rfl⟩ := Option.map_eq_some_iff.1 h
  have base : s.PowersOnly u := by
    cases restore with
    | true => exact restoreLedger_powersOnly restored
    | false => cases restored; exact .refl s
  have noted : u.PowersOnly (u.updWarden fun w => { w with request := req }) := .updWarden u rfl rfl
  exact base.trans (noted.trans ((State.PowersOnly.ite (.refl _) (endSurge_powersOnly _ 2)).trans (refreshDraw_powersOnly _)))

theorem writeVengCtrl_powersOnly {s t : State} {mv : Nat} {clear : Bool} (h : writeVengCtrl s mv clear = some t) : s.PowersOnly t := by
  obtain ⟨-, set⟩ := Option.ite_none_right_eq_some.1 h
  cases set
  exact .trans (.updWarden s rfl rfl) (refreshVeng_powersOnly _)

/-! ### The sense inputs and the cap (11 R425, R444; 12 R486) -/

theorem capRule_powersOnly (s : State) : s.PowersOnly (capRule s) :=
  .ite (.trans (.trans (.updWarden s rfl rfl) (endSurge_powersOnly _ 2)) ((thermalRecord_powersOnly _ _ _).trans (refreshVeng_powersOnly _)))
    (.refl s)

theorem noteTrip_powersOnly (was : Bool) (s : State) : s.PowersOnly (noteTrip was s) :=
  .ite (.refl s) (.ite (thermalRecord_powersOnly s _ _) (thermalRecord_powersOnly s _ _))

theorem senseTemp_powersOnly (s : State) (tj : Int) : s.PowersOnly (senseTemp s tj) :=
  .trans (.updWarden s rfl rfl) ((capRule_powersOnly _).trans ((noteTrip_powersOnly _ _).trans (refreshDraw_powersOnly _)))

theorem senseVeng_powersOnly (s : State) (mv : Nat) : s.PowersOnly (senseVeng s mv) :=
  .trans (.updWarden s rfl rfl) ((noteTrip_powersOnly _ _).trans (refreshVeng_powersOnly _))

theorem senseLost_powersOnly (s : State) (x : Sense) : s.PowersOnly (senseLost s x) := by
  have lost : ∀ f : WardenSt → WardenSt, (f s.warden).fenced = s.warden.fenced → (f s.warden).withdrawn = s.warden.withdrawn →
      s.PowersOnly (refreshDraw (thermalRecord (s.updWarden f) 2 9)) := fun f fenced withdrawn =>
    .trans (.updWarden s fenced withdrawn) ((thermalRecord_powersOnly _ _ _).trans (refreshDraw_powersOnly _))
  cases x with
  | tj => exact .ite (lost _ rfl rfl) (.refl s)
  | veng => exact .ite (lost _ rfl rfl) (.refl s)

theorem releaseCap_powersOnly (s : State) : s.PowersOnly (releaseCap s) :=
  .ite (.trans (.updWarden s rfl rfl) ((thermalRecord_powersOnly _ _ _).trans (refreshVeng_powersOnly _))) (.refl s)

/-! ### Owner writes (02 R84-R88) -/

theorem freezeAgent_form (s : State) (a cause : Nat) : ∃ keeper, freezeAgent s a cause = { s with keeper } := by
  unfold freezeAgent
  split
  · exact ⟨s.keeper, rfl⟩
  dsimp only
  split <;> exact ⟨_, rfl⟩

theorem foreignWrite_form (s : State) (m : Mgmt) : ∃ keeper mgmt fresh, foreignWrite s m = { s with keeper, mgmt, fresh } := by
  obtain ⟨keeper, frozen⟩ := freezeAgent_form { s with fresh := s.fresh + 1 } m.agent causeWrite
  rw [foreignWrite, frozen]
  exact ⟨keeper, _, _, rfl⟩

/-- Besides the effect of an accepted write, a write concerns the keeper, the port and the supply of draws. -/
theorem mgmtWrite_form (s : State) (m : Mgmt) (f : State → Option State) : ∃ t keeper mgmt fresh, (t = s ∨ f s = some t) ∧
    mgmtWrite s m f = { t with keeper, mgmt, fresh } := by
  unfold mgmtWrite ownerWrite
  split
  · exact ⟨s, s.keeper, _, s.fresh, .inl rfl, rfl⟩
  split
  · exact ⟨s, s.keeper, _, s.fresh, .inl rfl, rfl⟩
  split
  · obtain ⟨keeper, mgmt, fresh, foreign⟩ := foreignWrite_form s m
    exact ⟨s, keeper, mgmt, fresh, .inl rfl, foreign⟩
  dsimp only
  split
  · exact ⟨s, s.keeper, _, s.fresh, .inl rfl, rfl⟩
  next t carried =>
    refine ⟨t, ?_⟩
    split
    · exact ⟨_, _, t.fresh, .inr carried, rfl⟩
    · exact ⟨t.keeper, _, t.fresh, .inr carried, rfl⟩

theorem mgmtWrite_powersOnly {s : State} (m : Mgmt) {f : State → Option State} (h : ∀ t, f s = some t → s.PowersOnly t) :
    s.PowersOnly (mgmtWrite s m f) := by
  obtain ⟨t, keeper, mgmt, fresh, effect, written⟩ := mgmtWrite_form s m f
  have base : s.PowersOnly t := by
    rcases effect with rfl | carried
    · exact .refl t
    · exact h t carried
  rw [written]
  exact base.trans ⟨_, _, _, _, _, rfl, rfl, rfl⟩

/-! ### The commands -/

theorem finish_powersOnly {s t u : State} (work : s.PowersOnly t) (h : finish s t = .next u) : s.PowersOnly u := by
  obtain ⟨_, _, _, _, _, rfl, fenced, withdrawn⟩ := work
  rw [finish_next h]
  exact ⟨_, _, _, _, _, rfl, fenced, withdrawn⟩

theorem finishPlain_powersOnly {s t u : State} (work : s.PowersOnly t) (h : finishPlain s t = .next u) : s.PowersOnly u :=
  finish_powersOnly (work.trans ⟨_, _, _, _, _, rfl, rfl, rfl⟩) h

/-- The warden's power and heat commands. -/
def Instr.powers : Instr → Bool
  | .vengSense | .thermal _ | .senseStale _ | .senseStrobe _ _ | .capRelease | .surgeBegin | .surgeWindowSpent | .drawGrantFall
  | .ledgerSpent | .ledgerRecord | .request _ _ | .restore _ | .baseMvWrite _ _ | .clearRelief _ => true
  | _ => false

theorem exec_powersOnly {i : Instr} {s t : State} (power : Instr.powers i = true) (h : exec i s = .next t) : s.PowersOnly t := by
  cases i with
  | vengSense =>
    exact finishPlain_powersOnly (.ite (.trans (.updWarden s rfl rfl) (engineRecord_powersOnly _ _ _ _ _ _)) (.refl s)) h
  | thermal tj => exact finishPlain_powersOnly (senseTemp_powersOnly s tj) (checked_next h).2
  | senseStale w => exact finishPlain_powersOnly (senseLost_powersOnly s w) h
  | senseStrobe w value =>
    cases w with
    | veng => exact finishPlain_powersOnly (senseVeng_powersOnly s _) (checked_next h).2
    | tj => exact finishPlain_powersOnly (senseTemp_powersOnly s value) (checked_next h).2
  | capRelease => exact finishPlain_powersOnly (releaseCap_powersOnly s) h
  | surgeBegin => exact finishPlain_powersOnly (.trans (.updWarden s rfl rfl) (beginSurge_powersOnly _)) h
  | surgeWindowSpent => exact finishPlain_powersOnly (.ite (endSurge_powersOnly s 1) (.refl s)) h
  | drawGrantFall => exact finishPlain_powersOnly (.trans (.updWarden s rfl rfl) (endSurge_powersOnly _ 1)) h
  | ledgerSpent =>
    exact finishPlain_powersOnly (.ite (.trans (.trans (.updWarden s rfl rfl) (endSurge_powersOnly _ 3))
      (.trans (.updWarden _ rfl rfl) (refreshDraw_powersOnly _))) (.refl s)) h
  | ledgerRecord => exact finishPlain_powersOnly (writeLedger_powersOnly s) h
  | request m v => exact finish_powersOnly (mgmtWrite_powersOnly m fun _ => writeSurgeCtrl_powersOnly) h
  | restore m => exact finish_powersOnly (mgmtWrite_powersOnly m fun _ => writeSurgeCtrl_powersOnly) h
  | baseMvWrite m mv => exact finish_powersOnly (mgmtWrite_powersOnly m fun _ => writeVengCtrl_powersOnly) h
  | clearRelief m => exact finish_powersOnly (mgmtWrite_powersOnly m fun _ => writeVengCtrl_powersOnly) h
  | _ => cases power

end Sys2Proof.Machine
end
section
/-! PROOFS. What a change of a sync counter, and what follows from it, keeps of the rest of the engine (08 R310-R318, R323, R336). -/

namespace Sys2Proof.Machine

/-! ### The units that a change of a counter may concern -/

/-- Only the sync unit, apart from its weirs, the entries, the queues, the siphons and the link ports change. -/
structure State.CountersOnly (s t : State) : Prop where
  rest : ∃ queues ops siphons sync links, t = { s with queues, ops, siphons, sync, links }
  weirs : t.sync.weirs = s.sync.weirs

namespace State.CountersOnly

theorem refl (s : State) : s.CountersOnly s := ⟨⟨_, _, _, _, _, rfl⟩, rfl⟩

theorem trans {s t u : State} (h : s.CountersOnly t) (k : t.CountersOnly u) : s.CountersOnly u := by
  obtain ⟨⟨_, _, _, _, _, rfl⟩, weirs⟩ := h
  obtain ⟨⟨_, _, _, _, _, rfl⟩, weirs'⟩ := k
  exact ⟨⟨_, _, _, _, _, rfl⟩, weirs'.trans weirs⟩

theorem ite {s t u : State} {c : Prop} [Decidable c] (yes : s.CountersOnly t) (no : s.CountersOnly u) :
    s.CountersOnly (if c then t else u) := by
  split
  · exact yes
  · exact no

theorem foldl {α : Type} {f : State → α → State} (h : ∀ t a, State.CountersOnly t (f t a)) (l : List α) (s : State) :
    s.CountersOnly (l.foldl f s) :=
  List.foldlRecOn (motive := fun t => s.CountersOnly t) l f (.refl s) fun t kept a _ => kept.trans (h t a)

theorem updOp (s : State) (q c : Nat) (f : Op → Op) : s.CountersOnly (s.updOp q c f) := ⟨⟨_, _, _, _, _, rfl⟩, rfl⟩

theorem updSync (s : State) {f : SyncSt → SyncSt} (weirs : (f s.sync).weirs = s.sync.weirs) : s.CountersOnly (s.updSync f) :=
  ⟨⟨_, _, _, _, _, rfl⟩, weirs⟩

theorem sendTo (s : State) (dest : Nat) (b : Body) : s.CountersOnly (sendTo s dest b) := by
  obtain ⟨_, sent⟩ := sendTo_form s dest b
  rw [sent]
  exact ⟨⟨_, _, _, _, _, rfl⟩, rfl⟩

theorem fetches {s t : State} (h : s.OnlyFetches t) : s.CountersOnly t := by
  obtain ⟨⟨_, _, rfl⟩, -⟩ := h
  exact ⟨⟨_, _, _, _, _, rfl⟩, rfl⟩

end State.CountersOnly

/-! ### Changes of a counter and their waiters (08 R310-R317) -/

theorem pulse_countersOnly (s : State) (w : Nat) : s.CountersOnly (pulse s w) := by
  obtain ⟨_, _, _, pulsed⟩ := pulse_form s w
  rw [pulsed]
  exact ⟨⟨_, _, _, _, _, rfl⟩, rfl⟩

theorem putCounter_countersOnly (s : State) (n : Nat) (old new : Counter) : s.CountersOnly (putCounter s n old new) := by
  obtain ⟨_, _, _, _, put⟩ := putCounter_form s n old new
  rw [put]
  exact ⟨⟨_, _, _, _, _, rfl⟩, rfl⟩

theorem rotateCredits_countersOnly (s : State) (o : Op) (fuel : Nat) : s.CountersOnly (rotateCredits s o fuel) := by
  induction fuel generalizing s o with
  | zero => exact .refl s
  | succ fuel ih => exact .ite (.trans (.ite (.sendTo s _ _) (.refl s)) (.trans (.updOp _ _ _ _) (ih _ _))) (.refl s)

theorem releaseWaiter_countersOnly (s : State) (w : Waiter) : s.CountersOnly (releaseWaiter s w) := by
  unfold releaseWaiter
  extract_lets left src taken released
  have leaves : s.CountersOnly left := .updSync s rfl
  have takes : s.CountersOnly taken :=
    leaves.trans (.ite (.refl left) (.ite (.updSync left rfl) (putCounter_countersOnly left _ _ _)))
  have counted : s.CountersOnly released := takes.trans (.updOp taken _ _ _)
  refine .ite ?_ (takes.trans (.updOp taken _ _ _))
  split
  · exact counted.trans (rotateCredits_countersOnly _ _ _)
  · exact counted

theorem parkOrRelease_countersOnly (s : State) (w : Waiter) : s.CountersOnly (parkOrRelease s w) :=
  have parks : s.CountersOnly (s.updSync fun y => { y with waiters := y.waiters ++ [w] }) := .updSync s rfl
  .ite (parks.trans (releaseWaiter_countersOnly _ w)) parks

theorem rotateWait_countersOnly (q c fuel : Nat) (s : State) : s.CountersOnly (rotateWait s q c fuel) := by
  induction fuel generalizing s with
  | zero => exact .refl s
  | succ fuel ih =>
    unfold rotateWait
    split
    · exact .refl s
    · exact .ite ((parkOrRelease_countersOnly s _).trans (ih _)) (.refl s)

theorem checkWaiters_countersOnly (s : State) (n : Nat) : s.CountersOnly (checkWaiters s n) :=
  .trans (.foldl (fun t w => .ite (releaseWaiter_countersOnly t w) (.refl t)) _ s)
    (.foldl (fun t _ => .ite (rotateWait_countersOnly _ _ _ t) (.refl t)) _ _)

theorem signalPut_countersOnly (s : State) (n : Nat) (sub : Bool) (amount : Nat) (src : ChangeSrc) :
    s.CountersOnly (signalPut s n sub amount src) :=
  (putCounter_countersOnly s n _ _).trans (.updSync _ rfl)

/-- The state in which a signal to a counter at an end has been ignored. -/
def signalIgnored (s : State) (n : Nat) (src : ChangeSrc) : State :=
  (s.setCounter n (stampLast s (s.counter n) src true)).updSync fun y => { y with
    satSeen := y.satSeen || (s.counter n).sat, underSeen := y.underSeen || (!(s.counter n).sat && (s.counter n).under) }

/-- A signal is ignored, or put to its counter, whose waiters are then checked. -/
theorem applySignal_cases (s : State) (n : Nat) (sub : Bool) (amount : Nat) (src : ChangeSrc) :
    (applySignal s n sub amount src).1 = signalIgnored s n src ∨
      (applySignal s n sub amount src).1 = checkWaiters (signalPut s n sub amount src) n := by
  by_cases shut : ((s.counter n).sat || (s.counter n).under) = true
  · exact .inl (congrArg Prod.fst (if_pos shut))
  · obtain ⟨sat, under⟩ := Bool.or_eq_false_iff.1 (Bool.not_eq_true _ ▸ shut)
    exact .inr (congrArg Prod.fst (applySignal_open sub amount src sat under))

theorem applySignal_countersOnly (s : State) (n : Nat) (sub : Bool) (amount : Nat) (src : ChangeSrc) :
    s.CountersOnly (applySignal s n sub amount src).1 := by
  rcases applySignal_cases s n sub amount src with ignored | put
  · rw [ignored]
    exact ⟨⟨_, _, _, _, _, rfl⟩, rfl⟩
  · rw [put]
    exact (signalPut_countersOnly s n _ _ _).trans (checkWaiters_countersOnly _ n)

theorem setValue_countersOnly (s : State) (n v agent : Nat) : s.CountersOnly (setValue s n v agent) := by
  have set : s.CountersOnly (s.setCounter n (markMirror n (s.counter n) ((s.counter n).written s v agent))) := ⟨⟨_, _, _, _, _, rfl⟩, rfl⟩
  exact set.trans ((pulse_countersOnly _ _).trans (checkWaiters_countersOnly _ n))

theorem wakeWaiters_countersOnly (s : State) (w : Nat) : s.CountersOnly (wakeWaiters s w) :=
  .foldl (fun t n => .ite (checkWaiters_countersOnly t n) (.refl t)) _ s

theorem ackSignal_countersOnly (s : State) (x : SignalMsg) (code : Nat) : s.CountersOnly (ackSignal s x code) :=
  .ite (.sendTo s _ _) (.refl s)

theorem applyRemote_countersOnly (s : State) (x : SignalMsg) : s.CountersOnly (applyRemote s x) := by
  unfold applyRemote
  split
  · exact .trans (.updSync s rfl) (ackSignal_countersOnly _ x _)
  · exact (applySignal_countersOnly s _ _ _ _).trans (ackSignal_countersOnly _ x _)

theorem applyHeld_countersOnly (s : State) (i : Nat) : s.CountersOnly (applyHeld s i) := by
  unfold applyHeld
  split
  · exact .refl s
  · exact .ite (.trans (.updSync s rfl) (applyRemote_countersOnly _ _)) (.refl s)

theorem fabricSignal_countersOnly (s : State) (i : Nat) (x : FabricSignal) : s.CountersOnly (fabricSignal s i x) :=
  .ite (.trans (.updSync s rfl) (.updSync _ rfl)) ((applySignal_countersOnly s _ _ _ _).trans (.updSync _ rfl))

end Sys2Proof.Machine
end
section
/-! PROOFS. The sync unit's commands (08 R307-R318, R323, R336) leave the entries with no waiter and the queues' own state as they are while
no ROTATE is started; an acknowledgement, or a SIGNAL sent again, touches one entry and its queue. -/

namespace Sys2Proof.Machine

/-! ### Entries with no waiter, and the queues' own state -/

/-- What a change of a counter spares while no ROTATE is started: the entries with no waiter parked, and of the queues all but the batch
that they ask for. -/
structure State.Spares (s t : State) : Prop where
  still : ∀ y ∈ t.ops, y.desc.opcode ≠ 0x07
  waiters : ∀ w ∈ t.sync.waiters, w ∈ s.sync.waiters
  op? : ∀ q c, (∀ w ∈ s.sync.waiters, ¬ (w.q = q ∧ w.c = c)) → t.op? q c = s.op? q c
  queue : ∀ p, ∃ batch batchId, t.queue p = { s.queue p with batch, batchId }

theorem State.op?_congr {s t : State} (h : t.ops = s.ops) (q c : Nat) : t.op? q c = s.op? q c := by
  rw [State.op?, h, ← State.op?]

namespace State.Spares

theorem refl {s : State} (still : ∀ y ∈ s.ops, y.desc.opcode ≠ 0x07) : s.Spares s :=
  ⟨still, fun _ mem => mem, fun _ _ _ => rfl, fun _ => ⟨_, _, rfl⟩⟩

section
variable {s t u : State} (h : s.Spares t)
include h

/-- A step that leaves the entries, and parks no waiter. -/
theorem idle (ops : u.ops = t.ops) (waiters : ∀ w ∈ u.sync.waiters, w ∈ t.sync.waiters)
    (queue : ∀ p, ∃ batch batchId, u.queue p = { t.queue p with batch, batchId }) : s.Spares u where
  still := ops ▸ h.still
  waiters := fun w mem => h.waiters w (waiters w mem)
  op? := fun q c free => (State.op?_congr ops q c).trans (h.op? q c free)
  queue := fun p => by
    obtain ⟨_, _, first⟩ := h.queue p
    obtain ⟨batch, batchId, second⟩ := queue p
    exact ⟨batch, batchId, by rw [second, first]⟩

/-- A step that does not concern the queues at all. -/
theorem away (ops : u.ops = t.ops) (waiters : ∀ w ∈ u.sync.waiters, w ∈ t.sync.waiters) (queues : u.queues = t.queues) : s.Spares u :=
  h.idle ops waiters fun p => ⟨_, _, by rw [State.queue, queues, ← State.queue]⟩

theorem stirred {g : Nat} (k : t.Stirred u g) : s.Spares u :=
  h.away k.ops (fun _ mem => k.waiters ▸ mem) k.queues

theorem fetches (k : t.OnlyFetches u) : s.Spares u := by
  refine h.idle ?_ ?_ k.queue
  · obtain ⟨_, _, e⟩ := k.rest
    rw [e]
  · obtain ⟨_, _, e⟩ := k.rest
    rw [e]
    exact fun _ mem => mem

theorem puts {n : Nat} {x : Counter} (k : t.PutsCounter u n x) : s.Spares u := by
  refine h.idle ?_ (fun _ mem => k.waiters ▸ mem) k.queue
  obtain ⟨_, _, _, e⟩ := k.rest
  rw [e]

theorem sendTo (dest : Nat) (b : Body) : s.Spares (sendTo t dest b) := by
  obtain ⟨_, sent⟩ := sendTo_form t dest b
  rw [sent]
  exact h.away rfl (fun _ mem => mem) rfl

/-- An update of an entry that has a waiter. -/
theorem updOp {w : Waiter} (mem : w ∈ s.sync.waiters) {q c : Nat} (own : w.q = q ∧ w.c = c) (f : Op → Op)
    (named : ∀ o, o.is q c = true → (f o).is q c = true) (other : ∀ y ∈ t.ops, (f y).desc.opcode ≠ 0x07) :
    s.Spares (t.updOp q c f) where
  still := updOp_no_rotate h.still q c other
  waiters := h.waiters
  op? := fun r d free => by
    have apart : ∀ o : Op, o.is q c = true → o.is r d = false := fun o e => by
      rw [Op.is_iff] at e
      rw [← Bool.not_eq_true, Op.is_iff, e.1, e.2, ← own.1, ← own.2]
      exact free w mem
    exact (find?_mapIf_other _ _ _ _ apart fun o e => apart _ (named o e)).trans (h.op? r d free)
  queue := h.queue

end

end State.Spares

theorem fabricSignal_eq (s : State) (i : Nat) (x : FabricSignal) : fabricSignal s i x =
    if requestBarred x then requestAnswered (refuse s x.counter (requestSrc s x) 0) i x 3
    else requestAnswered (applySignal s x.counter x.sub x.amount.toNat (requestSrc s x)).1 i x
      (applySignal s x.counter x.sub x.amount.toNat (requestSrc s x)).2 := rfl

section
variable {s t : State} (h : s.Spares t)
include h

/-! ### Changes of a counter and their waiters (08 R310-R317) -/

theorem rotateCredits_spares {w : Waiter} (mem : w ∈ s.sync.waiters) {o : Op} (own : w.q = o.q ∧ w.c = o.c)
    (other : o.desc.opcode ≠ 0x07) (fuel : Nat) : s.Spares (rotateCredits t o fuel) := by
  induction fuel generalizing t o with
  | zero => exact h
  | succ fuel ih =>
    unfold rotateCredits
    extract_lets r j o' g sent
    split
    · have sends : s.Spares sent := by
        unfold sent
        split
        · exact h.sendTo _ _
        · exact h
      exact ih (sends.updOp mem own _ (fun _ _ => (Op.is_iff o' _ _).2 ⟨rfl, rfl⟩) fun _ _ => other) own other
    · exact h

theorem releaseWaiter_spares {w : Waiter} (mem : w ∈ s.sync.waiters) : s.Spares (releaseWaiter t w) := by
  unfold releaseWaiter
  extract_lets left src taken released
  have leaves : s.Spares left := h.away rfl (fun _ kept => List.mem_of_mem_erase kept) rfl
  have takes : s.Spares taken := by
    unfold taken
    split
    · exact leaves
    split
    · exact leaves.away rfl (fun _ kept => kept) rfl
    · exact leaves.puts (putCounter_puts left _ _ _)
  have counted : s.Spares released := takes.updOp mem ⟨rfl, rfl⟩ _ (fun _ e => e) takes.still
  split
  · split
    next o found =>
      obtain ⟨queue, count⟩ := State.op?_is found
      exact rotateCredits_spares counted mem ⟨queue.symm, count.symm⟩ (counted.still o (List.mem_of_find?_eq_some found)) _
    next => exact counted
  · exact takes.updOp mem ⟨rfl, rfl⟩ _ (fun _ e => e) takes.still

/-- Waiters are released in turn; no ROTATE parks another. -/
theorem checkWaiters_spares (n : Nat) : s.Spares (checkWaiters t n) := by
  have released : s.Spares ((t.sync.waiters.filter fun w => w.counter == n).foldl
      (fun u w => if (u.counter n).meets w.threshold then releaseWaiter u w else u) t) := by
    refine List.foldlRecOn (motive := fun u => s.Spares u) _ _ h fun u spared w mem => ?_
    split
    · exact releaseWaiter_spares spared (h.waiters w (List.mem_filter.1 mem).1)
    · exact spared
  rw [checkWaiters, rotateWaits_none released.still]
  exact released

theorem applySignal_spares (n : Nat) (sub : Bool) (amount : Nat) (src : ChangeSrc) : s.Spares (applySignal t n sub amount src).1 := by
  rcases applySignal_cases t n sub amount src with ignored | put
  · rw [ignored]
    exact h.away rfl (fun _ kept => kept) rfl
  · rw [put]
    exact checkWaiters_spares (h.puts (signalPut_puts t n sub amount src)) n

theorem setValue_spares (n v agent : Nat) : s.Spares (setValue t n v agent) :=
  checkWaiters_spares (h.puts (valuePut_puts t n v agent)) n

theorem wakeWaiters_spares (w : Nat) : s.Spares (wakeWaiters t w) := by
  refine List.foldlRecOn (motive := fun u => s.Spares u) _ _ h fun u spared n _ => ?_
  split
  · exact checkWaiters_spares spared n
  · exact spared

/-! ### Remote signals and requests (08 R307, R323) -/

theorem ackSignal_spares (x : SignalMsg) (code : Nat) : s.Spares (ackSignal t x code) := by
  unfold ackSignal
  split
  · exact h.sendTo _ _
  · exact h

theorem refuse_spares (n : Nat) (src : ChangeSrc) (reason : Nat) : s.Spares (refuse t n src reason) :=
  h.away rfl (fun _ kept => kept) rfl

theorem applyRemote_spares (x : SignalMsg) : s.Spares (applyRemote t x) := by
  unfold applyRemote
  split
  · exact ackSignal_spares (refuse_spares h _ _ _) x _
  · exact ackSignal_spares (applySignal_spares h _ _ _ _) x _

theorem recvSignal_spares (x : SignalMsg) : s.Spares (recvSignal t x) := by
  have stirs : s.Spares (groupStirs t x.c.group) := h.stirred (groupStirs_stirred t x.c.group)
  unfold recvSignal
  dsimp only
  split
  · exact h
  split
  · exact applyRemote_spares h x
  split
  · exact h
  split
  · exact ackSignal_spares stirs x 4
  split
  · exact applyRemote_spares stirs x
  · exact stirs.away rfl (fun _ kept => kept) rfl

theorem applyHeld_spares (i : Nat) : s.Spares (applyHeld t i) := by
  have taken : s.Spares (heldTaken t i) := h.away rfl (fun _ kept => kept) rfl
  unfold applyHeld
  split
  · exact h
  dsimp only
  split
  · exact applyRemote_spares taken _
  · exact h

theorem requestAnswered_spares (i : Nat) (x : FabricSignal) (code : Nat) : s.Spares (requestAnswered t i x code) :=
  h.away rfl (fun _ kept => kept) rfl

theorem fabricSignal_spares (i : Nat) (x : FabricSignal) : s.Spares (fabricSignal t i x) := by
  rw [fabricSignal_eq]
  split
  · exact requestAnswered_spares (refuse_spares h _ _ _) i x _
  · exact requestAnswered_spares (applySignal_spares h _ _ _ _) i x _

end

/-! ### One entry and its queue (08 R323) -/

/-- Of the entries and the queues only the entry `c` of queue `q`, and that queue, change. -/
structure State.Concerns (s t : State) (q c : Nat) : Prop where
  op? : ∀ r d, ¬ (r = q ∧ d = c) → t.op? r d = s.op? r d
  queue : ∀ r, r ≠ q → t.queue r = s.queue r

theorem State.queue_congr {s t : State} (h : t.queues = s.queues) (q : Nat) : t.queue q = s.queue q := by
  rw [State.queue, h, ← State.queue]

theorem State.op?_removeOp_other (s : State) {q c r d : Nat} (other : ¬ (r = q ∧ d = c)) : (s.removeOp q c).op? r d = s.op? r d := by
  have apart : ∀ o : Op, o.is r d = true → o.is q c = false := fun o e => by
    rw [Op.is_iff] at e
    rw [← Bool.not_eq_true, Op.is_iff, e.1, e.2]
    exact other
  rw [State.op?, State.removeOp, List.find?_filter, State.op?]
  congr 1
  funext o
  cases e : o.is r d
  · simp
  · simp [apart o e]

theorem queueError_queue_other (s : State) {q r : Nat} (other : r ≠ q) (cause index : Nat) :
    (queueError s q cause index).queue r = s.queue r := by
  unfold queueError
  rw [discardUnstarted, State.queue_updQueue_other _ _ other]
  split
  · rfl
  split <;> rw [setQState, State.queue_updQueue_other _ _ other, State.queue_setQueue_other _ _ other]

namespace State.Concerns

theorem of_same {s t : State} (ops : t.ops = s.ops) (queues : t.queues = s.queues) (q c : Nat) : s.Concerns t q c :=
  ⟨fun r d _ => State.op?_congr ops r d, fun r _ => State.queue_congr queues r⟩

theorem trans {s t u : State} {q c : Nat} (h : s.Concerns t q c) (k : t.Concerns u q c) : s.Concerns u q c :=
  ⟨fun r d other => (k.op? r d other).trans (h.op? r d other), fun r other => (k.queue r other).trans (h.queue r other)⟩

theorem stirred {s t : State} {g : Nat} (h : s.Stirred t g) (q c : Nat) : s.Concerns t q c := of_same h.ops h.queues q c

theorem updOp (s : State) (q c : Nat) (f : Op → Op) (h : ∀ o : Op, (f o).q = o.q ∧ (f o).c = o.c) : s.Concerns (s.updOp q c f) q c :=
  ⟨fun _ _ other => State.op?_updOp_other s f h other, fun _ _ => rfl⟩

theorem removeOp (s : State) (q c : Nat) : s.Concerns (s.removeOp q c) q c :=
  ⟨fun _ _ other => State.op?_removeOp_other s other, fun _ _ => rfl⟩

theorem queueError (s : State) (q c cause index : Nat) : s.Concerns (queueError s q cause index) q c :=
  ⟨fun r d _ => State.op?_congr (queueError_ops s q cause index) r d, fun _ other => queueError_queue_other s other cause index⟩

end State.Concerns

end Sys2Proof.Machine
end
section
/-! PROOFS. Power, heat and the sync unit's commands keep the rest of the engine (08 R312-R318, R323, R336; 11 R424, R425, R441-R444;
12 R458, R484-R486). -/

namespace Sys2Proof.Machine

/-! ### What a command of the sync unit may change -/

/-- Of the groups the step timers alone change, and of the units the sync unit, apart from its weirs, the entries and the queues, what is on
its way, the keeper, the port and the supply of draws. -/
structure State.SignalsOnly (s t : State) : Prop where
  rest : ∃ keeper mgmt fresh groups queues ops siphons sync links net,
    t = { s with keeper, mgmt, fresh, groups, queues, ops, siphons, sync, links, net }
  weirs : t.sync.weirs = s.sync.weirs
  group : ∀ g, (t.group g).step = (s.group g).step ∧ (t.group g).run = (s.group g).run ∧ (t.group g).halted = (s.group g).halted

namespace State.SignalsOnly

theorem refl (s : State) : s.SignalsOnly s := ⟨⟨_, _, _, _, _, _, _, _, _, _, rfl⟩, rfl, fun _ => ⟨rfl, rfl, rfl⟩⟩

theorem trans {s t u : State} (h : s.SignalsOnly t) (k : t.SignalsOnly u) : s.SignalsOnly u := by
  obtain ⟨⟨_, _, _, _, _, _, _, _, _, _, rfl⟩, weirs, group⟩ := h
  obtain ⟨⟨_, _, _, _, _, _, _, _, _, _, rfl⟩, weirs', group'⟩ := k
  refine ⟨⟨_, _, _, _, _, _, _, _, _, _, rfl⟩, weirs'.trans weirs, fun g => ?_⟩
  obtain ⟨step, run, halted⟩ := group g
  obtain ⟨step', run', halted'⟩ := group' g
  exact ⟨step'.trans step, run'.trans run, halted'.trans halted⟩

theorem ite {s t u : State} {c : Prop} [Decidable c] (yes : s.SignalsOnly t) (no : s.SignalsOnly u) :
    s.SignalsOnly (if c then t else u) := by
  split
  · exact yes
  · exact no

theorem counters {s t : State} (h : s.CountersOnly t) : s.SignalsOnly t := by
  obtain ⟨⟨_, _, _, _, _, rfl⟩, weirs⟩ := h
  exact ⟨⟨_, _, _, _, _, _, _, _, _, _, rfl⟩, weirs, fun _ => ⟨rfl, rfl, rfl⟩⟩

theorem stirred {s t : State} {g : Nat} (h : s.Stirred t g) : s.SignalsOnly t where
  rest := by
    obtain ⟨_, _, _, _, rfl⟩ := h.rest
    exact ⟨_, _, _, _, _, _, _, _, _, _, rfl⟩
  weirs := by
    obtain ⟨_, _, _, _, rfl⟩ := h.rest
    rfl
  group := fun k => ⟨h.keeps GroupSt.step (fun _ _ => rfl) k, h.keeps GroupSt.run (fun _ _ => rfl) k,
    h.keeps GroupSt.halted (fun _ _ => rfl) k⟩

end State.SignalsOnly

theorem queueError_countersOnly (s : State) (q cause index : Nat) : s.CountersOnly (queueError s q cause index) := by
  obtain ⟨_, failed⟩ := queueError_form s q cause index
  rw [failed]
  exact ⟨⟨_, _, _, _, _, rfl⟩, rfl⟩

theorem wakeQueues_countersOnly (s : State) (w : Nat) : s.CountersOnly (wakeQueues s w) := .fetches (wakeQueues_onlyFetches s w)

theorem recvSignal_signalsOnly (s : State) (x : SignalMsg) : s.SignalsOnly (recvSignal s x) := by
  have stirs : s.SignalsOnly (groupStirs s x.c.group) := .stirred (groupStirs_stirred s x.c.group)
  unfold recvSignal
  dsimp only
  refine .ite (.refl s) ?_
  split
  · exact .counters (applyRemote_countersOnly s x)
  · exact .ite (.refl s) (stirs.trans (.counters (.ite (ackSignal_countersOnly _ x _)
      (.ite (applyRemote_countersOnly _ x) (.updSync _ rfl)))))

/-! ### One SIGNAL and its queue (08 R314, R323) -/

/-- Of the entries and the queues only one SIGNAL and its queue are concerned, and of the rest only what a command of the sync unit may
change. -/
structure State.Touches (s t : State) (q c : Nat) : Prop where
  rest : s.SignalsOnly t
  concerns : s.Concerns t q c

namespace State.Touches

theorem refl (s : State) (q c : Nat) : s.Touches s q c := ⟨.refl s, .of_same rfl rfl q c⟩

theorem trans {s t u : State} {q c : Nat} (h : s.Touches t q c) (k : t.Touches u q c) : s.Touches u q c :=
  ⟨h.rest.trans k.rest, h.concerns.trans k.concerns⟩

theorem ite {s t u : State} {q c : Nat} {p : Prop} [Decidable p] (yes : s.Touches t q c) (no : s.Touches u q c) :
    s.Touches (if p then t else u) q c := by
  split
  · exact yes
  · exact no

theorem stirred {s t : State} {g : Nat} (h : s.Stirred t g) (q c : Nat) : s.Touches t q c := ⟨.stirred h, .stirred h q c⟩

theorem updOp (s : State) (q c : Nat) (f : Op → Op) (h : ∀ o : Op, (f o).q = o.q ∧ (f o).c = o.c) : s.Touches (s.updOp q c f) q c :=
  ⟨.counters (.updOp s q c f), .updOp s q c f h⟩

theorem removeOp (s : State) (q c : Nat) : s.Touches (s.removeOp q c) q c :=
  ⟨.counters ⟨⟨_, _, _, _, _, rfl⟩, rfl⟩, .removeOp s q c⟩

theorem queueError (s : State) (q c cause index : Nat) : s.Touches (queueError s q cause index) q c :=
  ⟨.counters (queueError_countersOnly s q cause index), .queueError s q c cause index⟩

end State.Touches

/-- Whatever the code, an acknowledgement concerns the SIGNAL that it names. -/
theorem recvAck_touches {s : State} {a : AckMsg} {o : Op} (named : s.signalOf a = some o) : s.Touches (recvAck s a) o.q o.c := by
  cases trades : s.mayTradeIn a.c.group with
  | false => rw [recvAck_ignored (.inl trades)]; exact .refl s _ _
  | true =>
    have timed : ∀ t : State, t.Touches (refreshTimer t a.c.group) o.q o.c := fun t => .stirred (refreshTimer_stirred t _) _ _
    have failed : ∀ t : State, t.Touches (refreshTimer (queueError t o.q 8 o.c) a.c.group) o.q o.c := fun t =>
      .trans (.queueError t o.q o.c 8 o.c) (timed _)
    have done : ∀ t : State, t.Touches (signalDone t o) o.q o.c := fun t => .updOp t o.q o.c _ fun _ => ⟨rfl, rfl⟩
    simp only [recvAck, trades, named, if_true]
    refine .trans (.stirred (groupStirs_stirred s a.c.group) _ _) (.ite ?applied (.ite ?misused (.ite ?refused ?busy)))
    case applied => exact (done _).trans (timed _)
    case misused => exact (done _).trans (failed _)
    case refused => exact .trans (.removeOp _ o.q o.c) (failed _)
    case busy => exact .updOp _ o.q o.c _ fun _ => ⟨rfl, rfl⟩

/-- A SIGNAL is sent again, or nothing happens. -/
theorem resendSignal_cases (s : State) (q c : Nat) : resendSignal s q c = s ∨
    ∃ x links, resendSignal s q c = { resendDue s q c x with links } := by
  unfold resendSignal
  split
  · exact .inl rfl
  split
  · exact .inl rfl
  next x _ =>
    split
    · exact .inl rfl
    dsimp only
    split
    · exact .inl rfl
    refine .inr ⟨x, ?_⟩
    split
    · exact sendTo_form _ _ _
    · exact ⟨s.links, rfl⟩

/-! ### The commands -/

section
variable {s t : State}

theorem exec_remoteSignal_next {x : SignalMsg} (h : exec (.remoteSignal x) s = .next t) :
    t = State.plain s (recvSignal (takeIn s x.src (.signal x)) x) :=
  finish_next (checked_next h).2

theorem exec_signalAck_next {a : AckMsg} (h : exec (.signalAck a) s = .next t) :
    t = State.plain s (recvAck (takeIn s a.src (.ack a)) a) :=
  finish_next (checked_next h).2

theorem exec_signalRequest_next {i : Fin 8} {x : FabricSignal} (h : exec (.signalRequest i x) s = .next t) :
    t = State.plain s (fabricSignal s i x) := finish_next h

theorem exec_wakePulse_next {w : Fin 256} (h : exec (.wakePulse w) s = .next t) :
    t = State.plain s (wakeQueues (wakeWaiters s w) w) := finish_next h

/-- The value has been written, or the write has not been accepted; the keeper and the port besides. -/
theorem exec_syncValueWrite_next {m : Mgmt} {n : Fin 4096} {d : W64} (h : exec (.syncValueWrite m n d) s = .next t) :
    ∃ u keeper mgmt fresh, (u = s ∨ u = setValue s n (bits d.toNat 0 32) m.agent) ∧
      t = { u with keeper, mgmt, fresh, pending := s.pending, now := s.now } := by
  obtain ⟨u, keeper, mgmt, fresh, effect, written⟩ := mgmtWrite_form s m fun s => some (setValue s n (bits d.toNat 0 32) m.agent)
  refine ⟨u, keeper, mgmt, fresh, effect.imp_right fun e => (Option.some.inj e).symm, ?_⟩
  rw [finish_next h, written]

end

/-- The commands that change a counter, or check its waiters. -/
def Instr.changesCounter : Instr → Bool
  | .remoteSignal _ | .heldSignalApply _ | .signalRequest _ _ | .syncValueWrite _ _ _ | .wakePulse _ => true
  | _ => false

theorem State.SignalsOnly.plain {s t : State} (h : s.SignalsOnly t) : s.SignalsOnly (State.plain s t) := by
  obtain ⟨⟨_, _, _, _, _, _, _, _, _, _, rfl⟩, weirs, group⟩ := h
  exact ⟨⟨_, _, _, _, _, _, _, _, _, _, rfl⟩, weirs, group⟩

theorem exec_changesCounter_signalsOnly {i : Instr} {s t : State} (change : Instr.changesCounter i = true) (h : exec i s = .next t) :
    s.SignalsOnly t := by
  cases i with
  | remoteSignal x =>
    have st : s.Stirred (takeIn s x.src (.signal x)) x.c.group := takeIn_stirred s x.src rfl
    rw [exec_remoteSignal_next h]
    exact ((State.SignalsOnly.stirred st).trans (recvSignal_signalsOnly _ x)).plain
  | heldSignalApply j =>
    cases h
    exact (State.SignalsOnly.counters (applyHeld_countersOnly s j)).plain
  | signalRequest j x =>
    rw [exec_signalRequest_next h]
    exact (State.SignalsOnly.counters (fabricSignal_countersOnly s j x)).plain
  | syncValueWrite m n d =>
    obtain ⟨u, _, _, _, effect, rfl⟩ := exec_syncValueWrite_next h
    have base : s.CountersOnly u := by
      rcases effect with rfl | rfl
      · exact .refl u
      · exact setValue_countersOnly s n _ _
    obtain ⟨⟨_, _, _, _, _, rfl⟩, weirs⟩ := base
    exact ⟨⟨_, _, _, _, _, _, _, _, _, _, rfl⟩, weirs, fun _ => ⟨rfl, rfl, rfl⟩⟩
  | wakePulse w =>
    rw [exec_wakePulse_next h]
    exact (State.SignalsOnly.counters ((wakeWaiters_countersOnly s w).trans (wakeQueues_countersOnly _ w))).plain
  | _ => cases change

theorem exec_changesCounter_spares {i : Instr} {s t : State} (change : Instr.changesCounter i = true) (h : exec i s = .next t)
    (still : ∀ y ∈ s.ops, y.desc.opcode ≠ 0x07) : s.Spares t := by
  have base : s.Spares s := .refl still
  cases i with
  | remoteSignal x =>
    have st : s.Stirred (takeIn s x.src (.signal x)) x.c.group := takeIn_stirred s x.src rfl
    rw [exec_remoteSignal_next h]
    exact (recvSignal_spares (base.stirred st) x).away rfl (fun _ kept => kept) rfl
  | heldSignalApply j =>
    cases h
    exact (applyHeld_spares base j).away rfl (fun _ kept => kept) rfl
  | signalRequest j x =>
    rw [exec_signalRequest_next h]
    exact (fabricSignal_spares base j x).away rfl (fun _ kept => kept) rfl
  | syncValueWrite m n d =>
    obtain ⟨u, _, _, _, effect, rfl⟩ := exec_syncValueWrite_next h
    have set : s.Spares u := by
      rcases effect with rfl | rfl
      · exact base
      · exact setValue_spares base n _ _
    exact set.away rfl (fun _ kept => kept) rfl
  | wakePulse w =>
    rw [exec_wakePulse_next h]
    exact ((wakeWaiters_spares base w).fetches (wakeQueues_onlyFetches _ w)).away rfl (fun _ kept => kept) rfl
  | _ => cases change

section
variable {s t : State}

/-- The message names a SIGNAL or none, and is taken in. -/
theorem exec_signalAck_touches {a : AckMsg} (h : exec (.signalAck a) s = .next t) :
    (s.signalOf a = none → s.Stirred t a.c.group) ∧ ∀ o, s.signalOf a = some o → s.Touches t o.q o.c := by
  have st : s.Stirred (takeIn s a.src (.ack a)) a.c.group := takeIn_stirred s a.src rfl
  rw [exec_signalAck_next h]
  refine ⟨fun unnamed => ?_, fun o named => ?_⟩
  · rw [recvAck_ignored (.inr ((st.signalOf a).trans unnamed)), st.plain]
    exact st
  · obtain ⟨rest, ⟨op?, queue⟩⟩ := (State.Touches.stirred st o.q o.c).trans (recvAck_touches ((st.signalOf a).trans named))
    exact ⟨rest.plain, ⟨op?, queue⟩⟩

theorem exec_signalAck_signalsOnly {a : AckMsg} (h : exec (.signalAck a) s = .next t) : s.SignalsOnly t := by
  obtain ⟨unnamed, named⟩ := exec_signalAck_touches h
  cases e : s.signalOf a with
  | none => exact .stirred (unnamed e)
  | some o => exact (named o e).rest

theorem exec_busyResend_keeps {q : Fin 256} {c : Nat} (h : exec (.busyResend q c) s = .next t) : s.SignalsOnly t ∧
    t.queues = s.queues ∧ ∀ r d, ¬ (r = q.val ∧ d = c) → t.op? r d = s.op? r d := by
  cases h
  rcases resendSignal_cases s q c with same | ⟨x, _, sent⟩
  · rw [same]
    exact ⟨.refl s, rfl, fun _ _ _ => rfl⟩
  · rw [sent]
    exact ⟨.counters ⟨⟨_, _, _, _, _, rfl⟩, rfl⟩, rfl, fun _ _ other =>
      State.op?_updOp_other s (fun y => { y with sig := some { x with busyAt := none } }) (fun _ => ⟨rfl, rfl⟩) other⟩

end

/-- Settles O59: the power and heat commands change the warden alone, the signal commands the sync unit and what hangs on it, of which
they spare the entries without a waiter; an acknowledgement and a SIGNAL sent again concern one entry and its queue. -/
theorem powerAndSignalsKeepTheRest : Obligations.PowerAndSignalsKeepTheRest := by
  unfold Obligations.PowerAndSignalsKeepTheRest
  intro i s t h
  refine ⟨fun power => ?power, fun signal => ?signal, fun change still => ?spares, ?acknowledged, ?again⟩
  case power =>
    have power : Instr.powers i = true := by
      rcases power with rfl | ⟨_, rfl⟩ | ⟨_, rfl⟩ | ⟨_, _, rfl⟩ | rfl | rfl | rfl | rfl | rfl | rfl | ⟨_, _, rfl⟩ | ⟨_, rfl⟩ |
        ⟨_, _, rfl⟩ | ⟨_, rfl⟩ <;> rfl
    obtain ⟨_, _, _, _, _, rfl, fenced, withdrawn⟩ := exec_powersOnly power h
    exact ⟨rfl, rfl, rfl, rfl, rfl, rfl, rfl, rfl, rfl, rfl, rfl, rfl, rfl, fenced, withdrawn, fun _ => ⟨rfl, rfl, rfl⟩⟩
  case signal =>
    have only : s.SignalsOnly t := by
      rcases signal with ⟨_, rfl⟩ | ⟨_, rfl⟩ | ⟨_, rfl⟩ | ⟨_, _, rfl⟩ | ⟨_, _, rfl⟩ | ⟨_, _, _, rfl⟩ | ⟨_, rfl⟩
      · exact exec_changesCounter_signalsOnly rfl h
      · exact exec_changesCounter_signalsOnly rfl h
      · exact exec_signalAck_signalsOnly h
      · exact (exec_busyResend_keeps h).1
      · exact exec_changesCounter_signalsOnly rfl h
      · exact exec_changesCounter_signalsOnly rfl h
      · exact exec_changesCounter_signalsOnly rfl h
    obtain ⟨⟨_, _, _, _, _, _, _, _, _, _, rfl⟩, weirs, group⟩ := only
    exact ⟨rfl, rfl, rfl, rfl, rfl, rfl, rfl, rfl, rfl, weirs, group⟩
  case spares =>
    have change : Instr.changesCounter i = true := by
      rcases change with ⟨_, rfl⟩ | ⟨_, rfl⟩ | ⟨_, _, rfl⟩ | ⟨_, _, _, rfl⟩ | ⟨_, rfl⟩ <;> rfl
    have spares := exec_changesCounter_spares change h still
    refine ⟨spares.op?, fun q => ?_⟩
    obtain ⟨_, _, fetches⟩ := spares.queue q
    rw [fetches]
    exact ⟨rfl, rfl, rfl, rfl⟩
  case acknowledged =>
    rintro a rfl
    obtain ⟨unnamed, named⟩ := exec_signalAck_touches h
    cases e : s.signalOf a with
    | none => exact ⟨fun q c _ => (unnamed e).op? q c, fun q _ => State.queue_congr (unnamed e).queues q⟩
    | some o =>
      obtain ⟨op?, queue⟩ := (named o e).concerns
      exact ⟨fun q c other => op? q c fun same => other o rfl ⟨same.1.symm, same.2.symm⟩, fun q other => queue q (other o rfl).symm⟩
  case again =>
    rintro q c rfl
    exact (exec_busyResend_keeps h).2

end Sys2Proof.Machine
end
section
/-! PROOFS. The tally and cadence (09 R347-R351, R358, R359): locks and losses of the input, with the record of a loss and the change of
PHASE that a lock may bring, and the alignment of the crossings. -/

namespace Sys2Proof.Machine

section
variable {s : State}

/-! ### PHASE after a lock (02 R95, R99) -/

/-- A look at PHASE changes it alone: low-water service ends once every group of R99 has full service. -/
theorem refreshPhase_eq (s : State) : refreshPhase s = { s with keeper := { s.keeper with phase :=
    if s.keeper.phase = .lowWater ∧ (∀ g ∈ s.servedGroups, (s.group g).full = true) ∧
      (s.servedGroups ≠ [] ∨ s.fullReady = true) then .full else s.keeper.phase } } := by
  by_cases ends : s.keeper.phase = .lowWater ∧ (∀ g ∈ s.servedGroups, (s.group g).full = true) ∧
      (s.servedGroups ≠ [] ∨ s.fullReady = true)
  · rw [if_pos ends]
    exact if_pos (by simpa [and_assoc] using ends)
  · rw [if_neg ends]
    exact if_neg (by simpa [and_assoc] using ends)

theorem afterLock_new {was : State} (unlocked : was.tally.lock = false) (locked : s.tally.lock = true) :
    afterLock was s = refreshPhase s := if_pos (by simp [unlocked, locked])

theorem afterLock_not {was : State} (h : was.tally.lock = true ∨ s.tally.lock = false) : afterLock was s = s :=
  if_neg (by rcases h with h | h <;> simp [h])

/-! ### Locks of the input (09 R348, R349) -/

theorem TallySt.relock_locked {t : TallySt} (n : Nat) (locked : t.lock = true) : t.relock n = t := if_pos locked

theorem TallySt.relock_locks {t : TallySt} {n : Nat} (unlocked : t.lock = false) (ahead : t.everLocked = false ∨ t.tally ≤ n) :
    t.relock n = t.locks n := by
  rcases ahead with first | ahead
  · simp [TallySt.relock, unlocked, first]
  · simp [TallySt.relock, unlocked, Nat.not_lt.2 ahead]

theorem TallySt.relock_behind {t : TallySt} {n : Nat} (unlocked : t.lock = false) (ever : t.everLocked = true) (behind : n < t.tally) :
    t.relock n = { t with holdover := false, behind := some n, backward := true } := by
  simp [TallySt.relock, unlocked, ever, behind]

theorem exec_tallyLock_again (n : W64) (locked : s.tally.lock = true) : exec (.tallyLock n) s = .next s := by
  show finishPlain s (afterLock s { s with tally := s.tally.relock n.toNat }) = _
  rw [afterLock_not (.inl locked), TallySt.relock_locked _ locked]
  rfl

/-- The first lock, and a relock that is not behind. -/
theorem exec_tallyLock_ahead {n : W64} (unlocked : s.tally.lock = false)
    (ahead : s.tally.everLocked = false ∨ s.tally.tally ≤ n.toNat) :
    exec (.tallyLock n) s = .next (refreshPhase { s with tally := s.tally.locks n.toNat }) := by
  show finishPlain s (afterLock s { s with tally := s.tally.relock n.toNat }) = _
  rw [TallySt.relock_locks unlocked ahead, afterLock_new unlocked rfl, refreshPhase_eq]
  rfl

theorem exec_tallyLock_behind {n : W64} (unlocked : s.tally.lock = false) (ever : s.tally.everLocked = true)
    (behind : n.toNat < s.tally.tally) : exec (.tallyLock n) s = .next
      { s with tally := { s.tally with holdover := false, behind := some n.toNat, backward := true } } := by
  show finishPlain s (afterLock s { s with tally := s.tally.relock n.toNat }) = _
  rw [TallySt.relock_behind unlocked ever behind, afterLock_not]
  · rfl
  · exact .inr unlocked

/-! ### Losses (09 R349, R359; 11 R415) -/

/-- A fault record with the stamps that the engine gives it (11 R414). -/
def State.stampedRecord (s : State) (r : FaultRecord) : FaultRecord := { r with
  idLo := s.idLo, idHash := s.idCheck, temp := temp16 s.warden.temp, veng := s.warden.vengMv, seq := s.warden.seq % 65536
  tally := s.stamp, phase := s.warden.ring.phase }

/-- A record enters the log with its stamps, under the present SEQ; besides, it concerns the ring in memory alone. -/
theorem makeRecord_stamped (s : State) (r : FaultRecord) : ∃ siphons ring, makeRecord s r = { s with
    siphons
    warden := { s.warden with
      seq := (s.warden.seq + 1) % 65536, log := tabSet (fun _ => {}) s.warden.log (s.warden.seq % 256) (s.stampedRecord r)
      newFault := true, ring } } :=
  ringRecord_form (s.updWarden _) _

/-- The TALLY record of a loss after which the tally is `t`. -/
def TallySt.lossRecord (t : TallySt) : FaultRecord :=
  { type := 0x13, unit := 0x704, operation := 0xFF, group := 0xFFFF, count := 0xFFFFFFFF, s0 := t.losses, s1 := b1 t.backward }

theorem loseTally_lost {below : Bool} (lost : s.tally.loses below = true) : loseTally s below =
    makeRecord { s with tally := s.tally.lose below } (s.tally.lose below).lossRecord := if_pos lost

theorem loseTally_kept {below : Bool} (kept : s.tally.loses below = false) :
    loseTally s below = { s with tally := s.tally.lose below } := if_neg (by simp [kept])

theorem TallySt.lose_lost {t : TallySt} {below : Bool} (lost : t.loses below = true) : t.lose below = { t with
    lock := false, holdover := true, behind := none, lost := true, losses := min 255 (t.losses + 1), backward := t.backward || below
    aligned := false, brk := t.brk || t.aligned, breaks := if t.aligned then min 255 (t.breaks + 1) else t.breaks } := if_pos lost

theorem TallySt.lose_kept {t : TallySt} {below : Bool} (kept : t.loses below = false) :
    t.lose below = { t with backward := t.backward || (below && t.everLocked) } := if_neg (by simp [kept])

theorem TallySt.loses_eq_true {t : TallySt} {kind : TallyLossKind} (h : t.lock = true ∨ (t.behind.isSome = true ∧ kind ≠ .below)) :
    t.loses (decide (kind = .below)) = true := by simpa [TallySt.loses] using h

theorem TallySt.loses_eq_false {t : TallySt} {kind : TallyLossKind} (unlocked : t.lock = false)
    (h : t.behind = none ∨ kind = .below) : t.loses (decide (kind = .below)) = false := by
  rcases h with h | h <;> simp [TallySt.loses, unlocked, h]

theorem exec_tallyLoss (kind : TallyLossKind) (s : State) :
    exec (.tallyLoss kind) s = finishPlain s (loseTally s (decide (kind = .below))) := by cases kind <;> rfl

theorem exec_tallyLoss_kept {kind : TallyLossKind} (unlocked : s.tally.lock = false) (h : s.tally.behind = none ∨ kind = .below) :
    exec (.tallyLoss kind) s = .next { s with
      tally := { s.tally with backward := s.tally.backward || (decide (kind = .below) && s.tally.everLocked) } } := by
  have kept := TallySt.loses_eq_false unlocked h
  rw [exec_tallyLoss, loseTally_kept kept, TallySt.lose_kept kept]
  rfl

/-- A loss changes the tally, and makes its record. -/
theorem exec_tallyLoss_lost {kind : TallyLossKind} (lost : s.tally.loses (decide (kind = .below)) = true) :
    ∃ t, exec (.tallyLoss kind) s = .next t ∧
      t = { s with tally := s.tally.lose (decide (kind = .below)), warden := t.warden, siphons := t.siphons } ∧
      ∃ u : State, tabGet (fun _ => {}) t.warden.log (s.warden.seq % 256) = u.stampedRecord t.tally.lossRecord := by
  obtain ⟨siphons, ring, made⟩ := makeRecord_stamped { s with tally := s.tally.lose (decide (kind = .below)) }
    (s.tally.lose (decide (kind = .below))).lossRecord
  rw [exec_tallyLoss, loseTally_lost lost, made]
  refine ⟨_, rfl, rfl, { s with tally := s.tally.lose (decide (kind = .below)) }, ?_⟩
  dsimp only
  exact tabGet_tabSet_same _ _ _ _

/-! ### A nanosecond of the tally (09 R347, R349) -/

theorem TallySt.advance_free {t : TallySt} (h : t.behind = none) :
    t.advance.tally = t.tally + (if t.lock || t.holdover then 1 else 0) := by
  unfold TallySt.advance
  rw [h]
  dsimp only
  split <;> rfl

theorem TallySt.advance_held {t : TallySt} {b : Nat} (h : t.behind = some b) (behind : b + 1 ≤ t.tally) :
    t.advance.tally = t.tally := by
  simp [TallySt.advance, h, Nat.not_lt.2 behind]

/-! ### Alignment (09 R358, R359) -/

theorem TallySt.alignAt_eq (t : TallySt) :
    t.alignAt = max ((t.lockedAt + 131071) / 65536 * 65536) ((t.cadenceAt / 65536 + 1) * 65536) := by
  simp only [TallySt.alignAt, alignPoint, Nat.add_assoc, Nat.reduceAdd]

theorem alignCadence_due (locked : s.tally.lock = true) (due : s.tally.alignAt ≤ s.tally.tally)
    (change : (s.image.cadence != s.tally.cadenceOn || (s.image.cadence && !s.tally.aligned)) = true) :
    alignCadence s = { s with tally := { s.tally with
      cadenceOn := s.image.cadence, aligned := s.image.cadence
      c0 := if s.image.cadence then s.tally.alignAt else s.tally.c0 } } := if_pos (by simp [locked, due, change])

theorem alignCadence_early (h : s.tally.lock = false ∨ s.tally.tally < s.tally.alignAt) : alignCadence s = s :=
  if_neg (by rcases h with h | h <;> simp [h])

theorem exec_cadenceAlign_aligns (locked : s.tally.lock = true) (on : s.image.cadence = true) (new : s.tally.aligned = false)
    (due : s.tally.alignAt ≤ s.tally.tally) : exec .cadenceAlign s = .next { s with
      tally := { s.tally with cadenceOn := true, aligned := true, c0 := s.tally.alignAt } } := by
  show finishPlain s (alignCadence s) = _
  rw [alignCadence_due locked due (by simp [on, new]), on, if_pos rfl]
  rfl

theorem exec_cadenceAlign_clears (locked : s.tally.lock = true) (off : s.image.cadence = false) (was : s.tally.cadenceOn = true)
    (due : s.tally.alignAt ≤ s.tally.tally) :
    exec .cadenceAlign s = .next { s with tally := { s.tally with cadenceOn := false, aligned := false } } := by
  show finishPlain s (alignCadence s) = _
  rw [alignCadence_due locked due (by simp [off, was]), off]
  rfl

theorem exec_cadenceAlign_early (h : s.tally.lock = false ∨ s.tally.tally < s.tally.alignAt) : exec .cadenceAlign s = .next s := by
  show finishPlain s (alignCadence s) = _
  rw [alignCadence_early h]
  rfl

end

/-- Settles O46: a lock relocks the tally and looks at PHASE, a loss ends the lock or the wait with its record, and the crossings are
aligned at `alignAt`. -/
theorem tallyLocksHoldsAndLoses : Obligations.TallyLocksHoldsAndLoses := by
  unfold Obligations.TallyLocksHoldsAndLoses
  intro s n kind at_ point
  rw [← TallySt.alignAt_eq] at point
  subst point
  refine ⟨exec_tallyLock_again n, fun unlocked ahead => ⟨_, exec_tallyLock_ahead unlocked ahead, ?locked, ?phase⟩,
    exec_tallyLock_behind, exec_tallyLoss_kept, fun h => ?lost, TallySt.advance_free, fun b => TallySt.advance_held,
    exec_cadenceAlign_aligns, exec_cadenceAlign_clears, exec_cadenceAlign_early⟩
  case locked =>
    rw [refreshPhase_eq]
    rfl
  case phase =>
    rw [refreshPhase_fullReady, refreshPhase_eq]
    rfl
  case lost =>
    have lost := TallySt.loses_eq_true h
    obtain ⟨t, run, frame, stamps, record⟩ := exec_tallyLoss_lost lost
    have tally : t.tally = s.tally.lose (decide (kind = .below)) := congrArg State.tally frame
    refine ⟨t, run, by rw [tally]; exact frame, ⟨_, rfl, ?_⟩, ?_⟩
    · rw [record]
      exact ⟨rfl, rfl, rfl, rfl⟩
    · rw [tally, TallySt.lose_lost lost]
      exact ⟨rfl, rfl, rfl, rfl, rfl, rfl, rfl, rfl, rfl, rfl⟩

end Sys2Proof.Machine
end
section
/-! PROOFS. The twin pair (09 R365-R371): what a write of TWIN_CTRL and a pairing message make of the pair, the comparison of records,
and the two ends of a comparison, the latched divergence and the silent partner. -/

namespace Sys2Proof.Machine

section
variable {s : State}

/-! ### Writes of TWIN_CTRL (09 R365) -/

@[simp] theorem State.accepted_twin (s t : State) (m : Mgmt) : (State.accepted s m t).twin = t.twin := by
  unfold State.accepted; split <;> rfl

@[simp] theorem State.accepted_queues (s t : State) (m : Mgmt) : (State.accepted s m t).queues = t.queues := by
  unfold State.accepted; split <;> rfl

@[simp] theorem State.plain_twin (s t : State) : (State.plain s t).twin = t.twin := rfl

/-- The twin registers as a write of TWIN_CTRL sets them; a pair that stood has ended. -/
def TwinSt.requested (x : TwinSt) (v : Nat) : TwinSt :=
  { (if x.paired then x.part else x) with
    en := bit v 0, haltOnDiverge := bit v 1, queue := bits v 8 8, partner := bits v 16 18, rngGroup := bits v 36 12 }

theorem TwinSt.requested_paired (x : TwinSt) (v : Nat) : (x.requested v).paired = false := by
  cases paired : x.paired <;> simp [TwinSt.requested, TwinSt.part, paired]

theorem TwinSt.requested_peers (x : TwinSt) (v : Nat) : (x.requested v).peers = x.peers := by
  cases paired : x.paired <;> simp [TwinSt.requested, TwinSt.part, paired]

theorem writeTwinCtrl_rejected {d : W64} (h : bits d.toNat 16 18 = s.me ∨ (s.twin.paired = true ∧ bit d.toNat 0 = true)) :
    writeTwinCtrl s d = none := if_pos (by simpa using h)

theorem sendTo_ite_form (s : State) (c : Prop) [Decidable c] (dest : Nat) (b : Body) :
    ∃ links, (if c then sendTo s dest b else s) = { s with links } := by
  split
  · exact sendTo_form s dest b
  · exact ⟨s.links, rfl⟩

/-- An accepted write sets the registers and tells the partners; with EN the pair forms where the new partner has asked. -/
theorem writeTwinCtrl_accepted {d : W64} (other : bits d.toNat 16 18 ≠ s.me) (free : s.twin.paired = false ∨ bit d.toNat 0 = false) :
    ∃ links twin, writeTwinCtrl s d = some { s with links, twin } ∧ twin.en = bit d.toNat 0 ∧ twin.partner = bits d.toNat 16 18 ∧
      twin.queue = bits d.toNat 8 8 ∧ twin.paired = (bit d.toNat 0 && s.twin.peers.contains (bits d.toNat 16 18)) := by
  unfold writeTwinCtrl
  rw [if_neg (by rcases free with h | h <;> simp [other, h])]
  extract_lets told registers asked
  obtain ⟨links, told_eq⟩ : ∃ links, told = { s with links } := sendTo_ite_form s _ _ _
  have registers_eq : registers = { s with links, twin := s.twin.requested d.toNat } := by
    show told.updTwin (·.requested d.toNat) = _
    rw [told_eq]
    rfl
  obtain ⟨links', asked_eq⟩ : ∃ links, asked = { registers with links } := sendTo_form registers _ _
  clear_value registers asked
  subst registers_eq asked_eq
  have unpaired := s.twin.requested_paired d.toNat
  have peers := s.twin.requested_peers d.toNat
  cases en : bit d.toNat 0
  case false => exact ⟨links, s.twin.requested d.toNat, rfl, en, rfl, rfl, unpaired⟩
  case true =>
    cases asks : s.twin.peers.contains (bits d.toNat 16 18)
    case false =>
      refine ⟨links', s.twin.requested d.toNat, congrArg some (if_neg ?_), en, rfl, rfl, unpaired⟩
      rw [peers, asks]
      exact Bool.false_ne_true
    case true => exact ⟨links', (s.twin.requested d.toNat).pair s.now, congrArg some (if_pos (by rw [peers, asks])), en, rfl, rfl, rfl⟩

theorem exec_twinCtrlWrite_rejected {m : Mgmt} {d : W64} (may : State.MayWrite s m)
    (h : bits d.toNat 16 18 = s.me ∨ (s.twin.paired = true ∧ bit d.toNat 0 = true)) :
    exec (.twinCtrlWrite m d) s = .next (State.answered s m 1 0) := by
  show finish s (mgmtWrite s m _) = _
  rw [mgmtWrite_rejected may (writeTwinCtrl_rejected h), finish_answered]

theorem exec_twinCtrlWrite_accepted {m : Mgmt} {d : W64} (may : State.MayWrite s m) (other : bits d.toNat 16 18 ≠ s.me)
    (free : s.twin.paired = false ∨ bit d.toNat 0 = false) : ∃ t, exec (.twinCtrlWrite m d) s = .next t ∧ t.queues = s.queues ∧
      t.twin.en = bit d.toNat 0 ∧ t.twin.partner = bits d.toNat 16 18 ∧ t.twin.queue = bits d.toNat 8 8 ∧
      t.twin.paired = (bit d.toNat 0 && s.twin.peers.contains (bits d.toNat 16 18)) := by
  obtain ⟨links, twin, written, fields⟩ := writeTwinCtrl_accepted other free
  refine ⟨_, mgmtWrite_accepted may written, ?_⟩
  rw [State.accepted_queues, State.accepted_twin]
  exact ⟨rfl, fields⟩

/-! ### Messages of the partner (09 R365, R369; 12 R462) -/

/-- A message that names no group is taken in: it leaves the messages that have arrived, and its credits go back. -/
theorem takeIn_groupless (s : State) (src : Nat) {b : Body} (groupless : groupOf b = none) :
    ∃ links net, takeIn s src b = { s with links, net } := by
  unfold takeIn noteArrival
  extract_lets credited
  obtain ⟨links, credited_eq⟩ : ∃ links, credited = { s with links } := by
    unfold credited
    split
    · exact giveCredit_form s _ _ _
    · exact ⟨s.links, rfl⟩
  rw [groupless, credited_eq]
  exact ⟨links, _, rfl⟩

theorem TwinSt.paired_ite_pair (x : TwinSt) (now : Nat) (c : Bool) : (if c then x.pair now else x).paired = (c || x.paired) := by
  cases c <;> rfl

theorem TwinSt.paired_ite_part (x : TwinSt) (c : Bool) : (if c then x.part else x).paired = (!c && x.paired) := by
  cases c <;> rfl

/-- The partner asks: the pair forms if this engine has asked it. -/
theorem recvTwinPair_asks (s : State) (src : Nat) : (recvTwinPair s src true).twin.paired =
    (s.twin.paired || (s.twin.en && s.twin.partner == src)) := by
  refine (TwinSt.paired_ite_pair { s.twin with peers := addTo src s.twin.peers } s.now _).trans ?_
  cases s.twin.paired <;> simp

/-- The partner clears EN: the pair ends. -/
theorem recvTwinPair_clears (s : State) (src : Nat) : (recvTwinPair s src false).twin.paired =
    (s.twin.paired && s.twin.partner != src) := by
  refine (TwinSt.paired_ite_part { s.twin with peers := s.twin.peers.erase src } _).trans ?_
  cases s.twin.paired <;> simp [bne]

theorem recvTwinPair_peers (s : State) (src : Nat) : (recvTwinPair s src true).twin.peers = addTo src s.twin.peers := by
  simp only [recvTwinPair, State.updTwin_twin, if_true]
  split <;> rfl

theorem exec_twinPair {src : Nat} (fit : src < 2 ^ 18) (en : Bool) (s : State) : ∃ links net,
    exec (.twinPair src en) s = finishPlain s (recvTwinPair { s with links, net } src en) := by
  obtain ⟨links, net, taken⟩ := takeIn_groupless s src (b := .twinPair en) rfl
  refine ⟨links, net, ?_⟩
  show checked (fits 18 src) "TWIN_PAIR" _ = _
  rw [show fits 18 src = true from decide_eq_true fit, checked_true, taken]

/-! ### Comparison (09 R369, R370) -/

theorem disableQueue_twin (s : State) (q : Nat) : (disableQueue s q).twin = s.twin := by
  by_cases running : (s.queue q).state = .running
  · obtain ⟨_, drains⟩ := draining_form s q
    obtain ⟨_, settles⟩ := settleQueue_form (waitsCancelled s q) q
    obtain ⟨_, _, _, _, _, _, ended⟩ := (waitsCancelled_endsIn s q).rest
    rw [disableQueue_running running, settles, ended, drains]
  · rw [disableQueue_stopped running]
    rfl

theorem twinMatch_agrees (s : State) (key : TwinKey) (crc : Nat) :
    twinMatch s key crc crc = s.updTwin fun x => { x with compared := (x.compared + 1) % 2 ^ 32 } :=
  if_pos (beq_self_eq_true crc)

/-- Records that differ: DIVERGED is set, with the moment of the first difference. -/
theorem twinMatch_differs (s : State) (key : TwinKey) {own theirs : Nat} (differ : own ≠ theirs) :
    ∃ best, (twinMatch s key own theirs).twin = { s.twin with
      compared := (s.twin.compared + 1) % 2 ^ 32, diverged := true, best
      mismatchAt := if !s.twin.diverged then some s.now else s.twin.mismatchAt } ∧
    (s.twin.best = none → best = some (key, own, theirs)) := by
  unfold twinMatch
  extract_lets counted first noted
  rw [if_neg (by simpa using differ)]
  have halted : (if first && noted.twin.haltOnDiverge then disableQueue noted noted.twin.queue else noted).twin = noted.twin := by
    split
    · exact disableQueue_twin noted _
    · rfl
  exact ⟨noted.twin.best, halted, fun none => by simp [noted, counted, none]⟩

theorem twinTheirs_alone {r : TwinRec} (alone : ∀ y ∈ s.twin.own, y.key ≠ r.key) :
    twinTheirs s r = s.updTwin fun x => { x with theirs := x.theirs ++ [r] } := by
  have none : (s.twin.own.find? fun y => y.key == r.key) = none := List.find?_eq_none.2 (by simpa using alone)
  rw [twinTheirs, none]

theorem twinTheirs_meets {r y : TwinRec} (found : (s.twin.own.find? fun y => y.key == r.key) = some y) : twinTheirs s r =
    twinMatch (s.updTwin fun x => TwinSt.setHold { x with own := x.own.erase y }) r.key y.crc r.crc := by
  rw [twinTheirs, found]

/-- A record that the engine has formed as well is found by its key, if no other has that key. -/
theorem find_key_of_mem {own : List TwinRec} {r : TwinRec} (mem : r ∈ own) (only : ∀ y ∈ own, y.key = r.key → y = r) :
    (own.find? fun y => y.key == r.key) = some r := by
  have some : (own.find? fun y => y.key == r.key).isSome = true := List.find?_isSome.2 ⟨r, mem, by simp⟩
  obtain ⟨y, found⟩ := Option.isSome_iff_exists.1 some
  rw [found, only y (List.mem_of_find?_eq_some found) (by simpa using List.find?_some found)]

theorem exec_twinRecord {src : Nat} {r : TwinRec} (fit : src < 2 ^ 18) (wf : r.wf = true) (s : State) :
    exec (.twinRecord src [r]) s = finishPlain s (recvTwinRecords (takeIn s src (.twinRecord [r])) src [r]) := by
  have named : fits 18 src = true := decide_eq_true fit
  have ok : twinRecordWf src [r] = true := by simp [twinRecordWf, named, wf]
  show checked (twinRecordWf src [r]) "TWIN_RECORD" _ = _
  rw [ok, checked_true]

/-- A record from any die but the partner is taken in and not compared. -/
theorem exec_twinRecord_stranger {src : Nat} {r : TwinRec} (fit : src < 2 ^ 18) (wf : r.wf = true)
    (stranger : s.twin.paired = false ∨ s.twin.partner ≠ src) :
    exec (.twinRecord src [r]) s = .next (takeIn s src (.twinRecord [r])) := by
  obtain ⟨links, net, taken⟩ := takeIn_groupless s src (b := .twinRecord [r]) rfl
  rw [exec_twinRecord fit wf, taken, recvTwinRecords, if_neg (by rcases stranger with h | h <;> simp [h])]
  rfl

/-- The state in which a message of the partner has been taken in. -/
def State.heard (s : State) (links : Tab LinkSt) (net : NetSt) : State := { s with links, net, twin := { s.twin with lastAt := s.now } }

/-- The partner's record is compared, once it is taken in. -/
theorem exec_twinRecord_partner {src : Nat} {r : TwinRec} (fit : src < 2 ^ 18) (wf : r.wf = true) (paired : s.twin.paired = true)
    (partner : s.twin.partner = src) : ∃ links net,
    exec (.twinRecord src [r]) s = .next (State.plain s (twinTheirs (s.heard links net) r)) := by
  obtain ⟨links, net, taken⟩ := takeIn_groupless s src (b := .twinRecord [r]) rfl
  refine ⟨links, net, ?_⟩
  rw [exec_twinRecord fit wf, taken, recvTwinRecords, if_pos (by simp [paired, partner])]
  rfl

/-! ### The latched divergence and the silent partner (09 R370, R371) -/

theorem latchTwin_due {k : TwinKey} {a b at_ : Nat} (best : s.twin.best = some (k, a, b)) (open_ : s.twin.latched = false)
    (since : s.twin.mismatchAt = some at_) (due : at_ + 1000000 ≤ s.now) : latchTwin s = { s with twin := { s.twin with
      latched := true, best := none, divEntry := k.k, divStep := s.twinStep, divKey := k, divOwn := a, divPartner := b
      divTally := s.stamp } } := by
  simp [latchTwin, best, open_, since, due, State.updTwin]

theorem latchTwin_early {at_ : Nat} (since : s.twin.mismatchAt = some at_) (early : s.now < at_ + 1000000)
    (waits : s.twin.own ≠ []) : latchTwin s = s := by
  simp only [latchTwin, since]
  split
  · exact if_neg (by simp [waits, Nat.not_le.2 early])
  · rfl

theorem loseTwin_silent (paired : s.twin.paired = true) (waits : s.twin.own ≠ []) (late : s.twin.lastAt + 10000000 ≤ s.now) :
    loseTwin s = s.updTwin fun x => { x.part with alone := true, peers := x.peers.erase x.partner } :=
  if_pos (by simp [paired, waits, late])

theorem loseTwin_not (h : s.twin.paired = false ∨ s.now < s.twin.lastAt + 10000000) : loseTwin s = s :=
  if_neg (by rcases h with h | h <;> simp [h])

end

/-- Settles O47: TWIN_CTRL through the gate, the partner's messages as they are taken in, and the two ends of a comparison. -/
theorem twinsPairCompareAndPart : Obligations.TwinsPairCompareAndPart := by
  unfold Obligations.TwinsPairCompareAndPart
  intro s
  refine ⟨fun m d may => ⟨exec_twinCtrlWrite_rejected may, fun other free en => ?enable, fun other en => ?clear⟩,
    fun src fit => ⟨?asks, ?clears⟩,
    fun src r fit wf => ⟨exec_twinRecord_stranger fit wf, fun paired partner alone => ?waits, fun paired partner mem only => ?agrees,
      fun y paired partner own key differ => ?differs⟩,
    fun k a b at_ best open_ since => ⟨fun due => ?latch, fun early waits => ?early⟩,
    fun paired waits => ⟨fun late => ?silent, fun early => ?heard⟩, fun unpaired => ?unpaired⟩
  case enable =>
    obtain ⟨t, run, queues, on, partner, queue, paired⟩ := exec_twinCtrlWrite_accepted may other (.inl free)
    rw [en] at on paired
    exact ⟨t, run, on, partner, queue, paired, queues⟩
  case clear =>
    obtain ⟨t, run, -, off, -, -, paired⟩ := exec_twinCtrlWrite_accepted may other (.inr en)
    rw [en] at off paired
    exact ⟨t, run, off, paired⟩
  case asks =>
    obtain ⟨links, net, run⟩ := exec_twinPair fit true s
    refine ⟨_, run, ?_, recvTwinPair_asks _ src⟩
    show src ∈ (recvTwinPair _ src true).twin.peers
    rw [recvTwinPair_peers]
    exact mem_addTo.2 (.inl rfl)
  case clears =>
    obtain ⟨links, net, run⟩ := exec_twinPair fit false s
    exact ⟨_, run, recvTwinPair_clears _ src⟩
  case waits =>
    obtain ⟨links, net, run⟩ := exec_twinRecord_partner fit wf paired partner
    rw [twinTheirs_alone (s := s.heard links net) alone] at run
    exact ⟨_, run, rfl, rfl, rfl, rfl⟩
  case agrees =>
    obtain ⟨links, net, run⟩ := exec_twinRecord_partner fit wf paired partner
    rw [twinTheirs_meets (s := s.heard links net) (find_key_of_mem mem only), twinMatch_agrees] at run
    exact ⟨_, run, rfl, rfl, rfl, rfl⟩
  case differs =>
    obtain ⟨links, net, run⟩ := exec_twinRecord_partner fit wf paired partner
    have found : (s.twin.own.find? fun x => x.key == r.key) = some y := by simp [own, key]
    rw [twinTheirs_meets (s := s.heard links net) found] at run
    obtain ⟨best, twin, first⟩ := twinMatch_differs ((s.heard links net).updTwin fun x => TwinSt.setHold { x with own := x.own.erase y })
      r.key differ
    refine ⟨_, run, ?_⟩
    rw [State.plain_twin, twin]
    refine ⟨rfl, ?_, fun agreed => ⟨?_, first⟩⟩
    · show s.twin.own.erase y = []
      rw [own, List.erase_cons_head]
    · show (if !s.twin.diverged then _ else _) = some s.now
      rw [agreed]
      rfl
  case latch =>
    show finishPlain s (latchTwin s) = _
    rw [latchTwin_due best open_ since due]
    rfl
  case early =>
    show finishPlain s (latchTwin s) = _
    rw [latchTwin_early since early waits]
    rfl
  case silent =>
    refine ⟨_, congrArg (finishPlain s) (loseTwin_silent paired waits late), rfl, rfl, rfl, rfl, rfl⟩
  case heard =>
    show finishPlain s (loseTwin s) = _
    rw [loseTwin_not (.inr early)]
    rfl
  case unpaired =>
    show finishPlain s (loseTwin s) = _
    rw [loseTwin_not (.inl unpaired)]
    rfl

end Sys2Proof.Machine
end
section
/-! PROOFS. One nanosecond without a command (03 R119; 08 R321; 09 R347; 11 R441, R442; 12 R484): what each of its parts changes. -/

namespace Sys2Proof.Machine

/-! ### The ledger and the end of surge (11 R441, R442) -/

/-- The surge ledger in ns. -/
def WardenSt.ledgerTotal (w : WardenSt) : Nat := w.ledgerMs * 1000000 + w.ledgerNs

/-- What the end of surge leaves of the warden: the ledger and the pacing. -/
structure WardenSt.SameLedger (v w : WardenSt) : Prop where
  ledgerTotal : w.ledgerTotal = v.ledgerTotal
  pace : w.pace = v.pace

theorem WardenSt.SameLedger.refl (v : WardenSt) : v.SameLedger v := ⟨rfl, rfl⟩

theorem WardenSt.SameLedger.trans {u v w : WardenSt} (h : u.SameLedger v) (k : v.SameLedger w) : u.SameLedger w :=
  ⟨k.ledgerTotal.trans h.ledgerTotal, k.pace.trans h.pace⟩

theorem WardenSt.compared_sameLedger (w : WardenSt) (now target : Nat) : w.SameLedger (w.compared now target) := by
  unfold WardenSt.compared
  split
  · exact ⟨rfl, rfl⟩
  split <;> exact ⟨rfl, rfl⟩

theorem startWaitingTest_sameLedger (s : State) : s.warden.SameLedger (startWaitingTest s).warden := by
  unfold startWaitingTest
  dsimp only
  split <;> exact ⟨rfl, rfl⟩

theorem refreshDraw_sameLedger (s : State) : s.warden.SameLedger (refreshDraw s).warden := by
  unfold refreshDraw
  split <;> exact ⟨rfl, rfl⟩

theorem refreshVeng_sameLedger (s : State) : s.warden.SameLedger (refreshVeng s).warden := by
  rw [refreshVeng_eq]
  have tests := startWaitingTest_sameLedger { s with warden := s.warden.compared s.now s.vengTarget.1 }
  exact (s.warden.compared_sameLedger _ _).trans (tests.trans (refreshDraw_sameLedger _))

theorem engineRecord_sameLedger (s : State) (type s0 s1 s2 action : Nat) :
    s.warden.SameLedger (engineRecord s type s0 s1 s2 action).warden := by
  obtain ⟨_, _, made⟩ := makeRecord_stamped s
    { type, action, unit := 0xFFFF, operation := 0xFF, group := 0xFFFF, count := 0xFFFFFFFF, s0, s1, s2 }
  rw [engineRecord, made]
  exact ⟨rfl, rfl⟩

theorem endSurge_sameLedger (s : State) (s0 : Nat) : s.warden.SameLedger (endSurge s s0).warden := by
  unfold endSurge
  split
  · extract_lets off
    have ends : s.warden.SameLedger off.warden := ⟨rfl, rfl⟩
    exact ends.trans ((engineRecord_sameLedger off _ _ _ _ _).trans (refreshVeng_sameLedger _))
  · exact .refl _

/-- The end of surge changes the warden, and the siphons by its record. -/
theorem endSurge_form (s : State) (s0 : Nat) : ∃ siphons warden, endSurge s s0 = { s with siphons, warden } := by
  unfold endSurge
  split
  · extract_lets off
    obtain ⟨siphons, _, recorded⟩ := makeRecord_stamped off
      { type := 0x11, action := 10, unit := 0xFFFF, operation := 0xFF, group := 0xFFFF, count := 0xFFFFFFFF
        s0, s1 := off.warden.ledgerSec, s2 := 0 }
    obtain ⟨warden, settled, -⟩ := refreshVeng_form (engineRecord off 0x11 s0 off.warden.ledgerSec 0 10)
    rw [settled, engineRecord, recorded]
    exact ⟨siphons, warden, rfl⟩
  · exact ⟨s.siphons, s.warden, rfl⟩

/-! ### The parts of a nanosecond -/

/-- The surge ledger counts, and the window of R442 takes its slots. -/
theorem tickSurge_form (s : State) : ∃ warden, tickSurge s = { s with warden } ∧
    warden.ledgerTotal = s.warden.ledgerTotal + b1 s.warden.surging ∧ warden.pace = s.warden.pace ∧ warden.log = s.warden.log ∧
    warden.surging = s.warden.surging := by
  refine ⟨_, rfl, ?_, rfl, rfl, rfl⟩
  unfold WardenSt.ledgerTotal
  dsimp only
  omega

theorem endRound_form (s : State) : ∃ active, endRound s = { s with sluice := { s.sluice with active } } := by
  unfold endRound
  split
  · exact ⟨false, rfl⟩
  · exact ⟨s.sluice.active, rfl⟩

theorem noteQuiet_form (s : State) : ∃ quietSince, noteQuiet s = { s with sync := { s.sync with quietSince } } := ⟨_, rfl⟩

theorem noteCounting_form (s : State) : ∃ counting, noteCounting s = { s with sluice := { s.sluice with counting } } := ⟨_, rfl⟩

/-- Quiescence may end surge, and leaves an engine without surge as it is. -/
theorem quietSurge_form (s : State) : ∃ siphons warden, quietSurge s = { s with siphons, warden } ∧ s.warden.SameLedger warden ∧
    (s.warden.surging = false → siphons = s.siphons ∧ warden = s.warden) := by
  have ends : ∀ due : Bool, ∃ siphons warden, (if due then endSurge s 2 else s) = { s with siphons, warden } ∧
      s.warden.SameLedger warden ∧ (s.warden.surging = false → siphons = s.siphons ∧ warden = s.warden) := fun due => by
    cases due
    case false => exact ⟨s.siphons, s.warden, rfl, .refl _, fun _ => ⟨rfl, rfl⟩⟩
    case true =>
      obtain ⟨siphons, warden, ended⟩ := endSurge_form s 2
      have same := endSurge_sameLedger s 2
      rw [ended] at same
      refine ⟨siphons, warden, ended, same, fun calm => ?_⟩
      rw [endSurge_off calm] at ended
      exact ⟨(congrArg State.siphons ended).symm, (congrArg State.warden ended).symm⟩
  exact ends _

/-- A lock that has come may end low-water service (02 R95). -/
theorem afterLock_form (was s : State) : ∃ phase, afterLock was s = { s with keeper := { s.keeper with phase } } ∧
    (phase ≠ s.keeper.phase → s.keeper.phase = .lowWater ∧ phase = .full ∧ was.tally.lock = false ∧ s.tally.lock = true) := by
  by_cases new : was.tally.lock = false ∧ s.tally.lock = true
  · refine ⟨_, (afterLock_new new.1 new.2).trans (refreshPhase_eq s), fun changed => ?_⟩
    split at changed
    next ends => exact ⟨ends.1, if_pos ends, new⟩
    next => exact absurd rfl changed
  · refine ⟨s.keeper.phase, afterLock_not ?_, fun changed => absurd rfl changed⟩
    cases locked : was.tally.lock
    · exact .inr (by simpa [locked] using new)
    · exact .inl rfl

/-- Before quiescence is held against surge, the ledger has counted, pulses have ended, and the sluice's round and the time of
quiescence have been looked at. -/
theorem beforeQuiet_form (s : State) : ∃ warden quietSince active,
    noteQuiet (endRound (endPulses (tickSurge s))) = { s with
      warden, sluice := { s.sluice with active }
      sync := { s.sync with quietSince, wakeOut := s.sync.wakeOut.filter fun p => decide (s.now < p.2 + 2) } } ∧
    warden.ledgerTotal = s.warden.ledgerTotal + b1 s.warden.surging ∧ warden.pace = s.warden.pace ∧ warden.log = s.warden.log ∧
    warden.surging = s.warden.surging := by
  obtain ⟨warden, ticked, kept⟩ := tickSurge_form s
  obtain ⟨active, ended⟩ := endRound_form (endPulses (tickSurge s))
  obtain ⟨quietSince, quiet⟩ := noteQuiet_form (endRound (endPulses (tickSurge s)))
  refine ⟨warden, quietSince, active, ?_, kept⟩
  rw [quiet, ended, endPulses, ticked]
  rfl

/-- The engine just before the tally advances. -/
def beforeAdvance (s : State) : State := noteCounting (quietSurge (noteQuiet (endRound (endPulses (tickSurge s)))))

theorem idleTick_eq (s : State) : idleTick s = afterLock (beforeAdvance s)
    { beforeAdvance s with tally := (beforeAdvance s).tally.advance, now := (beforeAdvance s).now + 1 } := rfl

/-- What a nanosecond makes of the engine before the tally advances. -/
theorem beforeAdvance_form (s : State) : ∃ siphons warden quietSince active counting, beforeAdvance s = { s with
      siphons, warden, sluice := { s.sluice with active, counting }
      sync := { s.sync with quietSince, wakeOut := s.sync.wakeOut.filter fun p => decide (s.now < p.2 + 2) } } ∧
    warden.ledgerTotal = s.warden.ledgerTotal + b1 s.warden.surging ∧ warden.pace = s.warden.pace ∧
    (s.warden.surging = false → siphons = s.siphons ∧ warden.log = s.warden.log) := by
  obtain ⟨noted, quietSince, active, before, counted, pace, log, surging⟩ := beforeQuiet_form s
  rw [beforeAdvance, before]
  obtain ⟨siphons, warden, surged, same, calm⟩ := quietSurge_form { s with
    warden := noted, sluice := { s.sluice with active }
    sync := { s.sync with quietSince, wakeOut := s.sync.wakeOut.filter fun p => decide (s.now < p.2 + 2) } }
  rw [surged]
  refine ⟨siphons, warden, quietSince, active, _, rfl, same.ledgerTotal.trans counted, same.pace.trans pace, fun off => ?_⟩
  obtain ⟨rfl, rfl⟩ := calm (surging.trans off)
  exact ⟨rfl, log⟩

/-- Settles O2: the parts of a nanosecond, then the advance of the tally and the look at PHASE. -/
theorem emptyQueuePassesOneNanosecond : Obligations.EmptyQueuePassesOneNanosecond := by
  unfold Obligations.EmptyQueuePassesOneNanosecond
  intro s empty
  obtain ⟨siphons, warden, quietSince, active, counting, before, ledger, pace, calm⟩ := beforeAdvance_form s
  obtain ⟨phase, locks, ends⟩ := afterLock_form (beforeAdvance s)
    { beforeAdvance s with tally := (beforeAdvance s).tally.advance, now := (beforeAdvance s).now + 1 }
  have run : step s = .next (idleTick s) := by rw [step, empty]
  rw [idleTick_eq, locks, before] at run
  rw [before] at ends
  refine ⟨_, run, rfl, empty, rfl, rfl, rfl, rfl, rfl, ledger, fun off => ⟨fun p => ?_, (calm off).2, (calm off).1, rfl⟩, pace, rfl,
    rfl, rfl, rfl, ends, rfl, rfl, rfl, rfl, rfl, rfl, rfl, rfl, rfl, rfl, rfl⟩
  show p ∈ s.sync.wakeOut.filter _ ↔ _
  rw [List.mem_filter, decide_eq_true_iff]

end Sys2Proof.Machine
end
section
/-! PROOFS. The commands of one unit (09 R347-R349, R358, R365, R370, R371; 02 R85-R88, R95; 08 R321, R322; 01 R48; 11 R450; 04 R163, R178,
R179; 12 R465, R473) and the units that they leave alone. -/

namespace Sys2Proof.Machine

section
variable {s t : State}

/-- A command that leaves the management plane alone. -/
theorem plain_next {u : State} (h : finishPlain s u = .next t) : t = State.plain s u := finish_next h

/-! ### Owner writes (02 R84-R88; 12 R482) -/

/-- What a write leaves besides its effect: the keeper, the response of the port and the count of free values taken. -/
theorem finish_mgmtWrite_frame {m : Mgmt} {f : State → Option State} (h : finish s (mgmtWrite s m f) = .next t) :
    ∃ u keeper resp fresh, (u = s ∨ f s = some u) ∧
      t = { u with keeper, mgmt := { s.mgmt with resp }, fresh, pending := s.pending, now := s.now } := by
  obtain ⟨u, keeper, mgmt, fresh, effect, written⟩ := mgmtWrite_form s m f
  obtain ⟨resp, port, -⟩ := mgmtWrite_mgmt s m f
  rw [written] at port
  refine ⟨u, keeper, some resp, fresh, effect, ?_⟩
  rw [finish_next h, written, ← port]

/-- An access that concerns the keeper alone. -/
def State.KeeperAccess (s t : State) : Prop :=
  t = { s with keeper := t.keeper, mgmt := { s.mgmt with resp := t.mgmt.resp }, fresh := t.fresh }

theorem keeperWrite_frame {m : Mgmt} {f : State → Option State} (h : finish s (mgmtWrite s m f) = .next t)
    (effect : ∀ u, f s = some u → ∃ keeper, u = { s with keeper }) : s.KeeperAccess t := by
  obtain ⟨u, keeper, resp, fresh, rfl | taken, rfl⟩ := finish_mgmtWrite_frame h
  · rfl
  · obtain ⟨_, rfl⟩ := effect u taken
    rfl

/-! ### The keeper (02 R85-R88; 13 R504, R505) -/

theorem ownBy_form (s : State) (a : Nat) : ∃ keeper, ownBy s a = { s with keeper } := ⟨_, rfl⟩

theorem unown_form (s : State) : ∃ keeper, unown s = { s with keeper } := ⟨_, rfl⟩

theorem keeper_ite_form {c : Prop} [Decidable c] {u : State} (effect : ∃ keeper, u = { s with keeper }) :
    ∃ keeper, (if c then u else s) = { s with keeper } := by
  split
  · exact effect
  · exact ⟨s.keeper, rfl⟩

theorem claim_form (s : State) (a : Nat) : ∃ keeper, claim s a = { s with keeper } := by
  unfold claim
  split
  · exact ⟨_, rfl⟩
  · exact keeper_ite_form ⟨_, rfl⟩
  · exact ⟨s.keeper, rfl⟩
  · exact keeper_ite_form (ownBy_form s a)

theorem exec_keeperClaim_frame {m : Mgmt} (h : exec (.keeperClaim m) s = .next t) : s.KeeperAccess t := by
  obtain ⟨keeper, claimed⟩ := claim_form s m.agent
  have run := finish_next h
  unfold readClaim at run
  rw [claimed] at run
  split at run
  · subst run; rfl
  split at run <;> (subst run; rfl)

theorem closeClaim_form (s : State) : ∃ keeper, closeClaim s = { s with keeper } := by
  unfold closeClaim
  refine keeper_ite_form ?_
  split
  · exact ownBy_form s _
  · exact unown_form s

theorem freezeAll_form (s : State) (l : List Nat) : ∃ keeper, freezeAll s l = { s with keeper } := by
  induction l generalizing s with
  | nil => exact ⟨s.keeper, rfl⟩
  | cons a l ih =>
    obtain ⟨keeper, frozen⟩ := freezeAgent_form s a causeOwner
    obtain ⟨keeper', rest⟩ := ih { s with keeper }
    exact ⟨keeper', by rw [freezeAll, List.foldl_cons, frozen]; exact rest⟩

theorem thawAll_form (s : State) (l : List Nat) : ∃ keeper, thawAll s l = { s with keeper } := by
  induction l generalizing s with
  | nil => exact ⟨s.keeper, rfl⟩
  | cons a l ih => exact ih (thawAgent s a)

theorem writeHandover_form {a : Nat} {d : W64} {u : State} (h : writeHandover s a d = some u) : ∃ keeper, u = { s with keeper } := by
  unfold writeHandover at h
  dsimp only at h
  split at h
  · obtain ⟨-, offered⟩ := Option.ite_none_left_eq_some.1 h
    cases offered
    exact ⟨_, rfl⟩
  · cases h
    exact ⟨_, rfl⟩

theorem exec_keeperAccess_frame {i : Instr} (access : (∃ m, i = .keeperClaim m) ∨ (∃ m d, i = .keeperLease m d) ∨
    (∃ m d, i = .keeperHandover m d) ∨ (∃ m d, i = .keeperFreeze m d) ∨ (∃ m d, i = .keeperThaw m d)) (h : exec i s = .next t) :
    s.KeeperAccess t := by
  obtain ⟨m, rfl⟩ | ⟨m, d, rfl⟩ | ⟨m, d, rfl⟩ | ⟨m, d, rfl⟩ | ⟨m, d, rfl⟩ := access
  · exact exec_keeperClaim_frame h
  · exact keeperWrite_frame h fun u written => ⟨_, (Option.some.inj written).symm⟩
  · exact keeperWrite_frame h fun u => writeHandover_form
  · exact keeperWrite_frame h fun u written => Option.some.inj written ▸ freezeAll_form s _
  · exact keeperWrite_frame h fun u written => Option.some.inj written ▸ thawAll_form s _

theorem exec_keeperWindow_frame {i : Instr} (window : i = .claimWindowClose ∨ i = .leaseLapse ∨ i = .handoverWindowClose)
    (h : exec i s = .next t) : t = { s with keeper := t.keeper } := by
  obtain rfl | rfl | rfl := window
  · obtain ⟨_, closed⟩ := closeClaim_form s
    rw [finish_next h, closed]
  · obtain ⟨_, lapsed⟩ : ∃ keeper, lapseLease s = { s with keeper } := keeper_ite_form (unown_form s)
    rw [finish_next h, lapsed]
  · obtain ⟨_, closed⟩ : ∃ keeper, closeHandover s = { s with keeper } := keeper_ite_form ⟨_, rfl⟩
    rw [finish_next h, closed]

/-! ### The tally (09 R347-R349, R358) -/

theorem exec_tallyLock_frame {n : W64} (h : exec (.tallyLock n) s = .next t) :
    t = { s with tally := t.tally, keeper := { s.keeper with phase := t.keeper.phase } } := by
  obtain ⟨_, locked, -⟩ := afterLock_form s (s.updTally fun t => t.relock n.toNat)
  rw [finish_next h, locked]
  rfl

theorem alignCadence_form (s : State) : ∃ tally, alignCadence s = { s with tally } :=
  iteInduction (motive := fun u : State => ∃ tally, u = { s with tally }) (fun _ => ⟨_, rfl⟩) fun _ => ⟨s.tally, rfl⟩

theorem exec_cadenceAlign_frame (h : exec .cadenceAlign s = .next t) : t = { s with tally := t.tally } := by
  obtain ⟨_, aligned⟩ := alignCadence_form s
  rw [finish_next h, aligned]

theorem exec_tallyLoss_frame {kind : TallyLossKind} (h : exec (.tallyLoss kind) s = .next t) :
    t = { s with tally := t.tally, warden := t.warden, siphons := t.siphons } := by
  cases lost : s.tally.loses (decide (kind = .below))
  case true =>
    obtain ⟨u, run, frame, -⟩ := exec_tallyLoss_lost lost
    cases run.symm.trans h
    have tally : t.tally = s.tally.lose (decide (kind = .below)) := congrArg State.tally frame
    rw [tally]
    exact frame
  case false =>
    rw [exec_tallyLoss, loseTally_kept lost] at h
    rw [finish_next h]

/-! ### The twin pair (09 R365, R370, R371) -/

theorem latchTwin_form (s : State) : ∃ twin, latchTwin s = { s with twin } := by
  unfold latchTwin
  dsimp only
  split
  · exact iteInduction (motive := fun u : State => ∃ twin, u = { s with twin }) (fun _ => ⟨_, rfl⟩) fun _ => ⟨s.twin, rfl⟩
  · exact ⟨s.twin, rfl⟩

theorem loseTwin_form (s : State) : ∃ twin, loseTwin s = { s with twin } :=
  iteInduction (motive := fun u : State => ∃ twin, u = { s with twin }) (fun _ => ⟨_, rfl⟩) fun _ => ⟨s.twin, rfl⟩

theorem exec_twinEnd_frame {i : Instr} (ends : i = .twinDivergeLatch ∨ i = .twinAlone) (h : exec i s = .next t) :
    t = { s with twin := t.twin } := by
  obtain rfl | rfl := ends
  · obtain ⟨_, latched⟩ := latchTwin_form s
    rw [finish_next h, latched]
  · obtain ⟨_, lost⟩ := loseTwin_form s
    rw [finish_next h, lost]

theorem exec_twinPair_frame {src : Nat} {en : Bool} (h : exec (.twinPair src en) s = .next t) :
    t = { s with twin := t.twin, net := t.net, links := t.links } := by
  obtain ⟨_, _, taken⟩ := takeIn_groupless s src (b := .twinPair en) rfl
  rw [finish_next (checked_next h).2, taken]
  rfl

/-! ### Lending, voltage and pacing (08 R321, R322; 01 R48; 11 R450) -/

/-- Only the sync unit changes, and of it neither the counters with their waiters, nor the weirs, nor the signals held. -/
def State.LendsOnly (s t : State) : Prop := t = { s with sync := t.sync } ∧ t.sync.counters = s.sync.counters ∧
  t.sync.weirs = s.sync.weirs ∧ t.sync.waiters = s.sync.waiters ∧ t.sync.held = s.sync.held

theorem State.LendsOnly.refl (s : State) : s.LendsOnly s := ⟨rfl, rfl, rfl, rfl, rfl⟩

theorem State.LendsOnly.plain {u : State} (h : s.LendsOnly u) : s.LendsOnly (State.plain s u) := by
  obtain ⟨rest, fields⟩ := h
  exact ⟨by rw [rest]; rfl, fields⟩

theorem exec_lending_frame {i : Instr} (lending : i = .lendGrant ∨ i = .lendReclaim) (h : exec i s = .next t) : s.LendsOnly t := by
  obtain rfl | rfl := lending
  · rw [plain_next h]
    exact .plain (iteInduction (fun _ => ⟨rfl, rfl, rfl, rfl, rfl⟩) fun _ => .refl s)
  · rw [plain_next h]
    exact .plain (iteInduction (fun _ => ⟨rfl, rfl, rfl, rfl, rfl⟩) fun _ => .refl s)

theorem stepVeng_form (s : State) : ∃ warden, stepVeng s = { s with warden } ∧ warden.log = s.warden.log ∧
    warden.baseMv = s.warden.baseMv :=
  iteInduction
    (motive := fun u : State => ∃ warden, u = { s with warden } ∧ warden.log = s.warden.log ∧ warden.baseMv = s.warden.baseMv)
    (fun _ => ⟨_, rfl, rfl, rfl⟩) fun _ => ⟨s.warden, rfl, rfl, rfl⟩

theorem exec_vengStep_frame (h : exec .vengStep s = .next t) :
    t = { s with warden := t.warden } ∧ t.warden.log = s.warden.log ∧ t.warden.baseMv = s.warden.baseMv := by
  obtain ⟨_, stepped, kept⟩ := stepVeng_form s
  rw [finish_next h, stepped]
  exact ⟨rfl, kept⟩

theorem exec_paceWrite_frame {m : Mgmt} {j : Fin 25} {d : W64} (h : exec (.paceWrite m j d) s = .next t) : t = { s with
    warden := { s.warden with pace := t.warden.pace }, keeper := t.keeper, mgmt := { s.mgmt with resp := t.mgmt.resp }
    fresh := t.fresh } := by
  obtain ⟨u, keeper, resp, fresh, rfl | taken, rfl⟩ := finish_mgmtWrite_frame h
  · rfl
  · obtain ⟨-, set⟩ := Option.ite_none_right_eq_some.1 taken
    cases set
    rfl

/-! ### The read cache (04 R163, R178, R179) -/

/-- Only the read cache changes, and it has as many fills under way. -/
def State.CachesOnly (s t : State) : Prop := t = { s with cache := t.cache } ∧ t.cache.fills.length = s.cache.fills.length

theorem writeCacheCtrl_cachesOnly (s : State) (d : W64) : s.CachesOnly (writeCacheCtrl s d) :=
  iteInduction (fun _ => ⟨rfl, List.length_map _⟩) fun _ => ⟨rfl, rfl⟩

theorem flushWindow_cachesOnly (s : State) (w : Window) : s.CachesOnly (flushWindow s w) := ⟨rfl, List.length_map _⟩

theorem writeWindow_cachesOnly {n : Nat} {limit : Bool} {d : W64} {u : State} (h : writeWindow s n limit d = some u) : s.CachesOnly u := by
  have sets : ∀ (t : State) (x : Window), s.CachesOnly t → s.CachesOnly (t.setWindow n x) := by
    rintro t x ⟨rest, fills⟩
    exact ⟨by rw [rest]; rfl, fills⟩
  unfold writeWindow at h
  dsimp only at h
  split at h
  · obtain ⟨-, set⟩ := Option.ite_none_left_eq_some.1 h
    cases set
    exact sets s _ ⟨rfl, rfl⟩
  · obtain ⟨-, set⟩ := Option.ite_none_left_eq_some.1 h
    cases set
    exact sets _ _ (iteInduction (fun _ => flushWindow_cachesOnly s _) fun _ => ⟨rfl, rfl⟩)

/-- An access that concerns the read cache alone. -/
def State.CacheAccess (s t : State) : Prop :=
  t = { s with cache := t.cache, keeper := t.keeper, mgmt := { s.mgmt with resp := t.mgmt.resp }, fresh := t.fresh } ∧
    t.cache.fills.length = s.cache.fills.length

theorem cacheWrite_frame {m : Mgmt} {f : State → Option State} (h : finish s (mgmtWrite s m f) = .next t)
    (effect : ∀ u, f s = some u → s.CachesOnly u) : s.CacheAccess t := by
  obtain ⟨u, keeper, resp, fresh, rfl | taken, rfl⟩ := finish_mgmtWrite_frame h
  · exact ⟨rfl, rfl⟩
  · obtain ⟨rest, fills⟩ := effect u taken
    exact ⟨by rw [rest], fills⟩

theorem exec_cacheWrite_frame {i : Instr} (access : (∃ m, i = .flush m) ∨ (∃ m n l d, i = .cacheWindowWrite m n l d))
    (h : exec i s = .next t) : s.CacheAccess t := by
  obtain ⟨m, rfl⟩ | ⟨m, n, l, d, rfl⟩ := access
  · exact cacheWrite_frame h fun u written => Option.some.inj written ▸ writeCacheCtrl_cachesOnly s 1
  · exact cacheWrite_frame h fun u => writeWindow_cachesOnly

/-! ### The ports (12 R465, R473; 02 R95) -/

theorem nextAttempt_form (s : State) (n : Nat) : ∃ links, nextAttempt s n = { s with links } := by
  unfold nextAttempt
  split
  · exact iteInduction (motive := fun u : State => ∃ links, u = { s with links }) (fun _ => ⟨_, rfl⟩) fun _ => ⟨s.links, rfl⟩
  · exact ⟨s.links, rfl⟩

theorem exec_port_frame {i : Instr} (port : (∃ n, i = .trainBackoff n) ∨ (∃ n, i = .statusSend n)) (h : exec i s = .next t) :
    t = { s with links := t.links } := by
  obtain ⟨n, rfl⟩ | ⟨n, rfl⟩ := port
  · obtain ⟨_, tried⟩ := nextAttempt_form s n
    rw [finish_next h, tried]
  · have run := finish_next h
    split at run <;> (subst run; rfl)

theorem exec_managementPortReady_frame (h : exec .managementPortReady s = .next t) :
    t = { s with mgmt := { s.mgmt with portReady := t.mgmt.portReady } } := by
  have run := finish_next h
  unfold readyPort at run
  split at run <;> (subst run; rfl)

end

/-- Settles O58: each command by the form of its effect. -/
theorem commandsOfOneUnitChangeOnlyIt : Obligations.CommandsOfOneUnitChangeOnlyIt := by
  unfold Obligations.CommandsOfOneUnitChangeOnlyIt
  intro i s t h
  refine ⟨?lock, ?align, ?loss, fun window => exec_keeperWindow_frame window h, fun access => exec_keeperAccess_frame access h,
    fun ends => exec_twinEnd_frame ends h, ?pair, fun lending => exec_lending_frame lending h, ?step, ?pace,
    fun access => exec_cacheWrite_frame access h, ?flushed, fun port => exec_port_frame port h, ?ready⟩
  case lock =>
    rintro ⟨n, rfl⟩
    exact exec_tallyLock_frame h
  case align =>
    rintro rfl
    exact exec_cadenceAlign_frame h
  case loss =>
    rintro ⟨kind, rfl⟩
    exact exec_tallyLoss_frame h
  case pair =>
    rintro ⟨src, en, rfl⟩
    exact exec_twinPair_frame h
  case step =>
    rintro rfl
    exact exec_vengStep_frame h
  case pace =>
    rintro ⟨m, j, d, rfl⟩
    exact exec_paceWrite_frame h
  case flushed =>
    rintro rfl
    exact finish_next h
  case ready =>
    rintro rfl
    exact exec_managementPortReady_frame h

end Sys2Proof.Machine
end
section
/-! PROOFS. Fault reports (11 R414-R427): the statement about them ranges over every state, also over one in which fencing the pump ends
surge, whose record then stands before the fault's. -/

namespace Sys2Proof.Machine

theorem exec_faultReport {r : FaultRep} (wf : r.wf = true) (s : State) :
    exec (.faultReport r) s = .next (State.plain s (raiseDue (takeFault s r))) := by
  show checked _ _ (finishPlain s _) = _
  rw [wf, checked_true, finishPlain_eq]

/-- Surge ramps up, and a stressed test on the spare waits for the rail to settle, as GO leaves it (11 R436, R441). Pump 0
is the whole allocation of group 0, which runs. -/
def surgingTestWaits : State :=
  { groups := [(0, { gr := { valid := true, pumpMask := 1 } })], warden := { surge := .ramp, test := .waiting, testStress := true } }

/-- A residue failure of pump 0 that shows again on it and not on the spare. -/
def pumpFails : FaultRep :=
  { type := 5, unit := 0, operation := 0, stage := 0, group := 0, entry := 0, chunk := 0, parcel := 0, suspect := 0
    s0 := 0, s1 := 0, s2 := 0, s3 := 0, rep := { same := false, relaxed := false, alt := true, again := true }
    operandsKept := true, passedOn := false, remote := false, repaired := false }

theorem surgingTestWaits_not_due (g : Nat) : (surgingTestWaits.group g).resumeDue = false := by
  by_cases e : 0 = g <;> simp [State.group, surgingTestWaits, tabGet, e]

theorem surgingTestWaits_judges : surgingTestWaits.faultStands pumpFails = true ∧ surgingTestWaits.judging = false ∧
    surgingTestWaits.ratedOut pumpFails.type pumpFails.unit = false ∧
    (∀ y ∈ surgingTestWaits.groups, y.2.gr.valid = true → y.2.halted = false → y.2.gr.pumpMask ≠ 0 →
      surgingTestWaits.groupPumps y.1 ≠ []) := by decide

/-- The record under the present SEQ is that of surge's end. -/
theorem takeFault_surgingTestWaits : (tabGet (fun _ => {}) (raiseDue (takeFault surgingTestWaits pumpFails)).warden.log
    (surgingTestWaits.warden.seq % 256)).verdict = 0 := by decide +kernel

/-- Refutes O48: in `surgingTestWaits` fencing pump 0 makes the spare stand in, the test that waits becomes a whole-engine one, and so
surge ends: its record takes the SEQ at which the statement has the fault's. The statement lacks that no surge is under way while a test on
the spare waits. -/
theorem not_faultReportsAreJudgedAndRecorded : ¬ Obligations.FaultReportsAreJudgedAndRecorded := by
  unfold Obligations.FaultReportsAreJudgedAndRecorded
  intro h
  obtain ⟨stands, free, first, served⟩ := surgingTestWaits_judges
  have wf : pumpFails.wf = true := by decide
  obtain ⟨-, -, -, judged, -, -⟩ := h pumpFails surgingTestWaits wf surgingTestWaits_not_due
  obtain ⟨-, fenced, -⟩ := judged stands (.inl rfl) (by decide) rfl free rfl rfl first rfl
  obtain ⟨t, e, run, record, permanent, -⟩ := fenced rfl rfl rfl (by decide) (by decide) rfl served
  have log : t.warden.log = (raiseDue (takeFault surgingTestWaits pumpFails)).warden.log := by
    rw [← Host.Outcome.next.inj ((exec_faultReport wf surgingTestWaits).symm.trans run)]
    rfl
  rw [record, log, takeFault_surgingTestWaits] at permanent
  cases permanent

end Sys2Proof.Machine
end
section
/-! PROOFS. What follows a change of the target, a record of the warden and the end of surge (11 R414, R424, R425, R441-R443): each leaves the
warden as it was, but for some fields of its own. -/

namespace Sys2Proof.Machine

/-! ### What follows the target -/

/-- The warden without what follows its target: the episode off target, RAMP as against ON, a test that waited for the rail, and the draw
request (11 R425, R436, R441). -/
def WardenSt.unfollowed (w : WardenSt) : WardenSt := { w with
  offSince := none, offTarget := 0, offBy := 0, senseRecorded := false, surge := if w.surge == .ramp then .on else w.surge
  test := .idle, testPours := [], testBytes := [], testIm := none, stressDomains := [], drawValid := false, drawReq := 0 }

theorem WardenSt.compared_unfollowed (w : WardenSt) (now target : Nat) : (w.compared now target).unfollowed = w.unfollowed := by
  have settles : ∀ x : SurgeState, (if (if x == .ramp then SurgeState.on else x) == .ramp then .on else if x == .ramp then .on else x) =
      if x == .ramp then .on else x := fun x => by cases x <;> rfl
  unfold WardenSt.compared
  split
  · simp only [WardenSt.unfollowed, settles]
  split <;> rfl

theorem startWaitingTest_unfollowed (s : State) : (startWaitingTest s).warden.unfollowed = s.warden.unfollowed := by
  unfold startWaitingTest
  dsimp only
  split <;> rfl

theorem refreshDraw_drawn (s : State) : ∃ drawValid drawReq,
    refreshDraw s = { s with warden := { s.warden with drawValid, drawReq } } := by
  unfold refreshDraw
  split <;> exact ⟨_, _, rfl⟩

theorem refreshVeng_unfollowed (s : State) : (refreshVeng s).warden.unfollowed = s.warden.unfollowed := by
  obtain ⟨_, _, drawn⟩ := refreshDraw_drawn (startWaitingTest { s with warden := s.warden.compared s.now s.vengTarget.1 })
  rw [refreshVeng_eq, drawn]
  exact (startWaitingTest_unfollowed _).trans (s.warden.compared_unfollowed _ _)

theorem refreshVeng_surging (s : State) : (refreshVeng s).warden.surging = s.warden.surging := by
  obtain ⟨_, followed, same⟩ := refreshVeng_form s
  rw [followed]
  exact same.surging

/-- A field that does not follow the target is kept where the warden is but for what does. -/
theorem WardenSt.kept_of_unfollowed {α : Type} {v w : WardenSt} (h : v.unfollowed = w.unfollowed) (p : WardenSt → α)
    (own : ∀ x : WardenSt, p x.unfollowed = p x := by exact fun _ => rfl) : p v = p w := by rw [← own v, h, own w]

theorem refreshVeng_log (s : State) : (refreshVeng s).warden.log = s.warden.log :=
  WardenSt.kept_of_unfollowed (refreshVeng_unfollowed s) WardenSt.log

/-! ### Records -/

theorem makeRecord_log (s : State) (r : FaultRecord) :
    tabGet (fun _ => {}) (makeRecord s r).warden.log (s.warden.seq % 256) = s.stampedRecord r := by
  obtain ⟨_, _, made⟩ := makeRecord_stamped s r
  rw [made]
  exact tabGet_tabSet_same _ _ _ _

theorem makeRecord_surging (s : State) (r : FaultRecord) : (makeRecord s r).warden.surging = s.warden.surging := by
  obtain ⟨_, _, made⟩ := makeRecord_stamped s r
  rw [made]
  rfl

/-! ### The warden apart from surge, records and what follows the target -/

/-- What neither a record, nor the end of surge, nor a change of the target touches. -/
def WardenSt.steady (w : WardenSt) : WardenSt := { w.unfollowed with
  surge := .off, ledgerDue := false, seq := 0, log := [], newFault := false, ring := {} }

/-- A steady field is kept where the warden is but for the others. -/
theorem WardenSt.kept_of_steady {α : Type} {v w : WardenSt} (h : v.steady = w.steady) (p : WardenSt → α)
    (own : ∀ x : WardenSt, p x.steady = p x := by exact fun _ => rfl) : p v = p w := by rw [← own v, h, own w]

theorem steady_of_unfollowed {v w : WardenSt} (h : v.unfollowed = w.unfollowed) : v.steady = w.steady := by
  rw [WardenSt.steady, h, ← WardenSt.steady]

@[simp] theorem refreshVeng_steady (s : State) : (refreshVeng s).warden.steady = s.warden.steady :=
  steady_of_unfollowed (refreshVeng_unfollowed s)

@[simp] theorem refreshDraw_steady (s : State) : (refreshDraw s).warden.steady = s.warden.steady := by
  obtain ⟨_, _, drawn⟩ := refreshDraw_drawn s
  rw [drawn]
  rfl

@[simp] theorem makeRecord_steady (s : State) (r : FaultRecord) : (makeRecord s r).warden.steady = s.warden.steady := by
  obtain ⟨_, _, made⟩ := makeRecord_stamped s r
  rw [made]
  rfl

@[simp] theorem engineRecord_steady (s : State) (type s0 s1 s2 action : Nat) :
    (engineRecord s type s0 s1 s2 action).warden.steady = s.warden.steady := makeRecord_steady s _

@[simp] theorem thermalRecord_steady (s : State) (s0 action : Nat) : (thermalRecord s s0 action).warden.steady = s.warden.steady :=
  engineRecord_steady s _ _ _ _ _

@[simp] theorem endSurge_steady (s : State) (s0 : Nat) : (endSurge s s0).warden.steady = s.warden.steady := by
  unfold endSurge
  split
  · exact (refreshVeng_steady _).trans (engineRecord_steady _ _ _ _ _ _)
  · rfl

/-! ### The end of surge (11 R441-R443) -/

/-- The state in which surge has ended, before its record. -/
def surgeOff (s : State) : State := s.updWarden fun w => { w with
  surge := if w.spent then .disabled else .off, drawValid := false, drawReq := 0, ledgerDue := true }

theorem surgeOff_surging (s : State) : (surgeOff s).warden.surging = false := by
  show WardenSt.surging { s.warden with surge := if s.warden.spent then .disabled else .off } = false
  cases s.warden.spent <;> rfl

theorem endSurge_on {s : State} (on : s.warden.surging = true) (s0 : Nat) :
    endSurge s s0 = refreshVeng (engineRecord (surgeOff s) 0x11 s0 s.warden.ledgerSec 0 10) := if_pos on

theorem endSurge_surging (s : State) (s0 : Nat) : (endSurge s s0).warden.surging = false := by
  cases on : s.warden.surging
  case false => rw [endSurge_off on, on]
  case true => rw [endSurge_on on, refreshVeng_surging, engineRecord, makeRecord_surging, surgeOff_surging]

theorem endSurge_log {s : State} (on : s.warden.surging = true) (s0 : Nat) :
    tabGet (fun _ => {}) (endSurge s s0).warden.log (s.warden.seq % 256) = (surgeOff s).stampedRecord
      { type := 0x11, action := 10, unit := 0xFFFF, operation := 0xFF, group := 0xFFFF, count := 0xFFFFFFFF
        s0, s1 := s.warden.ledgerSec, s2 := 0 } := by
  rw [endSurge_on on, refreshVeng_log]
  exact makeRecord_log _ _

/-- A ledger record is due at the end of surge (11 R443). -/
theorem endSurge_ledgerDue {s : State} (on : s.warden.surging = true) (s0 : Nat) : (endSurge s s0).warden.ledgerDue = true := by
  obtain ⟨_, _, made⟩ := makeRecord_stamped (surgeOff s)
    { type := 0x11, action := 10, unit := 0xFFFF, operation := 0xFF, group := 0xFFFF, count := 0xFFFFFFFF
      s0, s1 := s.warden.ledgerSec, s2 := 0 }
  rw [endSurge_on on]
  refine (WardenSt.kept_of_unfollowed (refreshVeng_unfollowed _) WardenSt.ledgerDue).trans ?_
  rw [engineRecord, made]
  rfl

end Sys2Proof.Machine
end
section
/-! PROOFS. Heat and the sense inputs (11 R444; 12 R484, R486). -/

namespace Sys2Proof.Machine

/-! ### The cap (11 R444) -/

theorem capRule_hot {s : State} (cold : s.warden.cap = false) (hot : 420 < s.warden.temp) :
    (capRule s).warden.surging = false ∧ (capRule s).warden.steady = { s.warden with cap := true }.steady := by
  have begins : capRule s = refreshVeng (thermalRecord (endSurge (s.updWarden fun w => { w with cap := true }) 2) 0
      (if s.warden.surging then 10 else 8)) := if_pos (by simp [cold, hot])
  rw [begins]
  refine ⟨?_, by simp⟩
  rw [refreshVeng_surging, thermalRecord, engineRecord, makeRecord_surging, endSurge_surging]

theorem capRule_steady (s : State) : (capRule s).warden.steady =
    { s.warden with cap := s.warden.cap || decide (420 < s.warden.temp) }.steady := by
  by_cases due : s.warden.cap = false ∧ 420 < s.warden.temp
  · obtain ⟨cold, hot⟩ := due
    rw [(capRule_hot cold hot).2, cold, decide_eq_true hot, Bool.false_or]
  · have stays : (s.warden.cap || decide (420 < s.warden.temp)) = s.warden.cap := by
      cases cap : s.warden.cap
      · simpa [cap] using due
      · rfl
    have none : capRule s = s := if_neg (by simpa using due)
    rw [none, stays]

theorem noteTrip_steady (was : Bool) (s : State) : (noteTrip was s).warden.steady = s.warden.steady := by
  unfold noteTrip
  split
  · rfl
  split <;> exact thermalRecord_steady s _ _

theorem noteTrip_surging (was : Bool) (s : State) : (noteTrip was s).warden.surging = s.warden.surging := by
  unfold noteTrip
  split
  · rfl
  split <;> exact makeRecord_surging s _

/-! ### Readings (11 R425, R444; 12 R484, R486) -/

/-- The warden that has taken in a temperature, before the cap and the records. -/
def tempTaken (s : State) (tj : Int) : State := s.updWarden fun w => { w with
  temp := tj, tjAt := s.now, tjStale := false
  hotTrip := if 460 ≤ tj then true else if tj ≤ 420 then false else w.hotTrip
  coolSince := if tj ≤ 400 then some (w.coolSince.getD s.now) else none }

theorem senseTemp_eq (s : State) (tj : Int) : senseTemp s tj =
    refreshDraw (noteTrip s.warden.trip (capRule (tempTaken s tj))) := rfl

theorem senseTemp_steady (s : State) (tj : Int) : (senseTemp s tj).warden.steady =
    { (tempTaken s tj).warden with cap := s.warden.cap || decide (420 < tj) }.steady := by
  rw [senseTemp_eq, refreshDraw_steady, noteTrip_steady, capRule_steady]
  rfl

theorem senseTemp_surging {s : State} {tj : Int} (hot : 420 < tj) (cold : s.warden.cap = false) :
    (senseTemp s tj).warden.surging = false := by
  obtain ⟨_, _, drawn⟩ := refreshDraw_drawn (noteTrip s.warden.trip (capRule (tempTaken s tj)))
  rw [senseTemp_eq, drawn]
  exact (noteTrip_surging _ _).trans (capRule_hot (s := tempTaken s tj) cold hot).1

theorem senseVeng_steady (s : State) (mv : Nat) : (senseVeng s mv).warden.steady =
    { s.warden with vengMv := mv, vengAt := s.now, vengStale := false }.steady :=
  (refreshVeng_steady _).trans (noteTrip_steady _ _)

/-! ### The commands -/

theorem exec_thermal {tj : Int} (lo : -2048 ≤ tj) (hi : tj ≤ 2047) (s : State) :
    exec (.thermal tj) s = .next (State.plain s (senseTemp s tj)) := by
  have wf : tjWf tj = true := by simp [tjWf, lo, hi]
  show checked _ _ (finishPlain s _) = _
  rw [wf, checked_true, finishPlain_eq]

theorem exec_senseStrobe_veng {v : Int} (lo : 0 ≤ v) (hi : v ≤ 1023) (s : State) :
    exec (.senseStrobe .veng v) s = .next (State.plain s (senseVeng s v.toNat)) := by
  have wf : senseWf .veng v = true := by simp [senseWf, lo, hi]
  show checked _ _ (finishPlain s _) = _
  rw [wf, checked_true, finishPlain_eq]

/-- A temperature is taken in alike by THERMAL and by the strobe of its input. -/
theorem exec_senseStrobe_tj (tj : Int) (s : State) (t : State) (h : exec (.thermal tj) s = .next t) :
    exec (.senseStrobe .tj tj) s = .next t := by
  obtain ⟨wf, run⟩ := checked_next h
  show checked (senseWf .tj tj) _ (finishPlain s _) = _
  rw [show senseWf .tj tj = true from wf, checked_true]
  exact run

/-- A sense input whose strobe has been missing for 1 ms (12 R486). -/
theorem exec_senseStale_tj {s : State} (fresh : s.warden.tjStale = false) (late : s.warden.tjAt + 1000000 ≤ s.now) :
    ∃ t, exec (.senseStale .tj) s = .next t ∧ t.warden.tjStale = true := by
  have lost : senseLost s .tj = refreshDraw (thermalRecord (s.updWarden fun w => { w with tjStale := true }) 2 9) :=
    if_pos (by simp [fresh, late])
  have run : exec (.senseStale .tj) s = finishPlain s (senseLost s .tj) := rfl
  rw [lost] at run
  exact ⟨_, run, WardenSt.kept_of_steady ((refreshDraw_steady _).trans (thermalRecord_steady _ _ _)) WardenSt.tjStale⟩

theorem exec_senseStale_veng {s : State} (fresh : s.warden.vengStale = false) (late : s.warden.vengAt + 1000000 ≤ s.now) :
    ∃ t, exec (.senseStale .veng) s = .next t ∧ t.warden.vengStale = true := by
  have lost : senseLost s .veng = refreshDraw (thermalRecord (s.updWarden fun w => { w with vengStale := true }) 2 9) :=
    if_pos (by simp [fresh, late])
  have run : exec (.senseStale .veng) s = finishPlain s (senseLost s .veng) := rfl
  rw [lost] at run
  exact ⟨_, run, WardenSt.kept_of_steady ((refreshDraw_steady _).trans (thermalRecord_steady _ _ _)) WardenSt.vengStale⟩

theorem exec_senseStale_early {s : State} (early : s.now < s.warden.tjAt + 1000000) : exec (.senseStale .tj) s = .next s := by
  have kept : senseLost s .tj = s := if_neg (by simp [Nat.not_le.2 early])
  show finishPlain s (senseLost s .tj) = _
  rw [kept]
  rfl

/-- A trip is in force while an input is stale. -/
theorem WardenSt.trip_of_stale {w : WardenSt} (h : w.tjStale = true ∨ w.vengStale = true) : w.trip = true := by
  rcases h with h | h <;> simp [WardenSt.trip, h]

theorem exec_capRelease_due {s : State} {a : Nat} (cap : s.warden.cap = true) (cool : s.warden.coolSince = some a)
    (late : a + 1000000000 ≤ s.now) : ∃ t, exec .capRelease s = .next t ∧ t.warden.cap = false ∧
      (tabGet (fun _ => {}) t.warden.log (s.warden.seq % 256)).type = 0x10 := by
  have released : releaseCap s = refreshVeng (thermalRecord (s.updWarden fun w => { w with cap := false }) 1 0) :=
    if_pos (by simp [cap, cool, late])
  have run : exec .capRelease s = finishPlain s (releaseCap s) := rfl
  rw [released] at run
  refine ⟨_, run, WardenSt.kept_of_steady ((refreshVeng_steady _).trans (thermalRecord_steady _ _ _)) WardenSt.cap, ?_⟩
  show (tabGet (fun _ => {}) (refreshVeng _).warden.log _).type = _
  rw [refreshVeng_log]
  exact congrArg FaultRecord.type (makeRecord_log _ _)

theorem exec_capRelease_early {s : State} {a : Nat} (cool : s.warden.coolSince = some a) (early : s.now < a + 1000000000) :
    exec .capRelease s = .next s := by
  have kept : releaseCap s = s := if_neg (by simp [cool, Nat.not_le.2 early])
  show finishPlain s (releaseCap s) = _
  rw [kept]
  rfl

theorem effectivePace_of_trip {s : State} (trip : s.warden.trip = true) (d : Nat) : s.effectivePace d = 8 := by
  simp [State.effectivePace, trip]

/-- Settles O52: each reading and each missing strobe sets its fields, which records, surge and what follows the target leave alone. -/
theorem heatCapsAndTrips : Obligations.HeatCapsAndTrips := by
  unfold Obligations.HeatCapsAndTrips
  intro s
  refine ⟨fun tj lo hi => ?temp, fun v lo hi => ?veng, fun fresh late => ?tjStale, fun fresh late => ?vengStale,
    exec_senseStale_early, fun a cap cool => ⟨exec_capRelease_due cap cool, exec_capRelease_early cool⟩,
    fun d trip => effectivePace_of_trip trip d⟩
  case temp =>
    have run := exec_thermal lo hi s
    have steady := senseTemp_steady s tj
    obtain ⟨_, _, _, _, _, rest, -, -⟩ := exec_powersOnly (i := .thermal tj) rfl run
    exact ⟨_, run, exec_senseStrobe_tj tj s _ run, WardenSt.kept_of_steady steady WardenSt.temp,
      WardenSt.kept_of_steady steady WardenSt.tjAt, WardenSt.kept_of_steady steady WardenSt.tjStale,
      WardenSt.kept_of_steady steady WardenSt.cap, WardenSt.kept_of_steady steady WardenSt.hotTrip, senseTemp_surging,
      (congrArg State.groups rest :), (congrArg State.ops rest :)⟩
  case veng =>
    have steady := senseVeng_steady s v.toNat
    exact ⟨_, exec_senseStrobe_veng lo hi s, WardenSt.kept_of_steady steady WardenSt.vengMv,
      WardenSt.kept_of_steady steady WardenSt.vengAt, WardenSt.kept_of_steady steady WardenSt.vengStale,
      WardenSt.kept_of_steady steady WardenSt.temp⟩
  case tjStale =>
    obtain ⟨t, run, stale⟩ := exec_senseStale_tj fresh late
    exact ⟨t, run, stale, WardenSt.trip_of_stale (.inl stale)⟩
  case vengStale =>
    obtain ⟨t, run, stale⟩ := exec_senseStale_veng fresh late
    exact ⟨t, run, stale, WardenSt.trip_of_stale (.inr stale)⟩

end Sys2Proof.Machine
end
section
/-! PROOFS. Surge and the wear ledger (11 R441-R443; 12 R485). -/

namespace Sys2Proof.Machine

/-! ### The begin of surge (11 R441; 12 R485) -/

/-- The state in which surge ramps up, before its record. -/
def surgeOn (s : State) : State := s.updWarden fun w => { w with drawGrant := true, surge := .ramp }

theorem exec_surgeBegin_ready {s : State} (valid : s.warden.drawValid = true) (ready : s.surgeReady = true) :
    exec .surgeBegin s =
      .next (State.plain s (refreshVeng (engineRecord (surgeOn s) 0x11 0 s.warden.ledgerSec 0 0))) := by
  have granted : (s.updWarden fun w => { w with drawGrant := true }).surgeReady = true := ready
  have begins : beginSurge (s.updWarden fun w => { w with drawGrant := true }) =
      refreshVeng (engineRecord (surgeOn s) 0x11 0 s.warden.ledgerSec 0 0) := if_pos (by simp [valid, granted])
  show finishPlain s (beginSurge _) = _
  rw [begins, finishPlain_eq]

theorem exec_surgeBegin_unready {s : State} (why : s.warden.drawValid = false ∨ s.surgeReady = false) :
    exec .surgeBegin s = .next { s with warden := { s.warden with drawGrant := true } } := by
  have same : (s.updWarden fun w => { w with drawGrant := true }).surgeReady = s.surgeReady := rfl
  have kept : beginSurge (s.updWarden fun w => { w with drawGrant := true }) = s.updWarden fun w => { w with drawGrant := true } :=
    if_neg (by rw [same]; rcases why with no | no <;> simp [no])
  show finishPlain s (beginSurge _) = _
  rw [kept]
  rfl

theorem surgeBegins {s : State} (valid : s.warden.drawValid = true) (ready : s.surgeReady = true) : ∃ t,
    exec .surgeBegin s = .next t ∧ t.warden.surging = true ∧ t.warden.drawGrant = true ∧
      (tabGet (fun _ => {}) t.warden.log (s.warden.seq % 256)).type = 0x11 := by
  have run := exec_surgeBegin_ready valid ready
  have steady := (refreshVeng_steady (engineRecord (surgeOn s) 0x11 0 s.warden.ledgerSec 0 0)).trans (engineRecord_steady _ _ _ _ _ _)
  refine ⟨_, run, ?_, WardenSt.kept_of_steady steady WardenSt.drawGrant, ?_⟩
  · exact (refreshVeng_surging _).trans (makeRecord_surging _ _)
  · show (tabGet (fun _ => {}) (refreshVeng _).warden.log _).type = _
    rw [refreshVeng_log]
    exact congrArg FaultRecord.type (makeRecord_log _ _)

/-! ### REQUEST (11 R441, R447) -/

/-- The state in which REQUEST has its new value. -/
def requested (s : State) (v : Bool) : State := s.updWarden fun w => { w with request := v }

/-- With no surge under way the draw request follows the conditions of surge. -/
theorem refreshDraw_valid {s : State} (calm : s.warden.surging = false) : (refreshDraw s).warden.drawValid = s.surgeReady := by
  have follows : refreshDraw s = s.updWarden fun w => { w with
    drawValid := s.surgeReady, drawReq := if s.surgeReady then 96 - fullLoad s.vengTarget.1 else 0 } := if_neg (by simp [calm])
  rw [follows]
  rfl

theorem refreshDraw_surgeReady (s : State) : (refreshDraw s).surgeReady = s.surgeReady := by
  obtain ⟨_, _, drawn⟩ := refreshDraw_drawn s
  rw [drawn]
  rfl

theorem accepted_surgeReady (s t : State) (m : Mgmt) : (State.accepted s m t).surgeReady = t.surgeReady := by
  unfold State.accepted
  split <;> rfl

theorem exec_request {s : State} {m : Mgmt} (may : State.MayWrite s m) (v : Bool) : exec (.request m v) s =
    .next (State.accepted s m (refreshDraw (if v then requested s v else endSurge (requested s v) 2))) :=
  mgmtWrite_accepted may rfl

theorem exec_request_set {s : State} {m : Mgmt} (may : State.MayWrite s m) : ∃ t, exec (.request m true) s = .next t ∧
    t.warden.request = true ∧ t.warden.surge = s.warden.surge ∧ t.warden.drawGrant = s.warden.drawGrant ∧
    (s.warden.surging = false → t.warden.drawValid = t.surgeReady) ∧ t.ops = s.ops := by
  have run := exec_request may true
  rw [if_pos rfl] at run
  obtain ⟨_, _, drawn⟩ := refreshDraw_drawn (requested s true)
  refine ⟨_, run, ?_⟩
  rw [accepted_surgeReady, refreshDraw_surgeReady, State.accepted_warden, State.accepted_ops]
  refine ⟨?_, ?_, ?_, fun calm => refreshDraw_valid (s := requested s true) calm, ?_⟩ <;> (rw [drawn]; rfl)

theorem exec_request_clear {s : State} {m : Mgmt} (may : State.MayWrite s m) : ∃ t, exec (.request m false) s = .next t ∧
    t.warden.surging = false ∧ t.warden.request = false := by
  have run := exec_request may false
  rw [if_neg Bool.false_ne_true] at run
  obtain ⟨_, _, drawn⟩ := refreshDraw_drawn (endSurge (requested s false) 2)
  have steady := endSurge_steady (requested s false) 2
  refine ⟨_, run, ?_⟩
  rw [State.accepted_warden, drawn]
  exact ⟨endSurge_surging (requested s false) 2, WardenSt.kept_of_steady steady WardenSt.request⟩

/-! ### The ends of surge (11 R442; 12 R485) -/

theorem exec_drawGrantFall {s : State} (on : s.warden.surging = true) : ∃ t, exec .drawGrantFall s = .next t ∧
    t.warden.surging = false ∧ t.warden.drawGrant = false ∧ t.warden.ledgerDue = true := by
  have steady := endSurge_steady (s.updWarden fun w => { w with drawGrant := false }) 1
  exact ⟨_, rfl, endSurge_surging _ 1, WardenSt.kept_of_steady steady WardenSt.drawGrant,
    endSurge_ledgerDue (s := s.updWarden fun w => { w with drawGrant := false }) on 1⟩

theorem exec_surgeWindowSpent {s : State} (on : s.warden.surging = true) (spent : 500 ≤ s.warden.windowUsed) : ∃ t,
    exec .surgeWindowSpent s = .next t ∧ t.warden.surging = false ∧
      (tabGet (fun _ => {}) t.warden.log (s.warden.seq % 256)).s0 = 1 := by
  have run : exec .surgeWindowSpent s = finishPlain s (if 500 ≤ s.warden.windowUsed then endSurge s 1 else s) := rfl
  rw [if_pos spent] at run
  exact ⟨_, run, endSurge_surging s 1, congrArg FaultRecord.s0 (endSurge_log on 1)⟩

theorem exec_surgeWindowSpent_early {s : State} (left : s.warden.windowUsed < 500) : exec .surgeWindowSpent s = .next s := by
  show finishPlain s (if 500 ≤ s.warden.windowUsed then endSurge s 1 else s) = _
  rw [if_neg (Nat.not_le.2 left)]
  rfl

/-! ### The ledger (11 R443) -/

theorem exec_ledgerSpent {s : State} (valid : s.warden.ledgerValid = true) (unspent : s.warden.spent = false)
    (limit : 7200000000 ≤ s.warden.ledgerMs) : ∃ t, exec .ledgerSpent s = .next t ∧ t.warden.spent = true ∧
      t.warden.surge = .disabled := by
  have due : (s.warden.ledgerValid && !s.warden.spent && decide (ledgerLimit ≤ s.warden.ledgerMs)) = true := by
    simp [valid, unspent, ledgerLimit, limit]
  have run : exec .ledgerSpent s = finishPlain s (if _ then _ else _) := rfl
  rw [if_pos due] at run
  have steady := endSurge_steady (s.updWarden fun w => { w with spent := true }) 3
  obtain ⟨_, _, drawn⟩ := refreshDraw_drawn
    ((endSurge (s.updWarden fun w => { w with spent := true }) 3).updWarden fun w => { w with surge := .disabled })
  rw [drawn] at run
  exact ⟨_, run, WardenSt.kept_of_steady steady WardenSt.spent, rfl⟩

theorem exec_ledgerSpent_not {s : State}
    (why : s.warden.ledgerValid = false ∨ s.warden.spent = true ∨ s.warden.ledgerMs < 7200000000) :
    exec .ledgerSpent s = .next s := by
  show finishPlain s (if _ then _ else _) = _
  rw [if_neg]
  · rfl
  · rcases why with invalid | spent | left
    · simp [invalid]
    · simp [spent]
    · simp [ledgerLimit, Nat.not_le.2 left]

/-- The state in which a record of the ledger is no longer due. -/
def ledgerNoted (s : State) : State := s.updWarden fun w => { w with ledgerDue := false, ledgerNoted := s.warden.ledgerSec / 60 }

/-- A ledger record in memory. -/
def ledgerBytes (s : State) : List Byte :=
  leBytes 4 s.warden.ledgerSec ++ leBytes 4 0 ++ leBytes 8 (s.ledgerCheck s.warden.ledgerSec).toNat

theorem length_ledgerBytes (s : State) : (ledgerBytes s).length = 16 := by simp [ledgerBytes]

theorem writeLedger_due {s : State} (en : s.warden.ledgerEn = true) (valid : s.warden.ledgerValid = true)
    (due : s.warden.ledgerDue = true) : writeLedger s =
      enqueueWrite (ledgerNoted s) 1 257 s.warden.ledgerAddr (ledgerBytes s) siphonOf fun _ => .ledger :=
  if_pos (by simp [en, valid, due])

/-- The record of the ledger waits at its siphon. -/
theorem waiting_ledger (s : State) : ∃ z ∈ ((enqueueWrite (ledgerNoted s) 1 257 s.warden.ledgerAddr (ledgerBytes s) siphonOf
    fun _ => .ledger).siphon (siphonOf s.warden.ledgerAddr)).waiting, z.pur = .ledger ∧ z.addr = s.warden.ledgerAddr := by
  obtain ⟨n, first⟩ := mem_blocks_first (addr := s.warden.ledgerAddr) (len := 16) (by decide)
  rw [← length_ledgerBytes s] at first
  have waits := waiting_enqueueWrite (ledgerNoted s) 1 257 s.warden.ledgerAddr (ledgerBytes s) siphonOf (fun _ => .ledger) _ first
  exact ⟨_, waits, rfl, rfl⟩

theorem exec_ledgerRecord {s : State} (en : s.warden.ledgerEn = true) (valid : s.warden.ledgerValid = true)
    (due : s.warden.ledgerDue = true) : ∃ t, exec .ledgerRecord s = .next t ∧ t.warden.ledgerDue = false ∧
      (∃ z ∈ (t.siphon (siphonOf s.warden.ledgerAddr)).waiting, z.pur = .ledger ∧ z.addr = s.warden.ledgerAddr) ∧ t.ops = s.ops := by
  have run : exec .ledgerRecord s = finishPlain s (writeLedger s) := rfl
  rw [writeLedger_due en valid due, finishPlain_eq] at run
  obtain ⟨_, form⟩ := enqueueWrite_form (ledgerNoted s) 1 257 s.warden.ledgerAddr (ledgerBytes s) siphonOf fun _ => .ledger
  refine ⟨_, run, ?_, waiting_ledger s, ?_⟩ <;> (rw [form]; rfl)

theorem exec_ledgerRecord_not {s : State} (why : s.warden.ledgerEn = false ∨ s.warden.ledgerValid = false) :
    exec .ledgerRecord s = .next s := by
  have kept : writeLedger s = s := if_neg (by rcases why with h | h <;> simp [h])
  show finishPlain s (writeLedger s) = _
  rw [kept]
  rfl

/-! ### RESTORE (11 R443) -/

/-- The state in which the ledger on offer has been taken. -/
def ledgerTaken (s : State) : State := s.updWarden fun w => { w with
  restoreUsed := true, ledgerValid := true, ledgerMs := 1000 * w.restoreS, ledgerNs := 0, ledgerNoted := w.restoreS / 60
  spent := decide (ledgerLimit ≤ 1000 * w.restoreS), surge := if decide (ledgerLimit ≤ 1000 * w.restoreS) then .disabled else .off }

theorem restoreLedger_used {s : State} (used : s.warden.restoreUsed = true) : restoreLedger s = none := if_pos used

theorem restoreLedger_fits {s : State} (unused : s.warden.restoreUsed = false)
    (fits : s.warden.restoreCheck = s.ledgerCheck s.warden.restoreS) : restoreLedger s = some (refreshDraw (ledgerTaken s)) := by
  rw [restoreLedger, if_neg (by simp [unused])]
  exact if_pos (beq_iff_eq.2 fits)

theorem restoreLedger_bad {s : State} (unused : s.warden.restoreUsed = false)
    (bad : s.warden.restoreCheck ≠ s.ledgerCheck s.warden.restoreS) : restoreLedger s = some (engineRecord
      (s.updWarden fun w => { w with restoreUsed := true, ledgerBad := true }) 0x11 4 s.warden.ledgerSec 0 0) := by
  rw [restoreLedger, if_neg (by simp [unused])]
  exact if_neg fun fits => bad (beq_iff_eq.1 fits)

/-- What follows a ledger that has been offered: REQUEST stays as it is, and without it surge ends. -/
def afterRestore (s t : State) : State :=
  refreshDraw (if s.warden.request then requested t s.warden.request else endSurge (requested t s.warden.request) 2)

theorem exec_restore_some {s t : State} {m : Mgmt} (may : State.MayWrite s m) (taken : restoreLedger s = some t) :
    exec (.restore m) s = .next (State.accepted s m (afterRestore s t)) := by
  refine mgmtWrite_accepted may ?_
  rw [writeSurgeCtrl, if_pos rfl, taken]
  rfl

theorem exec_restore_none {s : State} {m : Mgmt} (may : State.MayWrite s m) (refused : restoreLedger s = none) :
    exec (.restore m) s = .next (State.answered s m 1 0) := by
  have none : writeSurgeCtrl s s.warden.request true = none := by rw [writeSurgeCtrl, if_pos rfl, refused]; rfl
  show finish s (mgmtWrite s m _) = _
  rw [mgmtWrite_rejected may none, finish_answered]

/-- With no surge under way only REQUEST and the draw request may change. -/
theorem afterRestore_calm {s t : State} (calm : t.warden.surging = false) : ∃ drawValid drawReq,
    (afterRestore s t).warden = { t.warden with request := s.warden.request, drawValid, drawReq } := by
  have kept : (if s.warden.request then requested t s.warden.request else endSurge (requested t s.warden.request) 2) =
      requested t s.warden.request := by
    rw [endSurge_off (s := requested t s.warden.request) calm, ite_self]
  obtain ⟨drawValid, drawReq, drawn⟩ := refreshDraw_drawn (requested t s.warden.request)
  refine ⟨drawValid, drawReq, ?_⟩
  rw [afterRestore, kept, drawn]
  rfl

theorem afterRestore_steady (s t : State) :
    (afterRestore s t).warden.steady = { t.warden with request := s.warden.request }.steady := by
  rw [afterRestore, refreshDraw_steady]
  split
  · rfl
  · exact endSurge_steady _ 2

theorem ledgerTaken_surging (s : State) : (ledgerTaken s).warden.surging = false := by
  show WardenSt.surging { s.warden with surge := if decide (ledgerLimit ≤ 1000 * s.warden.restoreS) then .disabled else .off } = false
  cases decide (ledgerLimit ≤ 1000 * s.warden.restoreS) <;> rfl

theorem exec_restore_fits {s : State} {m : Mgmt} (may : State.MayWrite s m) (unused : s.warden.restoreUsed = false)
    (fits : s.warden.restoreCheck = s.ledgerCheck s.warden.restoreS) : ∃ t, exec (.restore m) s = .next t ∧
      t.warden.ledgerValid = true ∧ t.warden.ledgerMs = 1000 * s.warden.restoreS ∧ t.warden.restoreUsed = true ∧
      (s.warden.restoreS < 7200000 → t.warden.surge = .off) ∧
      (7200000 ≤ s.warden.restoreS → t.warden.surge = .disabled ∧ t.warden.spent = true) := by
  have run := exec_restore_some may (restoreLedger_fits unused fits)
  obtain ⟨_, _, drawn⟩ := refreshDraw_drawn (ledgerTaken s)
  have calm : (refreshDraw (ledgerTaken s)).warden.surging = false := by rw [drawn]; exact ledgerTaken_surging s
  obtain ⟨_, _, after⟩ := afterRestore_calm (s := s) calm
  refine ⟨_, run, ?_⟩
  rw [State.accepted_warden, after, drawn]
  refine ⟨rfl, rfl, rfl, fun left => ?_, fun spent => ?_⟩
  · have below : ¬ ledgerLimit ≤ 1000 * s.warden.restoreS := by unfold ledgerLimit; omega
    exact if_neg (by simp [below])
  · have limit : decide (ledgerLimit ≤ 1000 * s.warden.restoreS) = true := decide_eq_true (by unfold ledgerLimit; omega)
    exact ⟨if_pos limit, limit⟩

theorem exec_restore_bad {s : State} {m : Mgmt} (may : State.MayWrite s m) (unused : s.warden.restoreUsed = false)
    (bad : s.warden.restoreCheck ≠ s.ledgerCheck s.warden.restoreS) : ∃ t, exec (.restore m) s = .next t ∧
      t.warden.ledgerBad = true ∧ t.warden.ledgerValid = s.warden.ledgerValid := by
  have run := exec_restore_some may (restoreLedger_bad unused bad)
  have recorded := engineRecord_steady (s.updWarden fun w => { w with restoreUsed := true, ledgerBad := true }) 0x11 4
    s.warden.ledgerSec 0 0
  have steady := afterRestore_steady s (engineRecord
    (s.updWarden fun w => { w with restoreUsed := true, ledgerBad := true }) 0x11 4 s.warden.ledgerSec 0 0)
  refine ⟨_, run, ?_⟩
  rw [State.accepted_warden]
  exact ⟨(WardenSt.kept_of_steady steady WardenSt.ledgerBad).trans
      (WardenSt.kept_of_steady recorded WardenSt.ledgerBad),
    (WardenSt.kept_of_steady steady WardenSt.ledgerValid).trans
      (WardenSt.kept_of_steady recorded WardenSt.ledgerValid)⟩

/-- Settles O53: each command of surge and of the ledger by its condition; what the begin and the end of surge record, and what follows the
target, leaves the ledger alone. -/
theorem surgeKeepsItsLedger : Obligations.SurgeKeepsItsLedger := by
  unfold Obligations.SurgeKeepsItsLedger
  intro s m
  refine ⟨surgeBegins, exec_surgeBegin_unready, exec_request_set, fun on => ⟨exec_request_clear, exec_drawGrantFall on,
      exec_surgeWindowSpent on⟩, exec_surgeWindowSpent_early, exec_ledgerSpent, exec_ledgerSpent_not, exec_ledgerRecord,
    exec_ledgerRecord_not, fun may => ⟨fun used => exec_restore_none may (restoreLedger_used used),
      fun unused fits _ => exec_restore_fits may unused fits, exec_restore_bad may⟩⟩

end Sys2Proof.Machine
end
section
/-! PROOFS. The verdicts on a test's failures (11 R420-R429): what is done about them leaves the outcome of the test as it is and owes no group
a resume mark. -/

namespace Sys2Proof.Machine

/-! ### What a verdict keeps -/

/-- The outcome of the last test, what is left of it, and the place of the automatic tests (11 R439, R440, R448). -/
def WardenSt.tests (w : WardenSt) : WardenSt :=
  { test := w.test, testVerdict := w.testVerdict, failId := w.failId, failUnit := w.failUnit, testPours := w.testPours
    testHold := w.testHold, stressDomains := w.stressDomains, autoAt := w.autoAt, autoLast := w.autoLast }

theorem WardenSt.kept_of_tests {α : Type} {v w : WardenSt} (h : v.tests = w.tests) (p : WardenSt → α)
    (own : ∀ x : WardenSt, p x.tests = p x := by exact fun _ => rfl) : p v = p w := by rw [← own v, h, own w]

/-- The same groups are owed a resume mark, and the tests stand as they did, unless one waits. -/
structure State.KeepsTests (s t : State) : Prop where
  owed : ∀ g, (t.group g).resumeDue = (s.group g).resumeDue
  tests : s.warden.test ≠ .waiting → t.warden.tests = s.warden.tests

namespace State.KeepsTests

theorem refl (s : State) : s.KeepsTests s := ⟨fun _ => rfl, fun _ => rfl⟩

theorem trans {s t u : State} (h : s.KeepsTests t) (k : t.KeepsTests u) : s.KeepsTests u where
  owed g := (k.owed g).trans (h.owed g)
  tests idle := by
    have same : t.warden.test = s.warden.test := WardenSt.kept_of_tests (h.tests idle) WardenSt.test
    exact (k.tests (same ▸ idle)).trans (h.tests idle)

theorem ite {c : Prop} [Decidable c] {s t u : State} (yes : s.KeepsTests t) (no : s.KeepsTests u) :
    s.KeepsTests (if c then t else u) := by
  split
  · exact yes
  · exact no

theorem ite_fst {α : Type} {c : Prop} [Decidable c] {s : State} {x y : State × α} (yes : s.KeepsTests x.1) (no : s.KeepsTests y.1) :
    s.KeepsTests (if c then x else y).1 := by
  split
  · exact yes
  · exact no

theorem foldl {α : Type} {f : State → α → State} (h : ∀ (t : State) a, t.KeepsTests (f t a)) (l : List α) (s : State) :
    s.KeepsTests (l.foldl f s) :=
  List.foldlRecOn (motive := fun t => s.KeepsTests t) l f (.refl s) fun t kept a _ => kept.trans (h t a)

/-- A change of other units. -/
theorem of_same {s t : State} (groups : t.groups = s.groups) (warden : t.warden = s.warden) : s.KeepsTests t :=
  ⟨fun g => by rw [State.group, groups, ← State.group], fun _ => by rw [warden]⟩

/-- A change of the warden that leaves the tests alone. -/
theorem of_warden {s t : State} (groups : t.groups = s.groups) (tests : t.warden.tests = s.warden.tests) : s.KeepsTests t :=
  ⟨fun g => by rw [State.group, groups, ← State.group], fun _ => tests⟩

theorem updWarden (s : State) {f : WardenSt → WardenSt} (tests : (f s.warden).tests = s.warden.tests) : s.KeepsTests (s.updWarden f) :=
  .of_warden rfl tests

theorem updGroup (s : State) (g : Nat) {f : GroupSt → GroupSt} (due : (f (s.group g)).resumeDue = (s.group g).resumeDue) :
    s.KeepsTests (s.updGroup g f) := ⟨State.group_updGroup_keeps due, fun _ => rfl⟩

end State.KeepsTests

/-! ### Early ends and halts (03 R130; 04 R172) -/

theorem unmark_keepsTests (s : State) (g : Nat) :
    s.KeepsTests (refreshTimer (s.updGroup g fun x => { x with marking := none, markOp := none }) g) :=
  (State.KeepsTests.updGroup s g rfl).trans ⟨group_refreshTimer GroupSt.resumeDue (fun _ _ => rfl) _ g, fun _ => rfl⟩

theorem endOp_keepsTests (s : State) (q c st : Nat) : s.KeepsTests (endOp s q c st) := by
  cases found : s.op? q c with
  | none => rw [endOp, found]; exact .refl s
  | some o =>
    cases past : s.past o
    case true => rw [endOp_past st found past]; exact .refl s
    case false =>
      cases ended : o.ended with
      | some old => rw [endOp_again st found past ended]; exact .of_same rfl rfl
      | none =>
        obtain ⟨torn, e⟩ := endOp_ends st found past ended
        have early : s.KeepsTests (endedEarly s q c st torn) := .of_same rfl rfl
        rw [e]
        exact (early.trans (.ite (unmark_keepsTests _ _) (.refl _))).trans (.of_same rfl rfl)

theorem endWhere_keepsTests (s : State) (p : Op → Bool) (st : Op → Nat) : s.KeepsTests (endWhere s p st) :=
  .foldl (fun t (o : Op) => endOp_keepsTests t o.q o.c (st o)) _ s

theorem haltGroup_keepsTests (s : State) (g cause : Nat) (st : Op → Nat) : s.KeepsTests (haltGroup s g cause st) := by
  unfold haltGroup
  extract_lets q done halted ended empty disabled
  have toHalted : s.KeepsTests halted := .updGroup s g rfl
  have toEnded : s.KeepsTests ended :=
    (toHalted.trans (t := halted) (u := halted.updSync fun y => { y with quietSince := none }) (.of_same rfl rfl)).trans
      (endWhere_keepsTests _ _ _)
  have toDisabled : s.KeepsTests disabled := toEnded.trans (.of_same rfl rfl)
  exact .ite (.refl s) (.ite toDisabled (toDisabled.trans (.of_same rfl rfl)))

theorem sendAll_keepsTests (s : State) (dests : List Nat) (b : Body) : s.KeepsTests (sendAll s dests b) := by
  obtain ⟨_, sent⟩ := sendAll_form s dests b
  rw [sent]
  exact .of_same rfl rfl

theorem writeDump_keepsTests (s : State) (reason group : Nat) : s.KeepsTests (writeDump s reason group).1 := by
  refine .ite_fst ?_ (.of_same rfl rfl)
  obtain ⟨_, written⟩ := enqueueWrite_form (s.updSync fun y => { y with dumpBusy := true }) 3 257 s.sync.dumpAddr
    (dumpBytes s reason group) siphonOf fun _ => .dump
  rw [written]
  exact .of_same rfl rfl

theorem haltOnFault_keepsTests (s : State) (g cause : Nat) (st : Op → Nat) : s.KeepsTests (haltOnFault s g cause st) := by
  have told : ∀ t : State, t.KeepsTests (sendHalt t g cause []) := fun t => .ite (sendAll_keepsTests t _ _) (.refl t)
  exact .ite (.refl s) ((((haltGroup_keepsTests s g cause st).trans (told _)).trans (writeDump_keepsTests _ 2 g)).trans
    (.of_same rfl rfl))

/-! ### The warden's state (11 R414, R425, R441) -/

theorem makeRecord_keepsTests (s : State) (r : FaultRecord) : s.KeepsTests (makeRecord s r) := by
  obtain ⟨_, _, made⟩ := makeRecord_stamped s r
  rw [made]
  exact .of_warden rfl rfl

theorem haltPumpless_keepsTests (s : State) (unit : Option Nat) : s.KeepsTests (haltPumpless s unit).1 :=
  .foldl (fun t g => (haltOnFault_keepsTests t g haltNoPump endHalted).trans (makeRecord_keepsTests _ _)) _ s

theorem WardenSt.compared_tests (w : WardenSt) (now target : Nat) : (w.compared now target).tests = w.tests := by
  unfold WardenSt.compared
  split
  · rfl
  split <;> rfl

/-- Only a test that waits may start. -/
theorem startWaitingTest_keepsTests (s : State) : s.KeepsTests (startWaitingTest s) where
  owed g := by
    obtain ⟨_, started, -⟩ := startWaitingTest_form s
    rw [started]
    rfl
  tests idle := by
    have kept : startWaitingTest s = s := if_neg (by simp [idle])
    rw [kept]

theorem refreshDraw_keepsTests (s : State) : s.KeepsTests (refreshDraw s) := by
  obtain ⟨_, _, drawn⟩ := refreshDraw_drawn s
  rw [drawn]
  exact .of_warden rfl rfl

theorem refreshVeng_keepsTests (s : State) : s.KeepsTests (refreshVeng s) := by
  rw [refreshVeng_eq]
  have compared : s.KeepsTests { s with warden := s.warden.compared s.now s.vengTarget.1 } :=
    .of_warden rfl (s.warden.compared_tests _ _)
  exact compared.trans ((startWaitingTest_keepsTests _).trans (refreshDraw_keepsTests _))

/-- Only a test that waits may be put off. -/
theorem deferTest_keepsTests (s : State) : s.KeepsTests (deferTest s) where
  owed g := by
    obtain ⟨_, _, _, _, _, deferred, -⟩ : s.PowersOnly (deferTest s) :=
      .ite (.trans (.updWarden s rfl rfl) ((endSurge_powersOnly _ 2).trans (refreshDraw_powersOnly _))) (.refl s)
    rw [deferred]
    rfl
  tests idle := by
    have kept : deferTest s = s := if_neg (by simp [idle])
    rw [kept]

/-! ### Verdicts (11 R420-R429) -/

theorem setEntry_keepsTests (s : State) (g i : Nat) (m : Member) : s.KeepsTests (s.setEntry g i m) := by
  refine .ite (.foldl (fun t x => ?_) _ s) (.of_same rfl rfl)
  exact .ite (.of_same rfl rfl) (.refl t)

theorem stageEvict_keepsTests (s : State) (g die : Nat) : s.KeepsTests (stageEvict s g die) := by
  obtain ⟨_, refreshed⟩ := refreshQuarantine_form
    ((s.activeEntries g die).foldl (fun s i => s.setEntry g i { s.member i with state := stEvict }) s)
  rw [stageEvict, refreshed]
  exact (State.KeepsTests.foldl (fun t i => setEntry_keepsTests t g i _) _ s).trans (.of_same rfl rfl)

theorem withdrawEngine_keepsTests (s : State) (type : Nat) : s.KeepsTests (withdrawEngine s type).1 := by
  have halted : s.KeepsTests (s.activeGroups.foldl (fun s g => haltOnFault s g haltFault endHalted) s) :=
    .foldl (fun t g => haltOnFault_keepsTests t g haltFault endHalted) _ s
  unfold withdrawEngine
  extract_lets gs halts evicted told recorded
  have toEvicted : s.KeepsTests evicted := halted.trans (.foldl (fun t g => stageEvict_keepsTests t g _) _ _)
  have toTold : s.KeepsTests told := toEvicted.trans (.foldl (fun t g => .ite (sendAll_keepsTests t _ _) (.refl t)) _ _)
  have toRecorded : s.KeepsTests recorded := toTold.trans (makeRecord_keepsTests _ _)
  have toWithdrawn : s.KeepsTests (recorded.updWarden fun w => { w with withdrawn := true }) := toRecorded.trans (.updWarden _ rfl)
  exact .ite_fst (.refl s) (.ite_fst halted toWithdrawn)

theorem fencePump_keepsTests (s : State) (p : Nat) : s.KeepsTests (fencePump s p).1 := by
  refine .ite_fst (.refl s) (.trans ?_ (haltPumpless_keepsTests _ _))
  exact .trans (.updWarden s rfl) (deferTest_keepsTests _)

theorem permanent_keepsTests (s : State) (unit type : Nat) : s.KeepsTests (permanent s unit type).1 := by
  refine .ite_fst (.refl s) (.ite_fst (fencePump_keepsTests s unit) (.ite_fst ?_ (withdrawEngine_keepsTests s type)))
  refine .ite_fst (.trans ?_ (withdrawEngine_keepsTests _ type)) ?_ <;> exact .of_warden rfl rfl

theorem voltStep_keepsTests (s : State) : s.KeepsTests (voltStep s) :=
  .trans (.updWarden s rfl) (refreshVeng_keepsTests _)

theorem ladder_keepsTests (s : State) (unit type : Nat) : s.KeepsTests (ladder s unit type).1 :=
  .ite_fst (.of_warden rfl rfl) (.ite_fst (voltStep_keepsTests s) (permanent_keepsTests s unit type))

theorem onVerdict_keepsTests (s : State) (unit type verdict : Nat) : s.KeepsTests (onVerdict s unit type verdict).1 := by
  have noted : s.KeepsTests (addSuspicion s unit).1 := .ite_fst (.of_warden rfl rfl) (.of_warden rfl rfl)
  exact .ite_fst (.ite_fst (noted.trans (ladder_keepsTests _ unit type)) noted) (.ite_fst (permanent_keepsTests s unit type)
    (.ite_fst (.ite_fst (voltStep_keepsTests s) (.refl s)) (.ite_fst (ladder_keepsTests s unit type) (.refl s))))

theorem noteRepeat_keepsTests (s : State) (g unit : Nat) (r : Repeats) (stress : Bool) : s.KeepsTests (noteRepeat s g unit r stress) := by
  unfold noteRepeat
  split
  · exact .refl s
  · split
    · exact .of_warden rfl rfl
    · exact .refl s

theorem judgeFault_keepsTests (s : State) (x : RepeatWork) (type : Nat) (rep : Repeats) (kept stress : Bool) :
    s.KeepsTests (judgeFault s x type rep kept stress).1 := by
  refine .trans (.ite (.refl s) ?_) (onVerdict_keepsTests _ _ _ _)
  exact (noteRepeat_keepsTests s x.group x.unit rep stress).trans (.of_warden rfl rfl)

theorem takeTestFail_keepsTests (s : State) (f : TestFail) (stress built : Bool) : s.KeepsTests (takeTestFail s f stress built) :=
  (judgeFault_keepsTests s _ _ _ _ _).trans (makeRecord_keepsTests _ _)

end Sys2Proof.Machine
end
section
/-! PROOFS. Tests that are requested, and their ends (11 R434, R436-R440, R448). -/

namespace Sys2Proof.Machine

/-! ### GO (11 R436, R439, R448) -/

/-- GO is bit 18 of TEST_CTRL, beside the fields that name the test. -/
theorem toNat_go (d : W64) : (d ||| 0x40000).toNat = d.toNat ||| 2 ^ 18 := BitVec.toNat_or ..

theorem bits_go (d : W64) : bits (d ||| 0x40000).toNat 0 16 = bits d.toNat 0 16 := by
  rw [toNat_go, bits, bits, Nat.shiftRight_zero, Nat.or_mod_two_pow]
  exact Nat.or_zero _

theorem bit_go {i : Nat} (other : 18 ≠ i) (d : W64) : bit (d ||| 0x40000).toNat i = bit d.toNat i := by
  rw [toNat_go, bit, bit, Nat.testBit_or, Nat.testBit_two_pow, decide_eq_false other, Bool.or_false]

theorem bit_go_eighteen (d : W64) : bit (d ||| 0x40000).toNat 18 = true := by
  rw [toNat_go, bit, Nat.testBit_or, Nat.testBit_two_pow_self, Bool.or_true]

/-- The state in which GO has named its test (11 R448). -/
def goWritten (s : State) (d : W64) : State := s.updWarden fun w => { w with
  testId := bits (d ||| 0x40000).toNat 0 16, testStress := bit (d ||| 0x40000).toNat 16
  testWhole := bit (d ||| 0x40000).toNat 17, testGroup := bits (d ||| 0x40000).toNat 20 12 }

theorem writeTestCtrl_busy {s : State} (busy : s.warden.testBusy = true) (d : W64) : writeTestCtrl s d = none := if_pos busy

theorem writeTestCtrl_go {s : State} (free : s.warden.testBusy = false) (d : W64) :
    writeTestCtrl s (d ||| 0x40000) = some (requestTest (goWritten s d)) := by
  rw [writeTestCtrl, if_neg (by simp [free])]
  exact congrArg some (if_pos (bit_go_eighteen d))

/-- A test that a GO has taken to a state, with no outcome yet. -/
def testSet (s : State) (t : TestState) : State :=
  s.updWarden fun w => { w with test := t, testDrains := false, testVerdict := 0, failId := 0, failUnit := 0 }

/-- 11 R448: no pour has the ID. -/
theorem requestTest_refused {s : State} (named : s.warden.testId ≠ 0xFFFF) (none : s.warden.poursOf s.warden.testId = []) :
    requestTest s = testSet s .refused := if_pos (by simp [named, none])

/-- 11 R436: a test on the spare without stress runs at once. -/
theorem requestTest_runs {s : State} (pours : s.warden.poursOf s.warden.testId ≠ [])
    (spare : s.warden.wholeTest s.warden.testId s.warden.testWhole = false) (calm : s.warden.testStress = false)
    (full : s.keeper.phase = .full) : requestTest s = (testSet s .running).updWarden fun w => { w with
      testPours := s.warden.poursOf s.warden.testId, testBytes := w.pourBytes, testIm := some s.image
      stressDomains := if w.testStress then [16] else [] } := by
  rw [requestTest, if_neg (by simp [pours, spare, full]), if_neg (by simp [spare])]
  exact if_neg (by simp [calm])

theorem exec_go_busy {s : State} {m : Mgmt} {d : W64} (may : State.MayWrite s m) (busy : s.warden.testBusy = true) :
    exec (.go m d) s = .next (State.answered s m 1 0) := by
  show finish s (mgmtWrite s m _) = _
  rw [mgmtWrite_rejected may (writeTestCtrl_busy busy _), finish_answered]

theorem exec_go_free {s : State} {m : Mgmt} (may : State.MayWrite s m) (free : s.warden.testBusy = false) (d : W64) :
    exec (.go m d) s = .next (State.accepted s m (requestTest (goWritten s d))) :=
  mgmtWrite_accepted may (writeTestCtrl_go free d)

theorem exec_go_refused {s : State} {m : Mgmt} {d : W64} (may : State.MayWrite s m) (free : s.warden.testBusy = false)
    (none : s.warden.pours = []) (named : bits d.toNat 0 16 ≠ 0xFFFF) : ∃ t, exec (.go m d) s = .next t ∧
      t.warden.test = .refused ∧ t.warden.testId = bits d.toNat 0 16 ∧ t.ops = s.ops := by
  have id : (goWritten s d).warden.testId = bits d.toNat 0 16 := bits_go d
  have pours : (goWritten s d).warden.pours = [] := none
  have run := exec_go_free may free d
  rw [requestTest_refused (by rw [id]; exact named) (by simp [WardenSt.poursOf, pours])] at run
  refine ⟨_, run, ?_⟩
  rw [State.accepted_warden, State.accepted_ops]
  exact ⟨rfl, id, rfl⟩

theorem exec_go_runs {s : State} {m : Mgmt} {d : W64} {y : PourRec} (may : State.MayWrite s m) (free : s.warden.testBusy = false)
    (pours : s.warden.pours = [y]) (pump : y.target = 0) (named : y.id = bits d.toNat 0 16) (one : bits d.toNat 0 16 < 0xFFFE)
    (calm : bit d.toNat 16 = false) (part : bit d.toNat 17 = false) (full : s.keeper.phase = .full)
    (idle : s.warden.spareIn = none) (sound : 16 ∉ s.warden.fenced) : ∃ t, exec (.go m d) s = .next t ∧
      t.warden.test = .running ∧ t.warden.testPours = [y] ∧ t.warden.testHold = s.warden.testHold ∧
      t.warden.log = s.warden.log ∧ t.ops = s.ops := by
  have id : (goWritten s d).warden.testId = y.id := (bits_go d).trans named.symm
  have stress : (goWritten s d).warden.testStress = false := (bit_go (by decide) d).trans calm
  have whole : (goWritten s d).warden.testWhole = false := (bit_go (by decide) d).trans part
  have listed : (goWritten s d).warden.pours = [y] := pours
  have stands : (goWritten s d).warden.spareIn = none := idle
  have runs : 16 ∉ (goWritten s d).warden.fenced := sound
  have single : y.id ≠ 0xFFFE ∧ y.id ≠ 0xFFFF := by omega
  have found : (goWritten s d).warden.poursOf (goWritten s d).warden.testId = [y] := by
    simp [WardenSt.poursOf, id, single, listed]
  have spare : (goWritten s d).warden.wholeTest (goWritten s d).warden.testId (goWritten s d).warden.testWhole = false := by
    rw [WardenSt.wholeTest, found, whole, id]
    simp [single, pump, stands, runs]
  have run := exec_go_free may free d
  rw [requestTest_runs (by simp [found]) spare stress full] at run
  refine ⟨_, run, ?_⟩
  rw [State.accepted_warden, State.accepted_ops]
  refine ⟨rfl, found, ?_, ?_, ?_⟩ <;> dsimp only [State.updWarden, testSet, goWritten]

/-! ### The end of a test (11 R432, R439) -/

/-- What a test leaves behind once it has ended (11 R437, R438). -/
def testCleared (s : State) : State := s.updWarden fun w => { w with
  testHold := false, wholeStress := false, stressDomains := [], testPours := [], testBytes := [], testIm := none }

/-- The state in which a test has failed, with its first failure. -/
def testFailed (s : State) (f : TestFail) (stress : Bool) : State := s.updWarden fun w => { w with
  test := .fail, testVerdict := s.verdictOf f.unit f.rep true stress, failId := f.pour, failUnit := f.unit }

/-- The failures that the running test found. -/
def State.found (s : State) (fails : List TestFail) : List TestFail :=
  s.testFails s.warden.testPours s.warden.testBytes (s.warden.testId == 0xFFFF) s.warden.testHold fails

/-- The state in which the built-in test has taken its patterns, and a test of the cisterns has left no line in the read cache. -/
def testUsed (s : State) : State :=
  let t := if s.warden.testId == 0xFFFF then (timingDraw s 3).1 else s
  if s.warden.testId == 0xFFFF || s.warden.testPours.any (fun p => p.target == 2) then t.updCache fun c => { c with lines := [] } else t

theorem testUsed_form (s : State) : ∃ num cache, testUsed s = { s with num, cache } := by
  have drawn : ∃ num, (if s.warden.testId == 0xFFFF then (timingDraw s 3).1 else s) = { s with num } := by
    split <;> exact ⟨_, rfl⟩
  obtain ⟨num, drawn⟩ := drawn
  unfold testUsed
  rw [drawn]
  dsimp only
  split
  · exact ⟨num, _, rfl⟩
  · exact ⟨num, s.cache, rfl⟩

theorem endTest_pass {s : State} {fails : List TestFail} (none : s.found fails = []) (stress : Bool) :
    endTest s fails stress = refreshVeng (testCleared ((testUsed s).updWarden fun w => { w with test := .pass })) := by
  show refreshVeng (testCleared ((s.found fails).foldl _ ((testUsed s).updWarden fun w => match s.found fails with
    | [] => _
    | f :: _ => _))) = _
  rw [none]
  rfl

theorem endTest_fail {s : State} {fails : List TestFail} {f : TestFail} {rest : List TestFail} (some_ : s.found fails = f :: rest)
    (stress : Bool) : endTest s fails stress = refreshVeng (testCleared ((f :: rest).foldl
      (fun s f => takeTestFail s f stress (f.pour == 0xFFFF)) (testFailed (testUsed s) f stress))) := by
  show refreshVeng (testCleared ((s.found fails).foldl _ ((testUsed s).updWarden fun w => match s.found fails with
    | [] => _
    | f :: _ => _))) = _
  rw [some_]
  rfl

theorem endTest_passes {s : State} {fails : List TestFail} (none : s.found fails = []) (stress : Bool) :
    (endTest s fails stress).warden.test = .pass ∧ (endTest s fails stress).warden.testHold = false ∧
      (endTest s fails stress).warden.stressDomains = [] ∧ (endTest s fails stress).warden.log = s.warden.log ∧
      (endTest s fails stress).groups = s.groups := by
  obtain ⟨_, _, used⟩ := testUsed_form s
  have log := refreshVeng_log (testCleared ((testUsed s).updWarden fun w => { w with test := .pass }))
  have tests := (refreshVeng_keepsTests (testCleared ((testUsed s).updWarden fun w => { w with test := .pass }))).tests
    (show TestState.pass ≠ .waiting by decide)
  obtain ⟨_, followed, -⟩ := refreshVeng_form (testCleared ((testUsed s).updWarden fun w => { w with test := .pass }))
  rw [endTest_pass none]
  refine ⟨WardenSt.kept_of_tests tests WardenSt.test, WardenSt.kept_of_tests tests WardenSt.testHold,
    WardenSt.kept_of_tests tests WardenSt.stressDomains, log.trans ?_, ?_⟩
  · rw [used]; rfl
  · rw [followed, used]; rfl

/-- The outcome of a test that failed is that of its first failure, whatever is then done about it and the others (11 R439). -/
theorem endTest_fails {s : State} {fails : List TestFail} {f : TestFail} {rest : List TestFail} (some_ : s.found fails = f :: rest)
    (stress : Bool) : (endTest s fails stress).warden.tests =
        (testCleared (testFailed s f stress)).warden.tests ∧
      ∀ g, ((endTest s fails stress).group g).resumeDue = (s.group g).resumeDue := by
  obtain ⟨_, _, used⟩ := testUsed_form s
  have taken : (testFailed (testUsed s) f stress).KeepsTests ((f :: rest).foldl
      (fun s f => takeTestFail s f stress (f.pour == 0xFFFF)) (testFailed (testUsed s) f stress)) :=
    .foldl (fun t f => takeTestFail_keepsTests t f stress _) _ _
  have outcome := taken.tests (show TestState.fail ≠ .waiting by decide)
  have ended : (testCleared ((f :: rest).foldl (fun s f => takeTestFail s f stress (f.pour == 0xFFFF))
      (testFailed (testUsed s) f stress))).warden.tests = (testCleared (testFailed s f stress)).warden.tests := by
    have cleared : ∀ u : State, (testCleared u).warden.tests =
      { u.warden.tests with testHold := false, stressDomains := [], testPours := [] } := fun _ => rfl
    rw [cleared, outcome, used, cleared]
    rfl
  have test := WardenSt.kept_of_tests ended WardenSt.test
  have settled := refreshVeng_keepsTests (testCleared ((f :: rest).foldl
    (fun s f => takeTestFail s f stress (f.pour == 0xFFFF)) (testFailed (testUsed s) f stress)))
  rw [endTest_fail some_]
  refine ⟨(settled.tests ?_).trans ended, fun g => (settled.owed g).trans ((taken.owed g).trans ?_)⟩
  · rw [test]; exact (show TestState.fail ≠ .waiting by decide)
  · rw [used]; rfl

/-! ### TEST_COMPLETE and WHOLE_ENGINE_TEST (11 R438, R439) -/

/-- A test of sound failures that may end ends. -/
theorem exec_testComplete_ends {s : State} {fails : List TestFail} (wf : fails.all TestFail.wf = true)
    (running : s.warden.test = .running) (spare : s.warden.testHold = false) :
    exec (.testComplete fails) s = .next (State.plain s (raiseDue (endTest s fails s.warden.testStress))) := by
  show checked _ _ (finishPlain s (if _ then _ else _)) = _
  rw [wf, checked_true, if_pos (by simp [running, spare]), finishPlain_eq]

theorem exec_testComplete_not {s : State} {fails : List TestFail} (wf : fails.all TestFail.wf = true)
    (why : s.warden.test ≠ .running ∨ s.warden.testHold = true) : exec (.testComplete fails) s = .next s := by
  show checked _ _ (finishPlain s (if _ then _ else _)) = _
  rw [wf, checked_true, if_neg]
  · rfl
  · rcases why with h | h <;> simp [h]

theorem exec_wholeEngineTest_ends {s : State} {fails : List TestFail} (wf : fails.all TestFail.wf = true)
    (hold : s.warden.testHold = true) (drained : s.started = []) (still : s.img.swapping = none)
    (settled : s.warden.wholeStress = true → s.settledVeng = true) :
    exec (.wholeEngineTest fails) s = .next (State.plain s (raiseDue (endTest s fails s.warden.wholeStress))) := by
  have rail : (!s.warden.wholeStress || s.settledVeng) = true := by
    cases stress : s.warden.wholeStress
    · rfl
    · exact settled stress
  show checked _ _ (finishPlain s (if _ then _ else _)) = _
  rw [wf, checked_true, if_pos (by simp [hold, drained, still, rail]), finishPlain_eq]

theorem exec_wholeEngineTest_not {s : State} {fails : List TestFail} (wf : fails.all TestFail.wf = true)
    (why : s.warden.testHold = false ∨ s.started ≠ [] ∨ s.img.swapping ≠ none) : exec (.wholeEngineTest fails) s = .next s := by
  show checked _ _ (finishPlain s (if _ then _ else _)) = _
  rw [wf, checked_true, if_neg]
  · rfl
  · rcases why with h | h | h <;> simp [h]

section
variable {s : State} (owed : ∀ g, (s.group g).resumeDue = false) {fails : List TestFail} (stress : Bool)
include owed

theorem raiseDue_endTest_pass (none : s.found fails = []) : raiseDue (endTest s fails stress) = endTest s fails stress := by
  obtain ⟨-, -, -, -, groups⟩ := endTest_passes none stress
  exact raiseDue_of_none fun g => by rw [State.group, groups]; exact owed g

theorem raiseDue_endTest_fail {f : TestFail} {rest : List TestFail} (some_ : s.found fails = f :: rest) :
    raiseDue (endTest s fails stress) = endTest s fails stress :=
  raiseDue_of_none fun g => ((endTest_fails some_ stress).2 g).trans (owed g)

end

/-! ### The automatic tests (11 R440) -/

/-- The state in which the turn of an automatic test has been noted. -/
def autoNoted (s : State) (id : Nat) : State := s.updWarden fun w => { w with autoAt := s.now, autoLast := some id }

/-- An automatic test may run now. -/
structure State.AutoDue (s : State) : Prop where
  en : s.warden.testAutoEn = true
  due : s.warden.autoAt + s.warden.testInterval * 100000000 ≤ s.now
  free : s.warden.testBusy = false
  idle : s.warden.spareIn = none
  sound : 16 ∉ s.warden.fenced
  settled : s.settledVeng = true

theorem exec_testAuto_not {s : State} {fails : List TestFail} (wf : fails.all TestFail.wf = true) (off : s.warden.testAutoEn = false) :
    exec (.testAuto fails) s = .next s := by
  show checked _ _ (finishPlain s (if _ then _ else _)) = _
  rw [wf, checked_true, if_neg (by simp [off])]
  rfl

theorem exec_testAuto_none {s : State} {fails : List TestFail} (wf : fails.all TestFail.wf = true) (h : s.AutoDue)
    (none : s.warden.nextPour = none) :
    exec (.testAuto fails) s = .next { s with warden := { s.warden with autoAt := s.now } } := by
  show checked _ _ (finishPlain s (if _ then _ else _)) = _
  rw [wf, checked_true, if_pos (by simp [h.en, h.due, h.free, h.idle, h.sound, h.settled]), none]
  rfl

/-- The failures of the pours of an automatic test. -/
def State.autoFound (s : State) (id : Nat) (fails : List TestFail) : List TestFail :=
  s.testFails (s.warden.poursOf id) s.warden.pourBytes false false (fails.map fun f => { f with pour := id })

theorem exec_testAuto_next {s : State} {fails : List TestFail} {id : Nat} (wf : fails.all TestFail.wf = true) (h : s.AutoDue)
    (next : s.warden.nextPour = some id) : exec (.testAuto fails) s = .next (State.plain s (raiseDue
      ((s.autoFound id fails).foldl (fun s f => takeTestFail s f true false) (autoNoted s id)))) := by
  show checked _ _ (finishPlain s (if _ then _ else _)) = _
  rw [wf, checked_true, if_pos (by simp [h.en, h.due, h.free, h.idle, h.sound, h.settled]), next]
  rfl

theorem exec_testAuto_runs {s : State} {fails : List TestFail} {id : Nat} (owed : ∀ g, (s.group g).resumeDue = false)
    (wf : fails.all TestFail.wf = true) (h : s.AutoDue) (next : s.warden.nextPour = some id) : ∃ t,
      exec (.testAuto fails) s = .next t ∧ t.warden.autoLast = some id ∧ t.warden.autoAt = s.now ∧
        (s.autoFound id fails = [] → t = { s with warden := { s.warden with autoAt := s.now, autoLast := some id } }) := by
  have idle : s.warden.test ≠ .waiting := fun waits => by simpa [WardenSt.testBusy, waits] using h.free
  have taken : (autoNoted s id).KeepsTests
      ((s.autoFound id fails).foldl (fun s f => takeTestFail s f true false) (autoNoted s id)) :=
    .foldl (fun t f => takeTestFail_keepsTests t f true false) _ _
  have run := exec_testAuto_next wf h next
  rw [raiseDue_of_none fun g => (taken.owed g).trans (owed g)] at run
  refine ⟨_, run, WardenSt.kept_of_tests (taken.tests idle) WardenSt.autoLast,
    WardenSt.kept_of_tests (taken.tests idle) WardenSt.autoAt, fun clean => ?_⟩
  rw [clean]
  rfl

/-- Settles O50: GO through the gate of writes; a test ends with the outcome of what it found, which the verdicts on its failures keep; and
an automatic test notes its turn, whatever it finds. -/
theorem testsRunAndEnd : Obligations.TestsRunAndEnd := by
  unfold Obligations.TestsRunAndEnd
  intro s owed
  refine ⟨fun m d may => ⟨exec_go_busy may, exec_go_refused may, fun y => exec_go_runs may⟩, fun fails wf found is => ?_⟩
  obtain rfl : found = s.found fails := is
  refine ⟨fun running spare => ⟨fun none => ?pass, fun f rest some_ => ?fail⟩, exec_testComplete_not wf,
    fun hold drained still settled => ⟨fun none => ?wholePass, fun f rest some_ => ?wholeFail⟩, exec_wholeEngineTest_not wf,
    exec_testAuto_not wf, fun en due free idle sound settled => ⟨exec_testAuto_none wf ⟨en, due, free, idle, sound, settled⟩,
      fun id => exec_testAuto_runs owed wf ⟨en, due, free, idle, sound, settled⟩⟩⟩
  case pass =>
    have run := exec_testComplete_ends wf running spare
    obtain ⟨test, -, domains, log, groups⟩ := endTest_passes none s.warden.testStress
    rw [raiseDue_endTest_pass owed _ none] at run
    exact ⟨_, run, test, domains, log, groups⟩
  case fail =>
    have run := exec_testComplete_ends wf running spare
    obtain ⟨tests, -⟩ := endTest_fails some_ s.warden.testStress
    rw [raiseDue_endTest_fail owed _ some_] at run
    refine ⟨_, run, WardenSt.kept_of_tests tests WardenSt.test, WardenSt.kept_of_tests tests WardenSt.failId,
      WardenSt.kept_of_tests tests WardenSt.failUnit, (WardenSt.kept_of_tests tests WardenSt.testVerdict).trans ?_,
      WardenSt.kept_of_tests tests WardenSt.testPours⟩
    show s.verdictOf f.unit f.rep true s.warden.testStress = _
    simp [State.verdictOf, vNotRepeatable]
  case wholePass =>
    have run := exec_wholeEngineTest_ends wf hold drained still settled
    obtain ⟨test, held, -, log, -⟩ := endTest_passes none s.warden.wholeStress
    rw [raiseDue_endTest_pass owed _ none] at run
    exact ⟨_, run, test, held, log⟩
  case wholeFail =>
    have run := exec_wholeEngineTest_ends wf hold drained still settled
    obtain ⟨tests, -⟩ := endTest_fails some_ s.warden.wholeStress
    rw [raiseDue_endTest_fail owed _ some_] at run
    exact ⟨_, run, WardenSt.kept_of_tests tests WardenSt.test, WardenSt.kept_of_tests tests WardenSt.failId,
      WardenSt.kept_of_tests tests WardenSt.failUnit, WardenSt.kept_of_tests tests WardenSt.testHold⟩

end Sys2Proof.Machine
end
section
/-! PROOFS. The link ports (12 R459-R478, R487): what a port sends, which leaves its training as it is, and the states that its training
goes through. -/

namespace Sys2Proof.Machine

/-! ### A port after an update -/

@[simp] theorem State.link_updLink_same (s : State) (n : Nat) (f : LinkSt → LinkSt) : (s.updLink n f).link n = f (s.link n) :=
  State.link_setLink s n _

theorem State.link_updLink_other (s : State) {n k : Nat} (f : LinkSt → LinkSt) (h : k ≠ n) : (s.updLink n f).link k = s.link k :=
  State.link_setLink_other s _ h

theorem State.link_congr {s t : State} (h : t.links = s.links) (k : Nat) : t.link k = s.link k := by
  rw [State.link, State.link, h]

@[simp] theorem State.plain_link (s t : State) (k : Nat) : (State.plain s t).link k = t.link k := rfl

@[simp] theorem State.accepted_links (s t : State) (m : Mgmt) : (State.accepted s m t).links = t.links := by
  unfold State.accepted; split <;> rfl

@[simp] theorem State.accepted_link (s t : State) (m : Mgmt) (k : Nat) : (State.accepted s m t).link k = t.link k :=
  State.link_congr (State.accepted_links s t m) k

/-- A fact that an update of a port keeps holds of every port afterwards. -/
theorem State.link_updLink_keeps {β : Type} {s : State} {n : Nat} {f : LinkSt → LinkSt} {p : LinkSt → β}
    (keep : p (f (s.link n)) = p (s.link n)) (k : Nat) : p ((s.updLink n f).link k) = p (s.link k) := by
  by_cases e : k = n
  · rw [e, State.link_updLink_same, keep]
  · rw [State.link_updLink_other s f e]

/-- A record of a port event concerns no port. -/
theorem linkRecord_form (s : State) (n event s2 : Nat) : ∃ siphons warden, linkRecord s n event s2 = { s with siphons, warden } := by
  obtain ⟨_, _, _, -, made⟩ := makeRecord_form s _
  exact ⟨_, _, made⟩

@[simp] theorem linkRecord_links (s : State) (n event s2 : Nat) : (linkRecord s n event s2).links = s.links := by
  obtain ⟨_, _, made⟩ := linkRecord_form s n event s2
  rw [made]

@[simp] theorem linkRecord_link (s : State) (n event s2 k : Nat) : (linkRecord s n event s2).link k = s.link k :=
  State.link_congr (linkRecord_links s n event s2) k

@[simp] theorem refreshPhase_link (s : State) (k : Nat) : (refreshPhase s).link k = s.link k := by
  obtain ⟨_, same⟩ := refreshPhase_form s
  rw [same]
  rfl

/-! ### What sending leaves (12 R462-R466) -/

/-- A port but for the credits that it gives back. -/
def LinkSt.uncredited (l : LinkSt) : LinkSt := { l with credGiven := [] }

/-- A port but for its traffic: what its training, its peer and its receiver have made of it. -/
def LinkSt.standing (l : LinkSt) : LinkSt := { l.uncredited with
  queue := [], kept := [], again := [], line := [], slots := 0, dataRun := 0, turn := [], seqNext := 0, sent := none, credUsed := []
  dropped := 0 }

theorem LinkSt.standing_of_uncredited {l m : LinkSt} (h : m.uncredited = l.uncredited) : m.standing = l.standing := by
  unfold LinkSt.standing
  rw [h]

/-- What `standing` keeps can be read off it. -/
theorem LinkSt.kept_of_standing {α : Type} {l m : LinkSt} (h : m.standing = l.standing) (p : LinkSt → α)
    (reads : ∀ x : LinkSt, p x.standing = p x := by intro _; rfl) : p m = p l := by
  rw [← reads m, h, reads]

theorem LinkSt.kept_of_uncredited {α : Type} {l m : LinkSt} (h : m.uncredited = l.uncredited) (p : LinkSt → α)
    (reads : ∀ x : LinkSt, p x.uncredited = p x := by intro _; rfl) : p m = p l := by
  rw [← reads m, h, reads]

theorem sendOne_standing {port : Nat} {l m : LinkSt} (h : sendOne port l = some m) : m.standing = l.standing := by
  unfold sendOne at h
  extract_lets order at h
  split at h
  · cases h
  split at h
  · cases h; rfl
  split at h
  · cases h; rfl
  split at h
  · cases h
  split at h <;> cases h
  rfl

theorem drain_standing (port fuel : Nat) (l : LinkSt) : (drain port fuel l).standing = l.standing := by
  induction fuel generalizing l with
  | zero => rfl
  | succ fuel ih =>
    unfold drain
    split
    next => rfl
    next sends => exact (ih _).trans (sendOne_standing sends)

theorem giveCredit_uncredited (s : State) (n vc c k : Nat) : ((giveCredit s n vc c).link k).uncredited = (s.link k).uncredited := by
  unfold giveCredit
  split
  · rfl
  · exact State.link_updLink_keeps (p := LinkSt.uncredited) rfl k

theorem creditsBack_uncredited (s : State) (old new : LinkSt) (k : Nat) :
    ((creditsBack s old new).link k).uncredited = (s.link k).uncredited := by
  unfold creditsBack
  refine List.foldlRecOn (motive := fun t : State => (t.link k).uncredited = (s.link k).uncredited) _ _ rfl fun t kept y _ => ?_
  exact (giveCredit_uncredited t y.1 y.2 _ k).trans kept

/-- What a port can send as it stands. -/
def State.drained (s : State) (n : Nat) : LinkSt :=
  drain n (2 * (((s.link n).queue.map fun x => bodyFlits x.msg.body).sum + (s.link n).again.length) + 2) (s.link n)

theorem drainPort_eq (s : State) (n : Nat) :
    drainPort s n = creditsBack (s.setLink n (s.drained n)) (s.link n) (s.drained n) := rfl

theorem drainPort_uncredited (s : State) (n : Nat) : ((drainPort s n).link n).uncredited = (s.drained n).uncredited := by
  rw [drainPort_eq, creditsBack_uncredited, State.link_setLink]

theorem drainPort_uncredited_other (s : State) {n k : Nat} (h : k ≠ n) :
    ((drainPort s n).link k).uncredited = (s.link k).uncredited := by
  rw [drainPort_eq, creditsBack_uncredited, State.link_setLink_other _ _ h]

theorem drainPort_standing (s : State) (n k : Nat) : ((drainPort s n).link k).standing = (s.link k).standing := by
  by_cases e : k = n
  · rw [e, LinkSt.standing_of_uncredited (drainPort_uncredited s n)]
    exact drain_standing _ _ _
  · exact LinkSt.standing_of_uncredited (drainPort_uncredited_other s e)

/-- Ports that have only sent and received traffic. -/
def State.SamePorts (s t : State) : Prop := ∀ k, (t.link k).standing = (s.link k).standing

theorem State.SamePorts.refl (s : State) : s.SamePorts s := fun _ => rfl

theorem State.SamePorts.trans {s t u : State} (h : s.SamePorts t) (k : t.SamePorts u) : s.SamePorts u :=
  fun n => (k n).trans (h n)

theorem State.samePorts_updLink (s : State) (n : Nat) {f : LinkSt → LinkSt} (same : (f (s.link n)).standing = (s.link n).standing) :
    s.SamePorts (s.updLink n f) := State.link_updLink_keeps same

theorem State.samePorts_foldl {α : Type} {f : State → α → State} (h : ∀ (t : State) a, t.SamePorts (f t a)) (l : List α)
    (s : State) :
    s.SamePorts (l.foldl f s) :=
  List.foldlRecOn (motive := fun t => s.SamePorts t) l f (.refl s) fun t kept a _ => kept.trans (h t a)

theorem drainPort_samePorts (s : State) (n : Nat) : s.SamePorts (drainPort s n) := drainPort_standing s n

theorem giveCredit_samePorts (s : State) (n vc c : Nat) : s.SamePorts (giveCredit s n vc c) :=
  fun k => LinkSt.standing_of_uncredited (giveCredit_uncredited s n vc c k)

theorem finishPart_samePorts (s : State) (n vc : Nat) (bs : List Byte) : s.SamePorts (finishPart s n vc bs) := by
  unfold finishPart
  split
  next p _ => exact .trans (s.samePorts_updLink p rfl) (drainPort_samePorts _ p)
  next => exact .refl s

/-- The messages of an input that wait at a port hold its credits no longer. -/
def LinkSt.disowned (n : Nat) (l : LinkSt) : LinkSt :=
  { l with queue := mapIf (fun x => x.src == n + 1) (fun x => { x with owed := false }) l.queue }

theorem LinkSt.disowned_standing (n : Nat) (l : LinkSt) : (l.disowned n).standing = l.standing := rfl

/-- Every port without the credits that an input's messages hold there. -/
def disownAll (s : State) (n : Nat) : State := (List.range 8).foldl (fun s p => s.updLink p (LinkSt.disowned n)) s

theorem disown_form (s : State) (n : Nat) : ∃ net, disown s n = { disownAll s n with net } := ⟨_, rfl⟩

theorem disown_links (s : State) (n : Nat) : (disown s n).links = (disownAll s n).links := by
  obtain ⟨_, disowned⟩ := disown_form s n
  rw [disowned]

theorem disownAll_samePorts (s : State) (n : Nat) : s.SamePorts (disownAll s n) :=
  State.samePorts_foldl (fun t p => t.samePorts_updLink p (LinkSt.disowned_standing n _)) _ s

theorem disown_samePorts (s : State) (n : Nat) : s.SamePorts (disown s n) := fun k =>
  (congrArg LinkSt.standing (State.link_congr (disown_links s n) k)).trans (disownAll_samePorts s n k)

/-! ### Floods (12 R469) -/

/-- Package ports, each with its message put into its queue, send what they can. -/
def floodPort (m : Msg) (but : Option Nat) (s : State) (p : Nat) : State :=
  drainPort (s.updLink p fun l => { l with queue := l.queue ++ [{ src := (but.map (· + 1)).getD 0, idx := 0, msg := m }] }) p

theorem floodOn_eq (s : State) (m : Msg) (but : Option Nat) : floodOn s m but =
    ([0, 1, 2, 3].filter fun p => some p != but && (s.link p).carries).foldl (floodPort m but) s := rfl

theorem floodPort_form (m : Msg) (but : Option Nat) (s : State) (p : Nat) : ∃ links, floodPort m but s p = { s with links } :=
  drainPort_form (s.updLink p _) p

theorem floodPort_samePorts (m : Msg) (but : Option Nat) (s : State) (p : Nat) : s.SamePorts (floodPort m but s p) :=
  .trans (s.samePorts_updLink p rfl) (drainPort_samePorts _ p)

theorem floodOn_form (s : State) (m : Msg) (but : Option Nat) : ∃ links, floodOn s m but = { s with links } := by
  rw [floodOn_eq]
  refine List.foldlRecOn (motive := fun t : State => ∃ links, t = { s with links }) _ _ ⟨s.links, rfl⟩ ?_
  rintro _ ⟨_, rfl⟩ p _
  exact floodPort_form m but _ p

theorem floodOn_samePorts (s : State) (m : Msg) (but : Option Nat) : s.SamePorts (floodOn s m but) :=
  State.samePorts_foldl (floodPort_samePorts m but) _ s

/-- A port that does not carry takes no flood. -/
theorem floodOn_idle (s : State) (m : Msg) (but : Option Nat) {n : Nat} (idle : (s.link n).carries = false) :
    ((floodOn s m but).link n).uncredited = (s.link n).uncredited := by
  rw [floodOn_eq]
  refine List.foldlRecOn (motive := fun t : State => (t.link n).uncredited = (s.link n).uncredited) _ _ rfl fun t kept p mem => ?_
  have other : n ≠ p := by
    rintro rfl
    simp [idle] at mem
  exact (drainPort_uncredited_other _ other).trans ((congrArg _ (State.link_updLink_other t _ other)).trans kept)

/-- The flood of a port of this die that has come up or gone down leaves the ports' training. -/
theorem tellState_samePorts (s : State) (n : Nat) (up : Bool) : s.SamePorts (tellState s n up) := by
  unfold tellState
  split
  · exact floodOn_samePorts _ _ _
  · exact .refl s

theorem tellState_idle (s : State) {n : Nat} (up : Bool) (idle : (s.link n).carries = false) :
    ((tellState s n up).link n).uncredited = (s.link n).uncredited := by
  unfold tellState
  split
  · exact floodOn_idle _ _ _ idle
  · rfl

/-! ### A port that stops carrying (12 R477) -/

theorem cutInput_standing (s : State) (n k : Nat) :
    ((cutInput s n).link k).standing = if k = n then { (s.link n).standing with rxParts := [] } else (s.link k).standing := by
  have ends : s.SamePorts ((s.link n).rxParts.foldl (fun s y => if y.2.isEmpty then s else finishPart s n y.1 y.2) (disown s n)) := by
    refine (disown_samePorts s n).trans (State.samePorts_foldl (fun t y => ?_) _ _)
    split
    · exact .refl t
    · exact finishPart_samePorts t n y.1 y.2
  unfold cutInput
  split
  next e =>
    subst e
    rw [State.link_updLink_same]
    exact congrArg (fun l : LinkSt => { l with rxParts := [] }) (ends k)
  next other =>
    rw [State.link_updLink_other _ _ other]
    exact ends k

/-- A port but for its traffic and the parts of messages that it has received. -/
def LinkSt.training (l : LinkSt) : LinkSt := { l.standing with rxParts := [] }

theorem LinkSt.kept_of_training {α : Type} {l m : LinkSt} (h : m.training = l.training) (p : LinkSt → α)
    (reads : ∀ x : LinkSt, p x.training = p x := by intro _; rfl) : p m = p l := by
  rw [← reads m, h, reads]

theorem cutInput_training (s : State) (n k : Nat) : ((cutInput s n).link k).training = (s.link k).training := by
  unfold LinkSt.training
  rw [cutInput_standing]
  split
  next e => rw [e]
  next => rfl

/-- What a port that has stopped carrying shows. -/
structure LinkSt.Fallen (l m : LinkSt) (st : PortState) : Prop where
  state : m.state = st
  kept : m.kept = []
  queue : m.queue = []
  downCause : m.downCause = l.downCause
  en : m.en = l.en

theorem fallPort_fallen (s : State) (n : Nat) {st : PortState} (idle : st = .down ∨ st = .disabled) :
    (s.link n).Fallen ((fallPort s n st).link n) st := by
  have falls : ((fallPort s n st).link n).uncredited = ({ ((cutInput s n).link n).fall with state := st } : LinkSt).uncredited := by
    have back := creditsBack_uncredited ((cutInput s n).setLink n { ((cutInput s n).link n).fall with state := st })
      ((cutInput s n).link n) ((cutInput s n).link n).fall n
    rw [State.link_setLink] at back
    refine (congrArg _ (refreshPhase_link _ n)).trans ((tellState_idle _ false ?_).trans back)
    have state := LinkSt.kept_of_uncredited back LinkSt.state
    rcases idle with rfl | rfl <;> simp [LinkSt.carries, state]
  have cut := cutInput_training s n n
  exact ⟨LinkSt.kept_of_uncredited falls LinkSt.state, LinkSt.kept_of_uncredited falls LinkSt.kept,
    LinkSt.kept_of_uncredited falls LinkSt.queue,
    (LinkSt.kept_of_uncredited falls LinkSt.downCause).trans (LinkSt.kept_of_training cut LinkSt.downCause),
    (LinkSt.kept_of_uncredited falls LinkSt.en).trans (LinkSt.kept_of_training cut LinkSt.en)⟩

/-- 12 R473, R477: a port that goes down shows why, and keeps nothing that it was sending. -/
theorem goDown_down (s : State) (n cause : Nat) : ((goDown s n cause).link n).state = .down ∧
    ((goDown s n cause).link n).downCause = cause ∧ ((goDown s n cause).link n).kept = [] := by
  obtain ⟨state, kept, -, downCause, -⟩ := fallPort_fallen (linkRecord (s.updLink n fun l => { l with downCause := cause }) n 2 cause) n
    (st := .down) (.inl rfl)
  rw [linkRecord_link, State.link_updLink_same] at downCause
  exact ⟨state, downCause, kept⟩

/-! ### Ports that begin to train (12 R473) -/

/-- A port that has left WAIT_PHY stays as it is. -/
theorem wakePort_awake {s : State} {n : Nat} (on : (s.link n).state ≠ .disabled) (shown : (s.link n).state ≠ .waitPhy) :
    wakePort s n = s := by
  simp [wakePort, on, shown]

theorem wakePort_waits {s : State} {n : Nat} (waits : (s.link n).state = .waitPhy) (ready : (s.link n).ready ≠ 0) :
    wakePort s n = enterTrain s n := by
  simp [wakePort, waits, ready]

theorem exec_phyReady (n : Fin 8) (mask : Fin 16) (s : State) :
    exec (.phyReady n mask) s = .next (State.plain s (showReady s n mask)) := finishPlain_eq s (showReady s n mask)

theorem exec_phyReady_trains {n : Fin 8} {mask : Fin 16} {s : State} (waits : (s.link n).state = .waitPhy) (some_ : mask.val ≠ 0) :
    ∃ t, exec (.phyReady n mask) s = .next t ∧ (t.link n).state = .train ∧ (t.link n).ready = mask ∧ (t.link n).goodTrain = 0 ∧
      (t.link n).attemptAt = s.now ∧ ∀ k, k ≠ n.val → t.link k = s.link k := by
  refine ⟨_, exec_phyReady n mask s, ?_⟩
  rw [showReady, wakePort_waits (by simpa using waits) (by simpa using some_), enterTrain]
  simp only [State.plain_link, State.link_updLink_same]
  refine ⟨trivial, trivial, trivial, rfl, fun k other => ?_⟩
  rw [State.link_updLink_other _ _ other, State.link_updLink_other _ _ other]

theorem exec_phyReady_awake {n : Fin 8} {mask : Fin 16} {s : State} (shown : (s.link n).state ≠ .waitPhy)
    (on : (s.link n).state ≠ .disabled) : exec (.phyReady n mask) s = .next (s.updLink n fun x => { x with ready := mask }) := by
  rw [exec_phyReady, showReady, wakePort_awake (by simpa using on) (by simpa using shown)]
  rfl

/-! ### TRAIN flits and attach (12 R473, R474) -/

/-- An attempt to train or attach runs on a port. -/
def LinkSt.tries (l : LinkSt) : Prop := (l.state = .train ∨ l.state = .attach ∨ l.state = .retrain) ∧ l.backoffUntil = none

/-- A port has counted one more good TRAIN flit, and answers with its own. -/
def LinkSt.trained (l : LinkSt) : LinkSt :=
  { l with goodTrain := min 255 (l.goodTrain + 1), sent := some (trainFlit { l with goodTrain := min 255 (l.goodTrain + 1) }) }

theorem takeTrain_tries {s : State} {n : Nat} (tries : (s.link n).tries) (t : TrainFlit) : takeTrain s n t =
    if 8 ≤ (s.link n).trained.goodTrain && 8 ≤ t.count then
      attach ((s.updLink n LinkSt.trained).updLink n fun l =>
        { l with state := if l.state == .retrain then .retrain else .attach }) n t
    else s.updLink n LinkSt.trained := by
  have runs : ((s.link n).state == .train || (s.link n).state == .attach || (s.link n).state == .retrain) &&
      (s.link n).backoffUntil.isNone := by
    obtain ⟨h | h | h, waits⟩ := tries <;> simp [h, waits]
  unfold takeTrain
  rw [if_pos runs]
  show (if (decide (8 ≤ ((s.updLink n LinkSt.trained).link n).goodTrain) && _) = true then _ else _) = _
  rw [State.link_updLink_same]
  rfl

/-! ### Attach (12 R474) -/

theorem attach_miswired {s : State} {n : Nat} {t : TrainFlit} (wrong : s.wired n t = false) :
    attach s n t = goDown (s.updLink n fun l => { l with peerDie := t.die }) n 2 := by
  simp [attach, wrong]

/-- A port shows the peer of a TRAIN flit (12 R474, R487). -/
structure LinkSt.Shows (l : LinkSt) (t : TrainFlit) : Prop where
  peerDie : l.peerDie = t.die
  peerPort : l.peerPort = t.port
  peerValid : l.peerValid = true
  peerId : l.peerId = t.idCheck

theorem LinkSt.Shows.of_standing {l m : LinkSt} {t : TrainFlit} (shows : l.Shows t) (h : m.standing = l.standing) : m.Shows t where
  peerDie := (LinkSt.kept_of_standing h LinkSt.peerDie).trans shows.peerDie
  peerPort := (LinkSt.kept_of_standing h LinkSt.peerPort).trans shows.peerPort
  peerValid := (LinkSt.kept_of_standing h LinkSt.peerValid).trans shows.peerValid
  peerId := (LinkSt.kept_of_standing h LinkSt.peerId).trans shows.peerId

/-- A port that has attached to the peer of a TRAIN flit: it is in BASIC, or UP already. -/
def LinkSt.Attached (l : LinkSt) (t : TrainFlit) : Prop := (l.state = .basic ∨ l.state = .up) ∧ l.Shows t

theorem LinkSt.Attached.of_standing {l m : LinkSt} {t : TrainFlit} (h : l.Attached t) (same : m.standing = l.standing) :
    m.Attached t :=
  ⟨by rw [LinkSt.kept_of_standing same LinkSt.state]; exact h.1, h.2.of_standing same⟩

/-- A port that becomes UP: its width is what its good lane groups allow, and below 4 it is DEGRADED (12 R475). -/
def LinkSt.upWith (l : LinkSt) (w : Nat) : LinkSt :=
  { l with state := .up, width := w, attempts := 0, degraded := l.degraded || decide (w < 4) }

theorem portUp_link (s : State) (n k : Nat) :
    (portUp s n).link k = (s.updLink n fun l => l.upWith (s.link n).fitWidth).link k := by
  unfold portUp
  rw [refreshPhase_link]
  split
  · exact linkRecord_link _ _ _ _ _
  · rfl

theorem portUp_link_same (s : State) (n : Nat) : (portUp s n).link n = (s.link n).upWith (s.link n).fitWidth := by
  rw [portUp_link, State.link_updLink_same]

theorem portUp_link_other (s : State) {n k : Nat} (h : k ≠ n) : (portUp s n).link k = s.link k := by
  rw [portUp_link, State.link_updLink_other _ _ h]

/-- 12 R474: where the peer stands in its place, the port shows it, and is in BASIC, or UP where its lane groups were calibrated before. -/
theorem attach_wired {s : State} {n : Nat} {t : TrainFlit} (wired : s.wired n t = true) : ((attach s n t).link n).Attached t := by
  unfold attach
  rw [wired, if_neg (by simp)]
  extract_lets found was changed cut basic recorded up told flooded
  have begins : (basic.link n).Attached t := by
    rw [State.link_updLink_same]
    refine ⟨.inl rfl, rfl, rfl, rfl, rfl⟩
  have records : (recorded.link n).Attached t := by
    have same : recorded.link n = basic.link n := by
      unfold recorded
      split
      · exact linkRecord_link basic n 4 0 n
      · rfl
    rw [same]
    exact begins
  have ups : (up.link n).Attached t := by
    unfold up
    split
    · rw [portUp_link_same]
      exact ⟨.inr rfl, records.2.peerDie, records.2.peerPort, records.2.peerValid, records.2.peerId⟩
    · exact records
  have tells : (told.link n).Attached t := by
    rw [linkRecord_link]
    exact ups
  have floods : (flooded.link n).Attached t := by
    unfold flooded
    split
    · exact tells.of_standing (tellState_samePorts told n true n)
    · exact tells
  exact floods.of_standing (drainPort_samePorts flooded n n)

theorem takeTrain_idle {s : State} {n : Nat} (t : TrainFlit) (idle : (s.link n).state ≠ .train ∧ (s.link n).state ≠ .attach ∧
    (s.link n).state ≠ .retrain) : takeTrain s n t = s := by
  obtain ⟨train, attach, retrain⟩ := idle
  simp [takeTrain, train, attach, retrain]

theorem exec_train {n : Fin 8} {x : TrainFlit} (wf : x.wf = true) (s : State) :
    exec (.train n x) s = .next (State.plain s (takeTrain s n x)) := by
  show checked _ _ _ = _
  rw [wf]
  rfl

theorem LinkSt.trained_goodTrain (l : LinkSt) : l.trained.goodTrain = min 255 (l.goodTrain + 1) := rfl

/-- The state in which a port has counted its last good TRAIN flit. -/
def attaching (s : State) (n : Nat) : State := (s.updLink n LinkSt.trained).updLink n fun l =>
  { l with state := if l.state == .retrain then .retrain else .attach }

theorem attaching_wired (s : State) (n : Nat) (x : TrainFlit) : (attaching s n).wired n x = s.wired n x := rfl

section
variable {n : Fin 8} {x : TrainFlit} {s : State} (wf : x.wf = true) (tries : (s.link n).tries)
include wf tries

/-- 12 R473: a good TRAIN flit is counted, and no more where either side has fewer than 8. -/
theorem exec_train_counts (few : (s.link n).goodTrain < 7 ∨ x.count < 8) : ∃ t, exec (.train n x) s = .next t ∧
    (t.link n).goodTrain = min 255 ((s.link n).goodTrain + 1) ∧ (t.link n).state = (s.link n).state ∧
    ∀ k, k ≠ n.val → t.link k = s.link k := by
  refine ⟨_, exec_train wf s, ?_⟩
  have short : ¬ (8 ≤ (s.link n).trained.goodTrain && decide (8 ≤ x.count)) = true := by
    rw [Bool.and_eq_true, decide_eq_true_eq, decide_eq_true_eq, LinkSt.trained_goodTrain]
    omega
  rw [takeTrain_tries tries, if_neg short]
  simp only [State.plain_link, State.link_updLink_same]
  exact ⟨rfl, rfl, fun k other => State.link_updLink_other _ _ other⟩

theorem exec_train_attaches (own : 7 ≤ (s.link n).goodTrain) (peer : 8 ≤ x.count) :
    exec (.train n x) s = .next (State.plain s (attach (attaching s n) n x)) := by
  have enough : (8 ≤ (s.link n).trained.goodTrain && decide (8 ≤ x.count)) = true := by
    rw [Bool.and_eq_true, decide_eq_true_eq, decide_eq_true_eq, LinkSt.trained_goodTrain]
    omega
  rw [exec_train wf, takeTrain_tries tries, if_pos enough]
  rfl

end

/-! ### Attempts and calibration (12 R473, R475) -/

theorem attemptBound_values (n : Nat) : attemptBound n .train = (if n < 4 then 200000 else 2000000) ∧
    attemptBound n .attach = (if n < 4 then 10000 else 100000) ∧ attemptBound n .basic = (if n < 4 then 5000000 else 20000000) ∧
    attemptBound n .retrain = attemptBound n .train + attemptBound n .attach := ⟨rfl, rfl, rfl, rfl⟩

theorem exec_trainAttemptFail (n : Fin 8) (s : State) :
    exec (.trainAttemptFail n) s = .next (State.plain s (failAttempt s n)) := rfl

/-- An attempt of a port has failed. -/
def LinkSt.failed (l : LinkSt) : LinkSt := { l with
  attempts := l.attempts + 1, goodTrain := 0, again := [], line := [], slots := 0
  state := if l.state == .retrain || (l.state == .basic && l.fromRetrain) then .retrain else .train }

section
variable {n : Fin 8} {s : State}

theorem exec_trainAttemptFail_early (early : s.now < (s.link n).attemptAt + attemptBound n (s.link n).state) :
    exec (.trainAttemptFail n) s = .next s := by
  rw [exec_trainAttemptFail, failAttempt]
  dsimp only
  rw [if_neg]
  · rfl
  · simp only [Bool.and_eq_true, decide_eq_true_eq]
    omega

variable (runs : (s.link n).state = .train ∨ (s.link n).state = .attach ∨ (s.link n).state = .retrain ∨ (s.link n).state = .basic)
  (waits : (s.link n).backoffUntil = none) (late : (s.link n).attemptAt + attemptBound n (s.link n).state ≤ s.now)
include runs waits late

theorem failAttempt_late : failAttempt s n =
    if 8 ≤ (s.link n).attempts + 1 then goDown (s.updLink n LinkSt.failed) n (if (s.link n).fromRetrain then 3 else 1)
    else (timingDraw (s.updLink n LinkSt.failed) (1 + at_ n 4)).1.updLink n fun l => { l with
      backoffUntil := some (s.now + 10000 * (1 + (timingDraw (s.updLink n LinkSt.failed) (1 + at_ n 4)).2.x0.toNat % 64)) } := by
  unfold failAttempt
  dsimp only
  rw [if_pos]
  · rfl
  · rcases runs with h | h | h | h <;> simpa [h, waits] using late

/-- 12 R473: the next attempt waits for 10 µs to 640 µs, as a timing draw tells. -/
theorem exec_trainAttemptFail_waits (few : (s.link n).attempts < 7) : ∃ t, exec (.trainAttemptFail n) s = .next t ∧
    (t.link n).attempts = (s.link n).attempts + 1 ∧ (∃ x, (t.link n).backoffUntil = some (s.now + 10000 * (1 + x)) ∧ x < 64) ∧
    ∀ k, k ≠ n.val → t.link k = s.link k := by
  refine ⟨_, exec_trainAttemptFail n s, ?_⟩
  have drawn : ∀ k, (timingDraw (s.updLink n LinkSt.failed) (1 + at_ n 4)).1.link k = (s.updLink n LinkSt.failed).link k :=
    fun k => State.link_congr rfl k
  rw [failAttempt_late runs waits late, if_neg (by omega)]
  simp only [State.plain_link, State.link_updLink_same]
  refine ⟨by rw [drawn, State.link_updLink_same]; rfl, ⟨_, rfl, Nat.mod_lt _ (by decide)⟩, fun k other => ?_⟩
  rw [State.link_updLink_other _ _ other, drawn, State.link_updLink_other _ _ other]

/-- 12 R473: the eighth attempt that fails takes the port down. -/
theorem exec_trainAttemptFail_down (many : 7 ≤ (s.link n).attempts) : ∃ t, exec (.trainAttemptFail n) s = .next t ∧
    (t.link n).state = .down ∧ (t.link n).downCause = if (s.link n).fromRetrain then 3 else 1 := by
  refine ⟨_, exec_trainAttemptFail n s, ?_⟩
  obtain ⟨state, cause, -⟩ := goDown_down (s.updLink n LinkSt.failed) n (if (s.link n).fromRetrain then 3 else 1)
  rw [failAttempt_late runs waits late, if_pos (by omega)]
  exact ⟨state, cause⟩

end

theorem exec_trainBackoff {n : Fin 8} {s : State} {a : Nat} (waits : (s.link n).backoffUntil = some a) :
    exec (.trainBackoff n) s = .next (if a ≤ s.now
      then s.updLink n fun x => { x with backoffUntil := none, attemptAt := s.now, goodTrain := 0 } else s) := by
  show finishPlain s (nextAttempt s n) = _
  unfold nextAttempt
  rw [waits, finishPlain_eq]
  dsimp only
  split <;> rfl

theorem exec_calibrationComplete (n : Fin 8) (good : Fin 16) (s : State) :
    exec (.calibrationComplete n good) s = .next (State.plain s (calibrate s n good)) := rfl

theorem exec_calibrationComplete_not {n : Fin 8} {s : State} (good : Fin 16) (other : (s.link n).state ≠ .basic) :
    exec (.calibrationComplete n good) s = .next s := by
  rw [exec_calibrationComplete, calibrate, if_neg (by simpa using other)]
  rfl

theorem exec_calibrationComplete_up {n : Fin 8} {s : State} {good : Fin 16} {w : Nat} (basic : (s.link n).state = .basic)
    (width : w = { s.link n with good := Nat.land good.val (s.link n).ready }.fitWidth) (some_ : w ≠ 0) : ∃ t,
      exec (.calibrationComplete n good) s = .next t ∧ (t.link n).state = .up ∧ (t.link n).width = w ∧
      (t.link n).degraded = ((s.link n).degraded || decide (w < 4)) ∧ ∀ k, k ≠ n.val → t.link k = s.link k := by
  refine ⟨_, exec_calibrationComplete n good s, ?_⟩
  have fits : ((s.updLink n fun l => { l with good := good.val &&& l.ready }).link n).fitWidth = w := by
    rw [State.link_updLink_same, width]
    rfl
  have ups : calibrate s n good = portUp (s.updLink n fun l => { l with good := good.val &&& l.ready }) n := by
    rw [calibrate, if_pos (by simpa using basic)]
    dsimp only
    rw [fits, if_pos (by simpa using some_)]
  rw [ups, State.plain_link, portUp_link_same, fits, State.link_updLink_same]
  refine ⟨rfl, rfl, rfl, fun k other => ?_⟩
  rw [State.plain_link, portUp_link_other _ other, State.link_updLink_other _ _ other]

/-- Settles O54: each event of a port by the state in which it finds its training. -/
theorem portsTrainAttachAndCalibrate : Obligations.PortsTrainAttachAndCalibrate := by
  unfold Obligations.PortsTrainAttachAndCalibrate
  rintro n s l rfl
  refine ⟨fun mask => ⟨exec_phyReady_trains, exec_phyReady_awake⟩, fun x wf => ⟨?idle, fun state waits => ?_⟩,
    attemptBound_values n, fun runs waits => ⟨exec_trainAttemptFail_early, exec_trainAttemptFail_waits runs waits,
      exec_trainAttemptFail_down runs waits⟩, fun a waits => ⟨fun ends => ?ends, fun early => ?early⟩,
    fun good => ⟨exec_calibrationComplete_not good, fun w => exec_calibrationComplete_up⟩⟩
  case idle =>
    intro train attach retrain
    rw [exec_train wf, takeTrain_idle x ⟨train, attach, retrain⟩]
    rfl
  case ends => rw [exec_trainBackoff waits, if_pos ends]
  case early => rw [exec_trainBackoff waits, if_neg (by omega)]
  have tries : (s.link n).tries := ⟨state, waits⟩
  refine ⟨exec_train_counts wf tries, fun own peer wrong => ?miswired, fun own peer right => ?wired⟩
  case miswired =>
    refine ⟨_, exec_train_attaches wf tries own peer, ?_⟩
    rw [attach_miswired ((attaching_wired s n x).trans wrong)]
    exact goDown_down _ n 2
  case wired =>
    obtain ⟨state, shows⟩ := attach_wired ((attaching_wired s n x).trans right)
    exact ⟨_, exec_train_attaches wf tries own peer, state, shows.peerDie, shows.peerPort, shows.peerValid, shows.peerId⟩

/-! ### Triggers of RETRAIN (12 R476) -/

/-- A port that has entered RETRAIN at a time; `trigger` is none when the owner asks for it. -/
def LinkSt.retraining (now : Nat) (trigger : Option Nat) (l : LinkSt) : LinkSt := { l with
  state := .retrain, goodTrain := 0, attempts := 0, attemptAt := now, backoffUntil := none, fromRetrain := true
  retrains := satAdd 255 l.retrains 1, replayCounts := [], replayTimes := [], replayWait := none, pendNack := none
  again := [], line := [], slots := 0
  cap := if trigger.isNone then 4 else if l.state == PortState.up then min l.cap (max 1 l.width) else l.cap }

/-- A port that has entered RETRAIN sends its TRAIN flits. -/
def LinkSt.retrained (now : Nat) (trigger : Option Nat) (l : LinkSt) : LinkSt :=
  { l.retraining now trigger with sent := some (trainFlit (l.retraining now trigger)) }

theorem enterRetrain_owner (s : State) (n : Nat) : enterRetrain s n none = s.updLink n (LinkSt.retrained s.now none) := rfl

theorem enterRetrain_trigger (s : State) (n t : Nat) : ∃ siphons warden,
    enterRetrain s n (some t) = { s with siphons, warden }.updLink n (LinkSt.retrained s.now (some t)) := by
  obtain ⟨siphons, warden, made⟩ := linkRecord_form s n 3 t
  refine ⟨siphons, warden, ?_⟩
  unfold enterRetrain
  dsimp only
  rw [made]
  rfl

/-- 12 R476: a trigger puts a port into RETRAIN, which is counted; its lane groups and its replay buffer stay. -/
theorem enterRetrain_retrains (s : State) (n t : Nat) : ((enterRetrain s n (some t)).link n).state = .retrain ∧
    ((enterRetrain s n (some t)).link n).retrains = min 255 ((s.link n).retrains + 1) ∧
    ((enterRetrain s n (some t)).link n).ready = (s.link n).ready ∧ ((enterRetrain s n (some t)).link n).kept = (s.link n).kept ∧
    (enterRetrain s n (some t)).ops = s.ops ∧ ∀ k, k ≠ n → (enterRetrain s n (some t)).link k = s.link k := by
  obtain ⟨siphons, warden, retrains⟩ := enterRetrain_trigger s n t
  rw [retrains, State.link_updLink_same]
  exact ⟨rfl, rfl, rfl, rfl, rfl, fun k other => State.link_updLink_other _ _ other⟩

/-- The lane groups of a mask are lost to a port. -/
def LinkSt.without (mask : Nat) (l : LinkSt) : LinkSt := { l with ready := maskOff l.ready mask, good := maskOff l.good mask }

theorem exec_phyLost (n : Fin 8) (mask : Fin 16) (s : State) :
    exec (.phyLost n mask) s = .next (State.plain s (losePhy s n mask)) := rfl

theorem exec_phyLost_not {n : Fin 8} {mask : Fin 16} {s : State} (h : mask.val = 0 ∨ (s.link n).live = false) :
    exec (.phyLost n mask) s = .next (s.updLink n (LinkSt.without mask)) := by
  have dead : ((s.updLink n (LinkSt.without mask)).link n).live = (s.link n).live := by
    rw [State.link_updLink_same]
    rfl
  have quiet : ¬ (mask.val != 0 && ((s.updLink n (LinkSt.without mask)).link n).live) = true := by
    rw [dead]
    rcases h with h | h <;> simp [h]
  rw [exec_phyLost]
  exact congrArg (fun t => Host.Outcome.next (State.plain s t)) (if_neg quiet)

theorem exec_phyLost_retrains {n : Fin 8} {mask : Fin 16} {s : State} (some_ : mask.val ≠ 0) (live : (s.link n).live = true) : ∃ t,
    exec (.phyLost n mask) s = .next t ∧ (t.link n).state = .retrain ∧ (t.link n).retrains = min 255 ((s.link n).retrains + 1) ∧
    (t.link n).ready = maskOff (s.link n).ready mask ∧ (t.link n).kept = (s.link n).kept ∧
    ∀ k, k ≠ n.val → t.link k = s.link k := by
  have lives : ((s.updLink n (LinkSt.without mask)).link n).live = true := by
    rw [State.link_updLink_same]
    exact live
  have runs : (mask.val != 0 && ((s.updLink n (LinkSt.without mask)).link n).live) = true := by
    rw [lives]
    simpa using some_
  have loses : losePhy s n mask = enterRetrain (s.updLink n (LinkSt.without mask)) n (some 3) := if_pos runs
  obtain ⟨state, retrains, ready, kept, -, others⟩ := enterRetrain_retrains (s.updLink n (LinkSt.without mask)) n 3
  rw [← loses] at state retrains ready kept others
  rw [State.link_updLink_same] at retrains ready kept
  refine ⟨_, exec_phyLost n mask s, state, retrains, ready, kept, fun k other => (others k other).trans ?_⟩
  exact State.link_updLink_other _ _ other

theorem exec_linkSilence (n : Fin 8) (s : State) : exec (.linkSilence n) s = .next (State.plain s (silence s n)) := rfl

theorem exec_linkSilence_not {n : Fin 8} {s : State}
    (h : (s.link n).live = false ∨ s.now < (s.link n).lastGood + (if n.val < 4 then 10000 else 100000)) :
    exec (.linkSilence n) s = .next s := by
  have heard : ¬ ((s.link n).live && decide ((s.link n).lastGood + (if n.val < 4 then 10000 else 100000) ≤ s.now)) = true := by
    rw [Bool.and_eq_true, decide_eq_true_eq]
    rintro ⟨live, late⟩
    rcases h with h | h
    · rw [h] at live
      cases live
    · omega
  rw [exec_linkSilence]
  exact congrArg (fun t => Host.Outcome.next (State.plain s t)) (if_neg heard)

theorem exec_linkSilence_retrains {n : Fin 8} {s : State} (live : (s.link n).live = true)
    (late : (s.link n).lastGood + (if n.val < 4 then 10000 else 100000) ≤ s.now) : ∃ t, exec (.linkSilence n) s = .next t ∧
      (t.link n).state = .retrain ∧ (t.link n).retrains = min 255 ((s.link n).retrains + 1) ∧ t.ops = s.ops := by
  have silent : silence s n = enterRetrain s n (some 2) := if_pos (by rw [live]; simpa using late)
  obtain ⟨state, retrains, -, -, ops, -⟩ := enterRetrain_retrains s n 2
  rw [← silent] at state retrains ops
  exact ⟨_, exec_linkSilence n s, state, retrains, ops⟩

/-! ### LINK_CTRL (12 R475, R478, R487) -/

/-- LINK_CTRL of a port after a write. -/
def LinkSt.written (d : Nat) (l : LinkSt) : LinkSt := { l with en := bit d 0, maxWidth := bits d 2 2 }

/-- The state in which LINK_CTRL of a port has been written. -/
def ctrlWritten (s : State) (n : Nat) (d : W64) : State := s.updLink n (LinkSt.written d.toNat)

theorem ctrlWritten_link (s : State) (n : Nat) (d : W64) : (ctrlWritten s n d).link n = (s.link n).written d.toNat :=
  State.link_updLink_same s n _

theorem ctrlWritten_link_other (s : State) {n k : Nat} (d : W64) (h : k ≠ n) : (ctrlWritten s n d).link k = s.link k :=
  State.link_updLink_other s _ h

theorem ctrlWritten_state (s : State) (n : Nat) (d : W64) : ((ctrlWritten s n d).link n).state = (s.link n).state := by
  rw [ctrlWritten_link]
  rfl

/-- What the RETRAIN bit of a write asks for: an UP, BASIC or DOWN port retrains (12 R475). -/
def retrainAsked (t : State) (n : Nat) (asked : Bool) : State :=
  if !asked then t
  else if (t.link n).state == .up || (t.link n).state == .basic then enterRetrain t n none
  else if (t.link n).state == .down then enterTrain t n else t

section
variable {s : State} {n : Nat} {d : W64}

theorem writeLinkCtrl_reserved (code : bits d.toNat 2 2 = 3) : writeLinkCtrl s n d = none := by
  simp [writeLinkCtrl, code]

variable (code : bits d.toNat 2 2 ≠ 3)
include code

theorem writeLinkCtrl_off (off : bit d.toNat 0 = false) : writeLinkCtrl s n d = some (
    if (s.link n).state == .disabled then ctrlWritten s n d else fallPort (ctrlWritten s n d) n .disabled) := by
  unfold writeLinkCtrl
  dsimp only
  rw [if_neg (by simpa using code), if_pos (by simp [off]), ← ctrlWritten_state s n d]
  rfl

/-- A write with EN 1 to a port that has left WAIT_PHY. -/
theorem writeLinkCtrl_on (on : bit d.toNat 0 = true) (enabled : (s.link n).state ≠ .disabled) (shown : (s.link n).state ≠ .waitPhy) :
    writeLinkCtrl s n d = some (retrainAsked (ctrlWritten s n d) n (bit d.toNat 1)) := by
  have awake : wakePort (ctrlWritten s n d) n = ctrlWritten s n d :=
    wakePort_awake (by rwa [ctrlWritten_state]) (by rwa [ctrlWritten_state])
  have written : writeLinkCtrl s n d = some (retrainAsked (wakePort (ctrlWritten s n d) n) n (bit d.toNat 1)) := by
    unfold writeLinkCtrl
    dsimp only
    rw [if_neg (by simpa using code), if_neg (by simp [on])]
    rfl
  rw [written, awake]

end

/-! ### The owner's writes of LINK_CTRL -/

/-- The word that RETRAIN writes: the present LINK_CTRL with the RETRAIN bit (12 R475, R487). -/
theorem retrain_word {l : LinkSt} (en : l.en = true) (width : l.maxWidth < 3) :
    bits (BitVec.ofNat 64 (l.ctrl + 2)).toNat 2 2 ≠ 3 ∧ bit (BitVec.ofNat 64 (l.ctrl + 2)).toNat 0 = true ∧
      bit (BitVec.ofNat 64 (l.ctrl + 2)).toNat 1 = true := by
  have word : l.ctrl + 2 = 4 * l.maxWidth + 3 := by
    simp only [LinkSt.ctrl, en, b1, at_, Nat.shiftLeft_eq, if_true]
    omega
  rw [word]
  interval_cases l.maxWidth <;> decide

section
variable {n : Fin 8} {s : State} {m : Mgmt} (may : State.MayWrite s m)
include may

section
variable (en : (s.link n).en = true) (width : (s.link n).maxWidth < 3)
include en width

/-- 12 R475, R478: the owner's RETRAIN of a live port, which tries its full width again. -/
theorem exec_retrain_live (live : (s.link n).state = .up ∨ (s.link n).state = .basic) : ∃ t, exec (.retrain m n) s = .next t ∧
    (t.link n).state = .retrain ∧ (t.link n).cap = 4 ∧ (t.link n).retrains = min 255 ((s.link n).retrains + 1) ∧
    t.warden = s.warden ∧ ∀ k, k ≠ n.val → t.link k = s.link k := by
  obtain ⟨code, on, again⟩ := retrain_word en width
  have write := writeLinkCtrl_on (s := s) (n := n) code on (by rcases live with h | h <;> simp [h])
    (by rcases live with h | h <;> simp [h])
  rw [again, retrainAsked, if_neg (by simp), if_pos (by simpa [ctrlWritten_state] using live), enterRetrain_owner] at write
  refine ⟨_, mgmtWrite_accepted may write, ?_⟩
  simp only [State.accepted_link, State.accepted_warden, State.link_updLink_same, ctrlWritten_link]
  refine ⟨rfl, rfl, rfl, rfl, fun k other => ?_⟩
  rw [State.link_updLink_other _ _ other, ctrlWritten_link_other _ _ other]

theorem exec_retrain_down (down : (s.link n).state = .down) : ∃ t, exec (.retrain m n) s = .next t ∧
    (t.link n).state = .train ∧ (t.link n).goodTrain = 0 := by
  obtain ⟨code, on, again⟩ := retrain_word en width
  have write := writeLinkCtrl_on (s := s) (n := n) code on (by simp [down]) (by simp [down])
  rw [again, retrainAsked, if_neg (by simp), if_neg (by simp [ctrlWritten_state, down]),
    if_pos (by simp [ctrlWritten_state, down])] at write
  refine ⟨_, mgmtWrite_accepted may write, ?_⟩
  rw [State.accepted_link, enterTrain, State.link_updLink_same]
  exact ⟨rfl, rfl⟩

end

variable {d : W64}

theorem exec_linkEnWrite_reserved (code : bits d.toNat 2 2 = 3) : exec (.linkEnWrite m n d) s = .next (State.answered s m 1 0) := by
  show finish s (mgmtWrite s m _) = _
  rw [mgmtWrite_rejected may (writeLinkCtrl_reserved code), finish_answered]

/-- 12 R478: clearing EN takes a port to DISABLED; what it held is discarded. -/
theorem exec_linkEnWrite_off (code : bits d.toNat 2 2 ≠ 3) (off : bit d.toNat 0 = false) : ∃ t,
    exec (.linkEnWrite m n d) s = .next t ∧ (t.link n).state = .disabled ∧ (t.link n).en = false ∧
    ((s.link n).state ≠ .disabled → (t.link n).kept = [] ∧ (t.link n).queue = []) := by
  have write := writeLinkCtrl_off (s := s) (n := n) code off
  refine ⟨_, mgmtWrite_accepted may write, ?_⟩
  rw [State.accepted_link]
  split
  next disabled =>
    rw [ctrlWritten_link]
    exact ⟨beq_iff_eq.1 disabled, off, fun on => absurd (beq_iff_eq.1 disabled) on⟩
  next =>
    obtain ⟨state, kept, queue, -, en⟩ := fallPort_fallen (ctrlWritten s n d) n (st := .disabled) (.inr rfl)
    rw [ctrlWritten_link] at en
    exact ⟨state, en.trans off, fun _ => ⟨kept, queue⟩⟩

theorem exec_linkEnWrite_on (code : bits d.toNat 2 2 ≠ 3) (on : bit d.toNat 0 = true) (plain : bit d.toNat 1 = false)
    (enabled : (s.link n).state ≠ .disabled) (shown : (s.link n).state ≠ .waitPhy) : exec (.linkEnWrite m n d) s =
      .next (State.accepted s m (s.updLink n fun x => { x with en := true, maxWidth := bits d.toNat 2 2 })) := by
  have write := writeLinkCtrl_on code on enabled shown
  rw [plain, retrainAsked, if_pos Bool.not_false] at write
  refine (mgmtWrite_accepted may write).trans ?_
  unfold ctrlWritten LinkSt.written
  rw [on]

end

/-- Settles O55: a port enters RETRAIN by `enterRetrain`, and the owner's writes are those of LINK_CTRL. -/
theorem portsRetrainAndStop : Obligations.PortsRetrainAndStop := by
  unfold Obligations.PortsRetrainAndStop
  rintro n s l rfl
  exact ⟨fun mask => ⟨exec_phyLost_not, exec_phyLost_retrains⟩, exec_linkSilence_not, exec_linkSilence_retrains,
    fun m may => ⟨fun en width => ⟨exec_retrain_live may en width, exec_retrain_down may en width⟩,
      fun d => ⟨exec_linkEnWrite_reserved may, exec_linkEnWrite_off may, exec_linkEnWrite_on may⟩⟩⟩

end Sys2Proof.Machine
end
section
/-! PROOFS. Flits on the link ports (12 R459-R469): CRC and SEQ at the receiver, acknowledgement and replay at the sender, credits, the map. -/

namespace Sys2Proof.Machine

@[simp] theorem State.plain_net (s t : State) : (State.plain s t).net = t.net := rfl

@[simp] theorem State.plain_ops (s t : State) : (State.plain s t).ops = t.ops := rfl

/-! ### Flits that arrive (12 R459, R464) -/

/-- A flit passes its CRC-16 (12 R459). -/
def flitFits (sb : Nat) (data : List Byte) : Prop := crc16 (data ++ leBytes 2 (sb % 65536)) = bits sb 16 16

/-- A good flit has come on a port. -/
def flitHeard (s : State) (n : Nat) : State := s.updLink n fun l => { l with lastGood := s.now }

theorem flitHeard_link (s : State) (n : Nat) : (flitHeard s n).link n = { s.link n with lastGood := s.now } :=
  State.link_updLink_same s n _

/-- A port has discarded a flit whose CRC fails (12 R464, R473). -/
def LinkSt.badFlit (lane : Nat) (l : LinkSt) : LinkSt := { l with
  crcErrors := (l.crcErrors + 1) % 2 ^ 64, goodTrain := if l.lowest.contains lane then 0 else l.goodTrain }

section
variable {s : State} {n lane sb : Nat} {data : List Byte}

theorem takeFlit_bad (bad : ¬ flitFits sb data) : takeFlit s n lane sb data =
    if (s.link n).live then sendNack (s.updLink n (LinkSt.badFlit lane)) n else s.updLink n (LinkSt.badFlit lane) := by
  unfold takeFlit
  dsimp only
  rw [if_pos (by simpa [flitFits] using bad)]
  rfl

variable (good : flitFits sb data)
include good

theorem takeFlit_link (link : bit sb 2 = true) : takeFlit s n lane sb data = takeLinkFlit (flitHeard s n) n lane data := by
  unfold takeFlit
  dsimp only
  rw [if_neg (by simpa [flitFits] using good), if_pos link]
  rfl

variable (sequenced : bit sb 2 = false) (live : (s.link n).live = true)
include sequenced live

theorem takeFlit_next (next : bits sb 4 12 = (s.link n).rxSeq) : takeFlit s n lane sb data =
    acceptFlit (flitHeard s n) n (bits sb 0 2) (bit sb 3) data := by
  unfold takeFlit
  dsimp only
  rw [if_neg (by simpa [flitFits] using good), if_neg (by simp [sequenced]), if_neg (by simp [live]), if_pos (by simpa using next)]
  rfl

theorem takeFlit_behind (other : bits sb 4 12 ≠ (s.link n).rxSeq)
    (behind : 2048 ≤ (bits sb 4 12 + 4096 - (s.link n).rxSeq) % 4096) : takeFlit s n lane sb data = flitHeard s n := by
  unfold takeFlit
  dsimp only
  rw [if_neg (by simpa [flitFits] using good), if_neg (by simp [sequenced]), if_neg (by simp [live]), if_neg (by simpa using other),
    if_neg]
  · rfl
  · rw [Bool.and_eq_true, decide_eq_true_eq]
    omega

end

/-- 12 R465, R466: a NACK names the SEQ that the port expects next. -/
theorem sendNack_asks (s : State) (n : Nat) : ∃ l, sendNack s n = s.setLink n l ∧ l.crcErrors = (s.link n).crcErrors ∧
    l.rxSeq = (s.link n).rxSeq ∧ l.nackSent = true ∧ ∃ y, l.sent = some y ∧ y.kind = 1 ∧ y.nack = (s.link n).rxSeq := by
  refine ⟨_, rfl, ?_⟩
  dsimp only
  split <;> exact ⟨rfl, rfl, rfl, _, rfl, rfl, rfl⟩

/-! ### Flits in sequence (12 R460, R462, R464) -/

/-- A port has accepted a flit, of whose message `bs` has now come. -/
def LinkSt.accepting (vc : Nat) (last : Bool) (bs : List Byte) (l : LinkSt) : LinkSt := { l with
  rxSeq := (l.rxSeq + 1) % 4096, nackSent := false, rxParts := tabSet (fun _ => []) l.rxParts vc (if last then [] else bs) }

theorem LinkSt.accepting_parts (vc : Nat) (last : Bool) (bs : List Byte) (l : LinkSt) :
    (l.accepting vc last bs).parts vc = if last then [] else bs := tabGet_tabSet_same _ _ _ _

/-- The state in which a port has accepted a flit. -/
def flitAccepted (s : State) (n vc : Nat) (last : Bool) (data : List Byte) : State :=
  s.updLink n (LinkSt.accepting vc last ((s.link n).parts vc ++ data))

theorem flitAccepted_link (s : State) (n vc : Nat) (last : Bool) (data : List Byte) : (flitAccepted s n vc last data).link n =
    (s.link n).accepting vc last ((s.link n).parts vc ++ data) := State.link_updLink_same s n _

theorem acceptFlit_eq (s : State) (n vc : Nat) (last : Bool) (data : List Byte) : acceptFlit s n vc last data =
    if (flitAccepted s n vc last data).transits ((s.link n).parts vc ++ data) then
      passFlit (flitAccepted s n vc last data) n vc ((s.link n).parts vc).isEmpty last ((s.link n).parts vc ++ data)
    else if last then takeMessage (flitAccepted s n vc last data) n vc ((s.link n).parts vc ++ data)
    else flitAccepted s n vc last data := rfl

/-- Traffic of the link ports alone. -/
structure State.SendsOnly (s t : State) : Prop where
  rest : ∃ links, t = { s with links }
  ports : s.SamePorts t

theorem State.SendsOnly.refl (s : State) : s.SendsOnly s := ⟨⟨_, rfl⟩, .refl s⟩

theorem State.SendsOnly.trans {s t u : State} (h : s.SendsOnly t) (k : t.SendsOnly u) : s.SendsOnly u := by
  obtain ⟨⟨_, rfl⟩, ports⟩ := h
  obtain ⟨⟨_, rfl⟩, ports'⟩ := k
  exact ⟨⟨_, rfl⟩, ports.trans ports'⟩

theorem State.SendsOnly.net {s t : State} (h : s.SendsOnly t) : t.net = s.net := by
  obtain ⟨_, form⟩ := h.rest
  rw [form]

theorem State.sendsOnly_updLink (s : State) (n : Nat) {f : LinkSt → LinkSt} (same : (f (s.link n)).standing = (s.link n).standing) :
    s.SendsOnly (s.updLink n f) := ⟨⟨_, rfl⟩, s.samePorts_updLink n same⟩

theorem drainPort_sendsOnly (s : State) (n : Nat) : s.SendsOnly (drainPort s n) := ⟨drainPort_form s n, drainPort_samePorts s n⟩

theorem giveCredit_sendsOnly (s : State) (n vc k : Nat) : s.SendsOnly (giveCredit s n vc k) :=
  ⟨giveCredit_form s n vc k, giveCredit_samePorts s n vc k⟩

/-- A flit of a message in transit that is not its last one leaves the die or is discarded (01 R44, R45). -/
theorem passFlit_sendsOnly (s : State) (n vc : Nat) (first : Bool) (bs : List Byte) :
    s.SendsOnly (passFlit s n vc first false bs) := by
  have dropped : ∀ p, s.SendsOnly (dropOn s p 1) := fun p => s.sendsOnly_updLink p rfl
  unfold passFlit
  extract_lets m passed
  show s.SendsOnly passed
  unfold passed
  split
  · split
    next p order _ => exact .trans (s.sendsOnly_updLink p rfl) (drainPort_sendsOnly _ p)
    next => exact (dropped _).trans (giveCredit_sendsOnly _ n vc 1)
  · split
    next p _ => exact .trans (s.sendsOnly_updLink p rfl) (drainPort_sendsOnly _ p)
    next => exact giveCredit_sendsOnly s n vc 1

theorem acceptFlit_part (s : State) (n vc : Nat) (data : List Byte) :
    (flitAccepted s n vc false data).SendsOnly (acceptFlit s n vc false data) := by
  rw [acceptFlit_eq]
  split
  · exact passFlit_sendsOnly _ _ _ _ _
  · exact .refl _

theorem exec_flit {n : Fin 8} {lane : Fin 4} {sb : BitVec 32} {data : List Byte} (whole : data.length = 64) (s : State) :
    exec (.flit ⟨n, lane⟩ sb data) s = .next (State.plain s (takeFlit s n lane sb.toNat data)) := by
  have wf : flitWf data = true := by simpa [flitWf] using whole
  show checked _ _ _ = _
  rw [wf]
  rfl

section
variable {n : Fin 8} {lane : Fin 4} {sb : BitVec 32} {data : List Byte} {s : State} (whole : data.length = 64)
include whole

theorem exec_flit_bad (bad : ¬ flitFits sb.toNat data) (live : (s.link n).live = true) : ∃ t,
    exec (.flit ⟨n, lane⟩ sb data) s = .next t ∧ (t.link n).crcErrors = ((s.link n).crcErrors + 1) % 2 ^ 64 ∧
    (t.link n).rxSeq = (s.link n).rxSeq ∧ (t.link n).nackSent = true ∧
    (∃ y, (t.link n).sent = some y ∧ y.kind = 1 ∧ y.nack = (s.link n).rxSeq) ∧ t.net = s.net ∧ t.ops = s.ops := by
  obtain ⟨l, asks, crc, seq, nack, sent⟩ := sendNack_asks (s.updLink n (LinkSt.badFlit lane)) n
  rw [State.link_updLink_same] at crc seq sent
  refine ⟨_, exec_flit whole s, ?_⟩
  rw [takeFlit_bad bad, if_pos live, asks, State.plain_link, State.link_setLink]
  exact ⟨crc, seq, nack, sent, by simp, by simp⟩

theorem exec_flit_bad_dead (bad : ¬ flitFits sb.toNat data) (dead : (s.link n).live = false) :
    exec (.flit ⟨n, lane⟩ sb data) s = .next (s.updLink n (LinkSt.badFlit lane)) := by
  rw [exec_flit whole, takeFlit_bad bad, if_neg (by simp [dead])]
  rfl

variable (good : flitFits sb.toNat data) (sequenced : bit sb.toNat 2 = false) (live : (s.link n).live = true)
include good sequenced live

theorem exec_flit_next (next : bits sb.toNat 4 12 = (s.link n).rxSeq) (part : bit sb.toNat 3 = false) : ∃ t,
    exec (.flit ⟨n, lane⟩ sb data) s = .next t ∧ (t.link n).rxSeq = ((s.link n).rxSeq + 1) % 4096 ∧
    (t.link n).parts (bits sb.toNat 0 2) = (s.link n).parts (bits sb.toNat 0 2) ++ data ∧ (t.link n).lastGood = s.now ∧
    (t.link n).crcErrors = (s.link n).crcErrors ∧ t.net = s.net := by
  have sends := acceptFlit_part (flitHeard s n) n (bits sb.toNat 0 2) data
  have net : (flitAccepted (flitHeard s n) n (bits sb.toNat 0 2) false data).net = s.net := by simp [flitAccepted, flitHeard]
  have same := sends.ports n
  rw [flitAccepted_link, flitHeard_link] at same
  refine ⟨_, exec_flit whole s, ?_⟩
  rw [takeFlit_next good sequenced live next, part, State.plain_link, State.plain_net, sends.net, net]
  refine ⟨LinkSt.kept_of_standing same LinkSt.rxSeq, ?_, LinkSt.kept_of_standing same LinkSt.lastGood,
    LinkSt.kept_of_standing same LinkSt.crcErrors, rfl⟩
  exact (LinkSt.kept_of_standing same fun l => l.parts (bits sb.toNat 0 2)).trans (LinkSt.accepting_parts _ false _ _)

theorem exec_flit_behind (other : bits sb.toNat 4 12 ≠ (s.link n).rxSeq)
    (behind : 2048 ≤ (bits sb.toNat 4 12 + 4096 - (s.link n).rxSeq) % 4096) :
    exec (.flit ⟨n, lane⟩ sb data) s = .next (s.updLink n fun x => { x with lastGood := s.now }) := by
  rw [exec_flit whole, takeFlit_behind good sequenced live other behind]
  rfl

end

/-! ### A port with nothing queued (12 R463) -/

section
variable {port : Nat} {l : LinkSt} (empty : l.queue = [])
include empty

theorem LinkSt.nextOn_empty (vc : Nat) : l.nextOn port vc = none := by simp [LinkSt.nextOn, empty]

theorem LinkSt.statusDue_empty : l.statusDue port = decide (63 ≤ l.slots) := by
  simp [LinkSt.statusDue, LinkSt.dataWaits, LinkSt.nextOn_empty empty]

/-- It sends the STATUS that is due, and then what is to go again. -/
theorem sendOne_empty (carries : l.carries = true) : sendOne port l =
    if 63 ≤ l.slots then some (l.sendStatus port) else match l.again with
    | k :: ks => some ({ l with again := ks, dataRun := if k.vc = 0 then min 7 (l.dataRun + 1) else l.runAfter port }.onLine k)
    | [] => none := by
  have none_ : ∀ order : List Nat, order.findSome? (l.nextOn port) = none := fun order => by
    simp [List.findSome?_eq_none_iff, LinkSt.nextOn_empty empty]
  unfold sendOne
  simp only [carries, LinkSt.statusDue_empty empty, none_, decide_eq_true_eq]
  split
  · contradiction
  split
  · rfl
  · split <;> simp_all

theorem sendOne_idle (again : l.again = []) (slots : l.slots < 63) : sendOne port l = none := by
  by_cases carries : l.carries = true
  · rw [sendOne_empty empty carries, if_neg (by omega), again]
  · simp [sendOne, carries]

theorem drain_idle (again : l.again = []) (slots : l.slots < 63) (fuel : Nat) : drain port fuel l = l := by
  cases fuel with
  | zero => rfl
  | succ fuel => rw [drain, sendOne_idle empty again slots]

end

/-- What a port that has nothing queued shows once all that is to go again has gone: `m`, from `l`. -/
structure LinkSt.Resent (l m : LinkSt) : Prop where
  again : m.again = []
  kept : m.kept = l.kept
  line : l.slots + l.again.length < 63 → m.line = l.line ++ l.again

theorem drain_resends {port fuel : Nat} {l : LinkSt} (empty : l.queue = []) (carries : l.carries = true)
    (enough : 2 * l.again.length + (if 63 ≤ l.slots then 1 else 0) < fuel) : l.Resent (drain port fuel l) := by
  induction fuel generalizing l with
  | zero => omega
  | succ fuel ih =>
    rw [drain, sendOne_empty empty carries]
    by_cases due : 63 ≤ l.slots
    · rw [if_pos due] at enough
      rw [if_pos due]
      obtain ⟨again, kept, -⟩ := ih (l := l.sendStatus port) empty carries (by simpa [LinkSt.sendStatus] using enough)
      exact ⟨again, kept, fun few => by omega⟩
    · rw [if_neg due]
      split at enough
      · omega
      split
      next sent =>
        have none_ : l.again = [] := by
          split at sent
          · cases sent
          · assumption
        exact ⟨none_, rfl, fun _ => by rw [none_, List.append_nil]⟩
      next m sent =>
        split at sent
        next k ks next_ =>
          cases sent
          rw [next_, List.length_cons] at enough
          obtain ⟨again, kept, line⟩ := ih (l := { l with
            again := ks, dataRun := if k.vc = 0 then min 7 (l.dataRun + 1) else l.runAfter port }.onLine k) empty carries (by
              show 2 * ks.length + (if 63 ≤ l.slots + 1 then 1 else 0) < fuel
              split <;> omega)
          refine ⟨again, kept, fun few => ?_⟩
          rw [next_, List.length_cons] at few
          rw [line (by show l.slots + 1 + ks.length < 63; omega), next_]
          exact List.append_cons .. |>.symm
        next => cases sent

theorem LinkSt.holds_empty {l : LinkSt} (empty : l.queue = []) (i vc : Nat) : l.holds i vc = 0 := by simp [LinkSt.holds, empty]

/-- A port with nothing queued gives no credits back as it sends. -/
theorem creditsBack_empty (s : State) {old : LinkSt} (empty : old.queue = []) (new : LinkSt) : creditsBack s old new = s := by
  unfold creditsBack
  refine List.foldlRecOn (motive := fun t : State => t = s) _ _ rfl fun t same y _ => ?_
  show giveCredit t y.1 y.2 (old.holds y.1 y.2 - new.holds y.1 y.2) = s
  rw [same, LinkSt.holds_empty empty, Nat.zero_sub]
  rfl

theorem drainPort_empty {s : State} {n : Nat} (empty : (s.link n).queue = []) : drainPort s n = s.setLink n (s.drained n) := by
  rw [drainPort_eq, creditsBack_empty _ empty]

theorem State.drained_idle {s : State} {n : Nat} (empty : (s.link n).queue = []) (again : (s.link n).again = [])
    (slots : (s.link n).slots < 63) : s.drained n = s.link n := drain_idle empty again slots _

theorem State.drained_resent {s : State} {n : Nat} (empty : (s.link n).queue = []) (carries : (s.link n).carries = true) :
    (s.link n).Resent (s.drained n) := by
  refine drain_resends empty carries ?_
  split <;> omega

theorem LinkSt.carries_of_live {l : LinkSt} (live : l.live = true) : l.carries = true := by
  simpa [LinkSt.live, LinkSt.carries, or_comm] using live

/-! ### Acknowledgements (12 R464, R465) -/

/-- An acknowledgement concerns the kept flits and what is to become of them. -/
theorem LinkSt.acked_form (l : LinkSt) (ack : Nat) : ∃ ackSeq kept replayCounts again,
    l.acked ack = { l with ackSeq, kept, replayCounts, again } := by
  unfold LinkSt.acked
  split
  · exact ⟨_, _, _, _, rfl⟩
  · exact ⟨_, _, _, _, rfl⟩

theorem LinkSt.acked_again {l : LinkSt} (none_ : l.again = []) (ack : Nat) : (l.acked ack).again = [] := by
  unfold LinkSt.acked
  split
  · simp [none_]
  · exact none_

/-- A port has taken in an acknowledgement with the credits that came with it. -/
def LinkSt.informed (ack : Nat) (c : List (BitVec 16)) (now : Nat) (l : LinkSt) : LinkSt :=
  { l.acked ack with credBack := creditsNow l.credBack c, lastGood := now }

theorem LinkSt.informed_form (ack : Nat) (c : List (BitVec 16)) (now : Nat) (l : LinkSt) :
    ∃ ackSeq kept replayCounts again credBack, l.informed ack c now =
      { l with ackSeq, kept, replayCounts, again, credBack, lastGood := now } := by
  obtain ⟨_, _, _, _, acked⟩ := l.acked_form ack
  rw [informed, acked]
  exact ⟨_, _, _, _, _, rfl⟩

theorem LinkSt.informed_keeps (ack : Nat) (c : List (BitVec 16)) (now : Nat) (l : LinkSt) :
    (l.informed ack c now).state = l.state ∧ (l.informed ack c now).queue = l.queue ∧
    (l.informed ack c now).slots = l.slots ∧ (l.informed ack c now).line = l.line := by
  obtain ⟨_, _, _, _, _, form⟩ := l.informed_form ack c now
  rw [form]
  exact ⟨rfl, rfl, rfl, rfl⟩

/-! ### Replays (12 R466) -/

/-- A port replays from a SEQ. -/
def LinkSt.replaying (now seq : Nat) (l : LinkSt) : LinkSt := { l with
  replays := (l.replays + 1) % 2 ^ 64, replayWait := none
  replayTimes := (l.replayTimes.filter fun t => now < t + 1000000) ++ [now]
  again := l.kept.dropWhile fun k => k.seq != seq
  replayCounts := (l.replayCounts.filter fun r => r.1 != seq) ++ [(seq, l.replaysOf seq + 1)] }

theorem LinkSt.replaysOf_replaying (now seq : Nat) (l : LinkSt) : (l.replaying now seq).replaysOf seq = l.replaysOf seq + 1 := by
  have older : (l.replayCounts.filter fun r => r.1 != seq).find? (fun r => r.1 == seq) = none := by
    simp [List.find?_eq_none]
  show (((_ ++ [_]).find? _).map Prod.snd).getD 0 = _
  rw [List.find?_append, older]
  simp

/-- Fewer than 8 replays of the SEQ, and at most 64 in the last millisecond: the port sends its flits again. -/
theorem replayFrom_sends {s : State} {n seq : Nat} (few : (s.link n).replaysOf seq < 7)
    (rare : ((s.link n).replayTimes.filter fun a => s.now < a + 1000000).length < 64) :
    replayFrom s n seq = drainPort (s.updLink n (LinkSt.replaying s.now seq)) n := by
  have port : (s.updLink n (LinkSt.replaying s.now seq)).link n = (s.link n).replaying s.now seq := State.link_updLink_same s n _
  have times : ((s.link n).replaying s.now seq).replayTimes.length ≤ 64 := by
    show (_ ++ [_]).length ≤ 64
    rw [List.length_append, List.length_singleton]
    omega
  unfold replayFrom
  show (if 8 ≤ ((s.updLink n (LinkSt.replaying s.now seq)).link n).replaysOf seq then _ else
    if 64 < ((s.updLink n (LinkSt.replaying s.now seq)).link n).replayTimes.length then _ else _) = _
  rw [port, if_neg (by rw [LinkSt.replaysOf_replaying]; omega), if_neg (by omega)]
  rfl

theorem exec_nack (n : Fin 8) (ack seq : Fin 4096) (s : State) :
    exec (.nack n ack seq) s = .next (State.plain s (takeNack s n ack seq [])) := rfl

/-- The state in which a port has taken in what a NACK says of earlier flits. -/
def nacked (s : State) (n ack : Nat) (c : List (BitVec 16)) : State := s.updLink n (LinkSt.informed ack c s.now)

theorem nacked_link_other (s : State) {n k : Nat} (ack : Nat) (c : List (BitVec 16)) (h : k ≠ n) : (nacked s n ack c).link k = s.link k :=
  State.link_updLink_other s _ h

theorem nacked_link (s : State) (n ack : Nat) (c : List (BitVec 16)) : (nacked s n ack c).link n = (s.link n).informed ack c s.now :=
  State.link_updLink_same s n _

section
variable {s : State} {n ack seq : Nat} {c : List (BitVec 16)} (live : (s.link n).live = true)
  (holds : ∃ k ∈ ((s.link n).acked ack).kept, k.seq = seq)
include live holds

theorem takeNack_live : takeNack s n ack seq c = if ((s.link n).acked ack).replaysOf seq = 0 then replayFrom (nacked s n ack c) n seq
    else (timingDraw (nacked s n ack c) (1 + at_ n 4)).1.updLink n fun l => { l with
      replayWait := some (seq, s.now + (timingDraw (nacked s n ack c) (1 + at_ n 4)).2.x0.toNat % 64 * 4) } := by
  have kept : (((nacked s n ack c).link n).kept.any fun k => k.seq == seq) = true := by
    rw [nacked_link]
    show (((s.link n).acked ack).kept.any fun k => k.seq == seq) = true
    simpa using holds
  have count : ((nacked s n ack c).link n).replaysOf seq = ((s.link n).acked ack).replaysOf seq := by
    rw [nacked_link]
    rfl
  unfold takeNack
  dsimp only
  rw [if_pos live]
  show (if !(((nacked s n ack c).link n).kept.any fun k => k.seq == seq) then _ else
    if ((nacked s n ack c).link n).replaysOf seq = 0 then _ else _) = _
  rw [kept, count]
  rfl

end

theorem takeNack_dead {s : State} {n ack seq : Nat} {c : List (BitVec 16)} (dead : (s.link n).live = false)
    (other : (s.link n).state ≠ .retrain) : takeNack s n ack seq c = s := by
  simp [takeNack, dead, other]

/-- Once a port with nothing queued has replayed, it has sent again what it keeps from the SEQ on. -/
theorem replayed_drained {s : State} {n seq : Nat} (empty : (s.link n).queue = []) (live : (s.link n).live = true) :
    ((s.link n).replaying s.now seq).Resent ((s.updLink n (LinkSt.replaying s.now seq)).drained n) := by
  have resent := State.drained_resent (s := s.updLink n (LinkSt.replaying s.now seq)) (n := n)
  rw [State.link_updLink_same] at resent
  exact resent empty (LinkSt.carries_of_live live)

section
variable {n : Fin 8} {ack seq : Fin 4096} {s : State} {t : LinkSt} (port : t = { (s.link n).acked ack with lastGood := s.now })
  (live : (s.link n).live = true) (holds : ∃ k ∈ t.kept, k.seq = seq.val)
include port live holds

/-- 12 R466: the first NACK of a SEQ has its kept flits sent again at once. -/
theorem exec_nack_first (first : t.replaysOf seq = 0) (rare : (t.replayTimes.filter fun a => s.now < a + 1000000).length < 64)
    (empty : (s.link n).queue = []) : ∃ u, exec (.nack n ack seq) s = .next u ∧ (u.link n).replays = (t.replays + 1) % 2 ^ 64 ∧
      (u.link n).replaysOf seq = 1 ∧ (u.link n).state = (s.link n).state ∧ (u.link n).kept = t.kept ∧ (u.link n).again = [] ∧
      ((s.link n).slots + (t.kept.dropWhile fun k => k.seq != seq.val).length < 63 →
        (u.link n).line = (s.link n).line ++ t.kept.dropWhile fun k => k.seq != seq.val) ∧
      ∀ k, k ≠ n.val → u.link k = s.link k := by
  subst port
  obtain ⟨state, queue, slots, line⟩ := (s.link n).informed_keeps ack [] s.now
  have asked : (nacked s n ack []).link n = (s.link n).informed ack [] s.now := nacked_link s n ack []
  have once : ((nacked s n ack []).link n).replaysOf seq = 0 := by rw [asked]; exact first
  have none_ : ((nacked s n ack []).link n).queue = [] := by rw [asked, queue, empty]
  have alive : ((nacked s n ack []).link n).live = true := by simpa [asked, LinkSt.live, state] using live
  have replays : takeNack s n ack seq [] = ((nacked s n ack []).updLink n (LinkSt.replaying s.now seq)).setLink n
      (((nacked s n ack []).updLink n (LinkSt.replaying s.now seq)).drained n) := by
    rw [takeNack_live live holds, if_pos (show ((s.link n).acked ack).replaysOf seq = 0 from first),
      replayFrom_sends (by omega) (by rw [asked]; exact rare), drainPort_empty (by rw [State.link_updLink_same]; exact none_)]
    rfl
  obtain ⟨again, kept, onLine⟩ := replayed_drained (seq := seq) none_ alive
  have standing : (((nacked s n ack []).updLink n (LinkSt.replaying s.now seq)).drained n).standing =
      (((nacked s n ack []).link n).replaying s.now seq).standing := by
    rw [← State.link_updLink_same (nacked s n ack []) n (LinkSt.replaying s.now seq)]
    exact drain_standing _ _ _
  refine ⟨_, exec_nack n ack seq s, ?_⟩
  rw [replays, State.plain_link, State.link_setLink]
  refine ⟨?_, ?_, ?_, ?_, again, fun few => ?_, fun k other => ?_⟩
  · rw [LinkSt.kept_of_standing standing LinkSt.replays, asked]
    rfl
  · rw [LinkSt.kept_of_standing standing fun l => l.replaysOf seq, LinkSt.replaysOf_replaying, once]
  · rw [LinkSt.kept_of_standing standing LinkSt.state, ← state, asked]
    rfl
  · refine kept.trans ?_
    rw [asked]
    rfl
  · refine (onLine ?_).trans ?_
    · rw [asked]
      show ((s.link n).informed ack [] s.now).slots + _ < 63
      rw [slots]
      exact few
    · rw [asked]
      show ((s.link n).informed ack [] s.now).line ++ _ = _
      rw [line]
      rfl
  · rw [State.plain_link, State.link_setLink_other _ _ other, State.link_updLink_other _ _ other, nacked_link_other _ _ _ other]

/-- 12 R466: a later NACK of a SEQ has them sent again after a drawn wait. -/
theorem exec_nack_again (again : t.replaysOf seq ≠ 0) : ∃ u x, exec (.nack n ack seq) s = .next u ∧ x < 64 ∧
    (u.link n).replayWait = some (seq.val, s.now + x * 4) ∧ (u.link n).replays = t.replays ∧
    ∀ k, k ≠ n.val → u.link k = s.link k := by
  subst port
  refine ⟨_, _, exec_nack n ack seq s, Nat.mod_lt (timingDraw (nacked s n ack []) (1 + at_ n 4)).2.x0.toNat (by decide), ?_⟩
  have drawn : ∀ k, (timingDraw (nacked s n ack []) (1 + at_ n 4)).1.link k = (nacked s n ack []).link k :=
    fun k => State.link_congr rfl k
  rw [takeNack_live live holds, if_neg (show ((s.link n).acked ack).replaysOf seq ≠ 0 from again)]
  simp only [State.plain_link, State.link_updLink_same]
  refine ⟨trivial, by rw [drawn, nacked_link]; rfl, fun k other => ?_⟩
  rw [State.link_updLink_other _ _ other, drawn, nacked_link_other _ _ _ other]

end

/-! ### The end of a wait for a replay (12 R466) -/

theorem exec_replayBackoff {n : Fin 8} {s : State} {seq a : Nat} (waits : (s.link n).replayWait = some (seq, a)) :
    exec (.replayBackoff n) s = .next (State.plain s (if a ≤ s.now && (s.link n).live then
      (if (s.link n).kept.any fun k => k.seq == seq then replayFrom s n seq else s.updLink n fun l => { l with replayWait := none })
      else s)) := by
  show finishPlain s (match (s.link n).replayWait with | some (seq, t) => _ | none => s) = _
  rw [waits, finishPlain_eq]

theorem exec_replayBackoff_early {n : Fin 8} {s : State} {seq a : Nat} (waits : (s.link n).replayWait = some (seq, a))
    (early : s.now < a) : exec (.replayBackoff n) s = .next s := by
  rw [exec_replayBackoff waits, if_neg]
  · rfl
  · rw [Bool.and_eq_true, decide_eq_true_eq]
    omega

section
variable {n : Fin 8} {s : State} {seq a : Nat} (waits : (s.link n).replayWait = some (seq, a)) (passed : a ≤ s.now)
  (live : (s.link n).live = true)
include waits passed live

theorem exec_replayBackoff_gone (gone : ∀ k ∈ (s.link n).kept, k.seq ≠ seq) : exec (.replayBackoff n) s =
    .next (s.updLink n fun x => { x with replayWait := none }) := by
  rw [exec_replayBackoff waits, if_pos (by simp [passed, live]), if_neg (by simpa using gone)]
  rfl

theorem exec_replayBackoff_replays (holds : ∃ k ∈ (s.link n).kept, k.seq = seq) (few : (s.link n).replaysOf seq < 7)
    (rare : ((s.link n).replayTimes.filter fun a => s.now < a + 1000000).length < 64) : ∃ u, exec (.replayBackoff n) s = .next u ∧
      (u.link n).replays = ((s.link n).replays + 1) % 2 ^ 64 ∧ (u.link n).replayWait = none ∧
      (u.link n).state = (s.link n).state := by
  refine ⟨_, exec_replayBackoff waits, ?_⟩
  have standing := drainPort_standing (s.updLink n (LinkSt.replaying s.now seq)) n n
  rw [State.link_updLink_same] at standing
  rw [if_pos (by simp [passed, live]), if_pos (by simpa using holds), replayFrom_sends few rare, State.plain_link]
  exact ⟨LinkSt.kept_of_standing standing LinkSt.replays, LinkSt.kept_of_standing standing LinkSt.replayWait,
    LinkSt.kept_of_standing standing LinkSt.state⟩

end

/-! ### STATUS (12 R465) -/

theorem exec_status {n : Fin 8} {ack : Fin 4096} {c : List (BitVec 16)} {w : Nat} (four : c.length = 4) (byte : w < 256) (s : State) :
    exec (.status n ack c w) s = .next (State.plain s (takeStatus s n ack c)) := by
  have wf : statusWf c w = true := by simpa [statusWf, fits, four] using byte
  show checked _ _ _ = _
  rw [wf]
  rfl

section
variable {n : Fin 8} {ack : Fin 4096} {c : List (BitVec 16)} {w : Nat} {s : State} (four : c.length = 4) (byte : w < 256)
include four byte

theorem exec_status_live (live : (s.link n).live = true) (empty : (s.link n).queue = []) (again : (s.link n).again = [])
    (slots : (s.link n).slots < 63) : ∃ u, exec (.status n ack c w) s = .next u ∧
      u.link n = { (s.link n).acked ack with credBack := creditsNow (s.link n).credBack c, lastGood := s.now } ∧
      ∀ k, k ≠ n.val → u.link k = s.link k := by
  obtain ⟨-, queue, slots', -⟩ := (s.link n).informed_keeps ack c s.now
  refine ⟨_, exec_status four byte s, ?_⟩
  have idle : takeStatus s n ack c = (nacked s n ack c).setLink n ((s.link n).informed ack c s.now) := by
    rw [takeStatus, if_pos live]
    show drainPort (nacked s n ack c) n = _
    rw [drainPort_empty, State.drained_idle, nacked_link] <;> rw [nacked_link]
    · rw [queue, empty]
    · exact LinkSt.acked_again again ack
    · rw [slots']
      exact slots
    · rw [queue, empty]
  simp only [idle, State.plain_link, State.link_setLink]
  refine ⟨rfl, fun k other => ?_⟩
  rw [State.link_setLink_other _ _ other, nacked_link_other _ _ _ other]

theorem exec_status_dead (dead : (s.link n).live = false) : exec (.status n ack c w) s = .next s := by
  rw [exec_status four byte, takeStatus, if_neg (by simp [dead])]
  rfl

end

theorem exec_statusSend (n : Fin 8) (s : State) : exec (.statusSend n) s =
    .next (State.plain s (if (s.link n).live then s.updLink n (fun l => l.sendStatus n) else s)) := rfl

theorem exec_statusSend_live {n : Fin 8} {s : State} (live : (s.link n).live = true) :
    exec (.statusSend n) s = .next (s.updLink n fun _ => (s.link n).sendStatus n) := by
  rw [exec_statusSend, if_pos live]
  rfl

theorem exec_statusSend_dead {n : Fin 8} {s : State} (dead : (s.link n).live = false) : exec (.statusSend n) s = .next s := by
  rw [exec_statusSend, if_neg (by simp [dead])]
  rfl

/-! ### LINK_STATE (12 R469) -/

/-- A mask without a bit does not show that bit. -/
theorem bit_maskOff (a i : Nat) : bit (maskOff a (2 ^ i)) i = false := by
  unfold bit maskOff
  rw [Nat.and_two_pow]
  cases set_ : a.testBit i
  · simpa using set_
  · have large : 2 ^ i ≤ a := Nat.ge_two_pow_of_testBit set_
    have shown := Nat.testBit_two_pow_add_eq (a - 2 ^ i) i
    rw [Nat.add_sub_cancel' large, set_] at shown
    simpa using shown.symm

theorem setMap_mapUp (s : State) (die port : Nat) (up : Bool) : (setMap s die port up).mapUp die port = up := by
  unfold setMap State.mapUp
  dsimp only
  rw [tabGet_tabSet_same]
  cases up
  · exact bit_maskOff _ _
  · rw [if_pos rfl, Nat.add_comm, bit, Nat.testBit_two_pow_add_eq, ← bit, bit_maskOff]
    rfl

section
variable {n : Fin 8} {s : State} {src port nonce : Nat} {up : Bool} (die : src < 2 ^ 18) (package : port < 4) (word : nonce < 2 ^ 32)
include die package word

theorem exec_linkState : exec (.linkState n src port up nonce) s = .next (State.plain s (recvLinkState s n src port up nonce 0)) := by
  have wf : linkStateWf src port nonce = true := by simpa [linkStateWf, fits] using ⟨⟨die, package⟩, word⟩
  show checked _ _ _ = _
  rw [wf]
  rfl

theorem exec_linkState_seen (seen : (src, nonce) ∈ s.net.seen) : exec (.linkState n src port up nonce) s = .next s := by
  rw [exec_linkState die package word, recvLinkState, if_pos (by simpa using seen)]
  rfl

/-- 12 R469: a flood that has not been seen sets the map's bit of its port. -/
theorem exec_linkState_new (new : (src, nonce) ∉ s.net.seen) : ∃ t, exec (.linkState n src port up nonce) s = .next t ∧
    t.mapUp src port = up ∧ t.net.seen = s.net.seen ++ [(src, nonce)] ∧ t.net.inbox = s.net.inbox := by
  refine ⟨_, exec_linkState die package word, ?_⟩
  rw [recvLinkState, if_neg (by simpa using new)]
  dsimp only
  obtain ⟨links, floods⟩ := floodOn_form (setMap { s with net := { s.net with seen := s.net.seen ++ [(src, nonce)] } } src port up)
    { dest := src, src, flood := true, hops := 0 + 1, body := .linkState port up nonce } (some n)
  rw [floods]
  exact ⟨setMap_mapUp _ src port up, rfl, rfl⟩

end

/-- Settles O56: what each flit, and each link flit, does to the port that takes it. -/
theorem flitsAreAcknowledgedAndReplayed : Obligations.FlitsAreAcknowledgedAndReplayed := by
  unfold Obligations.FlitsAreAcknowledgedAndReplayed
  rintro n s l rfl
  refine ⟨fun lane sb data whole => ⟨fun bad => ⟨exec_flit_bad_dead whole bad, exec_flit_bad whole bad⟩,
      fun good sequenced live => ⟨exec_flit_next whole good sequenced live, fun _ => exec_flit_behind whole good sequenced live⟩⟩,
    fun ack seq t port => ⟨fun live holds => ⟨exec_nack_first port live holds, exec_nack_again port live holds⟩,
      fun dead other => ?dead⟩,
    fun seq a waits => ⟨exec_replayBackoff_early waits, exec_replayBackoff_gone waits, exec_replayBackoff_replays waits⟩,
    fun ack c w four byte => ⟨exec_status_live four byte, exec_status_dead four byte⟩,
    exec_statusSend_live, exec_statusSend_dead,
    fun src port nonce up die package word => ⟨exec_linkState_seen die package word, exec_linkState_new die package word⟩⟩
  case dead =>
    rw [exec_nack, takeNack_dead dead other]
    rfl

end Sys2Proof.Machine
end
section
/-! PROOFS. Wire forms (12 R459-R461, R465): fields and sidebands read back, a message flit by flit, STATUS, NACK and TRAIN. -/

namespace Sys2Proof.Machine

/-! ### Bytes and fields (00 R8, R9) -/

theorem bits_eq (x lo w : Nat) : bits x lo w = x / 2 ^ lo % 2 ^ w := by rw [bits, Nat.shiftRight_eq_div_pow]

theorem at_eq (v lo : Nat) : at_ v lo = v * 2 ^ lo := Nat.shiftLeft_eq v lo

theorem bit_eq (x i : Nat) : bit x i = decide (x / 2 ^ i % 2 = 1) := Nat.testBit_eq_decide_div_mod_eq

/-- The bytes of a number give the number back. -/
theorem leNat_leBytes (n x : Nat) : leNat (leBytes n x) = x % 256 ^ n := by
  induction n generalizing x with
  | zero => simp [leBytes, leNat, Nat.mod_one]
  | succ n ih =>
    rw [leBytes, leNat, ih, BitVec.toNat_ofNat, Nat.pow_succ' (m := 256), Nat.mod_mul (x := x) (a := 256)]

@[simp] theorem length_slice (bs : List Byte) (off n : Nat) : (slice bs off n).length = n := by
  simp only [slice, List.length_append, List.length_replicate, List.length_take]
  omega

/-- Bytes that are all there. -/
theorem slice_within {bs : List Byte} {off n : Nat} (inside : off + n ≤ bs.length) : slice bs off n = (bs.drop off).take n := by
  have whole : ((bs.drop off).take n).length = n := by
    rw [List.length_take, List.length_drop]
    omega
  simp [slice, whole]

/-- The first bytes of two parts, past the first part. -/
theorem slice_append (a b : List Byte) (k : Nat) : slice (a ++ b) 0 (a.length + k) = a ++ slice b 0 k := by
  simp only [slice, List.drop_zero, List.take_append, List.length_append, List.append_assoc, List.length_take]
  rw [List.take_of_length_le (by omega), Nat.add_sub_cancel_left]
  congr 3
  omega

/-- A field of the first of two parts. -/
theorem field_append_left {a : List Byte} (b : List Byte) {off n : Nat} (inside : off + n ≤ a.length) :
    field (a ++ b) off n = field a off n := by
  rw [field, field, slice_within inside, slice_within (by rw [List.length_append]; omega), List.drop_append_of_le_length (by omega),
    List.take_append_of_le_length (by rw [List.length_drop]; omega)]

/-- A field of the second of two parts. -/
theorem field_append_right {a : List Byte} (b : List Byte) {off n : Nat} (past : a.length ≤ off) :
    field (a ++ b) off n = field b (off - a.length) n := by
  rw [field, field, slice, slice, List.drop_append, List.drop_eq_nil_of_le past, List.nil_append]

theorem field_leBytes (n x : Nat) (b : List Byte) : field (leBytes n x ++ b) 0 n = x % 256 ^ n := by
  have inside : 0 + n ≤ (leBytes n x).length := by rw [length_leBytes, Nat.zero_add]
  rw [field_append_left b inside, field, slice_within inside, List.drop_zero, List.take_of_length_le (by rw [length_leBytes]),
    leNat_leBytes]

/-- A field past a number's bytes. -/
theorem field_skip {k off : Nat} (x n : Nat) (b : List Byte) (past : k ≤ off) :
    field (leBytes k x ++ b) off n = field b (off - k) n := by
  rw [field_append_right b (by rwa [length_leBytes]), length_leBytes]

/-! ### Sidebands (12 R459) -/

theorem crc16_lt (bs : List Byte) : crc16 bs < 65536 := BitVec.isLt _

section
variable {low : Nat} (data : List Byte) (fits : low < 65536)
include fits

theorem sidebandOf_low : sidebandOf data low % 65536 = low := by
  rw [sidebandOf, at_eq]
  omega

/-- A flit as it goes out passes its CRC. -/
theorem sidebandOf_fits : flitFits (sidebandOf data low) data := by
  have crc := crc16_lt (data ++ leBytes 2 low)
  rw [flitFits, sidebandOf_low data fits, sidebandOf, bits_eq, at_eq]
  omega

/-- What a sideband says below its CRC. -/
theorem bits_sidebandOf {lo w : Nat} (below : lo + w ≤ 16) : bits (sidebandOf data low) lo w = bits low lo w := by
  have divides : 2 ^ lo * 2 ^ w ∣ 65536 := by
    rw [← Nat.pow_add]
    exact Nat.pow_dvd_pow 2 below
  have same : low % (2 ^ lo * 2 ^ w) = sidebandOf data low % (2 ^ lo * 2 ^ w) := by
    rw [← Nat.mod_mod_of_dvd (sidebandOf data low) divides, sidebandOf_low data fits]
  rw [bits_eq, bits_eq, ← Nat.mod_mul_right_div_self, ← same, Nat.mod_mul_right_div_self]

theorem bit_sidebandOf {i : Nat} (below : i < 16) : bit (sidebandOf data low) i = bit low i := by
  have same := bits_sidebandOf data fits (lo := i) (w := 1) (by omega)
  rw [bits_eq, bits_eq, Nat.pow_one] at same
  rw [bit_eq, bit_eq, same]

end

/-- The low half of a kept flit's sideband: VC, LAST and SEQ. -/
def keptLow (vc : Nat) (last : Bool) (seq : Nat) : Nat := vc + at_ (b1 last) 3 + at_ seq 4

section
variable {vc seq : Nat} (last : Bool) (channel : vc < 4) (window : seq < 4096)
include channel window

theorem keptLow_fields : keptLow vc last seq < 65536 ∧ bits (keptLow vc last seq) 0 2 = vc ∧ bit (keptLow vc last seq) 2 = false ∧
    bit (keptLow vc last seq) 3 = last ∧ bits (keptLow vc last seq) 4 12 = seq := by
  have form : keptLow vc last seq = vc + b1 last * 2 ^ 3 + seq * 2 ^ 4 := by rw [keptLow, at_eq, at_eq]
  simp only [bits_eq, bit_eq, form]
  cases last <;> simp only [b1, if_true, if_false, Bool.false_eq_true, decide_eq_true_eq, decide_eq_false_iff_not] <;> omega

end

/-! ### The bytes of a message (12 R460) -/

theorem length_routeBytes (m : Msg) : (routeBytes m).length = 16 := by simp [routeBytes]

theorem length_msgBytes (m : Msg) : (msgBytes m).length = 64 * bodyFlits m.body := length_slice _ _ _

/-- The bytes of a message's flits past its route header. -/
def flitBody (m : Msg) : List Byte := slice (bodyBytes m.body) 0 (64 * bodyFlits m.body - 16)

theorem msgBytes_eq {m : Msg} (some_ : 1 ≤ bodyFlits m.body) : msgBytes m = routeBytes m ++ flitBody m := by
  have whole : 64 * bodyFlits m.body = (routeBytes m).length + (64 * bodyFlits m.body - 16) := by
    rw [length_routeBytes]
    omega
  rw [msgBytes, whole, slice_append]
  rfl

/-- A route header as it is read back, whatever follows it. -/
structure HeaderRead (m : Msg) (bs : List Byte) : Prop where
  dest : bits (field bs 0 4) 0 18 = m.dest
  order : bit (field bs 0 4) 18 = m.order
  flood : bit (field bs 0 4) 19 = false
  src : bits (field bs 4 4) 0 18 = m.src
  type : field bs 0x0A 1 = bodyType m.body
  hops : field bs 0x0B 1 = m.hops

theorem routeBytes_read {m : Msg} (dest : m.dest < 2 ^ 18) (src : m.src < 2 ^ 18) (flood : m.flood = false) (hops : m.hops < 64)
    (type : bodyType m.body ≤ 12) (bs : List Byte) : HeaderRead m (routeBytes m ++ bs) := by
  have word : field (routeBytes m ++ bs) 0 4 = m.dest + b1 m.order * 2 ^ 18 := by
    have order : b1 m.order < 2 := by cases m.order <;> decide
    simp only [routeBytes, List.append_assoc, field_leBytes, flood, at_eq, Bool.false_eq_true, if_false, show b1 false = 0 from rfl]
    omega
  have order : bits (m.dest + b1 m.order * 2 ^ 18) 0 18 = m.dest ∧ bit (m.dest + b1 m.order * 2 ^ 18) 18 = m.order ∧
      bit (m.dest + b1 m.order * 2 ^ 18) 19 = false := by
    simp only [bits_eq, bit_eq]
    cases m.order <;> simp only [b1, if_true, if_false, Bool.false_eq_true, decide_eq_true_eq, decide_eq_false_iff_not] <;> omega
  obtain ⟨dest', order', flood'⟩ := order
  refine ⟨by rw [word, dest'], by rw [word, order'], by rw [word, flood'], ?_, ?_, ?_⟩
  · simp only [routeBytes, List.append_assoc]
    rw [field_skip _ _ _ (by decide), Nat.sub_self, field_leBytes, bits_eq]
    omega
  · simp only [routeBytes, List.append_assoc]
    rw [field_skip _ _ _ (by decide), field_skip _ _ _ (by decide), field_skip _ _ _ (by decide)]
    rw [field_leBytes]
    omega
  · simp only [routeBytes, List.append_assoc]
    rw [field_skip _ _ _ (by decide), field_skip _ _ _ (by decide), field_skip _ _ _ (by decide), field_skip _ _ _ (by decide)]
    rw [field_leBytes]
    omega
/-! ### Messages for this die (12 R460) -/

theorem HeaderRead.good {m : Msg} {bs : List Byte} (read : HeaderRead m bs) (type : bodyType m.body ≤ 12) (hops : m.hops < 64) :
    badMessage bs = false := by
  rw [badMessage, read.type, read.hops]
  simpa using ⟨type, hops⟩

/-- A message for this die does not pass on. -/
theorem HeaderRead.stays {m : Msg} {bs : List Byte} (read : HeaderRead m bs) {s : State} (mine : m.dest = s.me) :
    s.transits bs = false := by
  simp [State.transits, read.dest, mine]

/-- The message as it stands once it has arrived. -/
def Msg.received (m : Msg) (vc : Nat) (bs : List Byte) : Msg :=
  { dest := m.dest, src := m.src, order := m.order, hops := m.hops, body := .raw vc (bodyType m.body) bs }

theorem takeMessage_kept {m : Msg} {bs : List Byte} (read : HeaderRead m bs) (type : bodyType m.body ≤ 12) (hops : m.hops < 64)
    (s : State) (n vc : Nat) : takeMessage s n vc bs = { s with net := { s.net with
      inbox := s.net.inbox ++ [{ msg := m.received vc bs, from_ := some (n, vc, bs.length / 64) }] } } := by
  unfold takeMessage
  dsimp only
  rw [read.good type hops, read.flood, rawMsg, read.dest, read.src, read.order, read.type, read.hops]
  rfl

/-- A message that has arrived carries the body that was sent. -/
theorem Msg.received_carries {m : Msg} (some_ : 1 ≤ bodyFlits m.body) (vc : Nat) :
    (m.received vc (msgBytes m)).carries m.src m.body = true := by
  have body : bodyBytes (m.received vc (msgBytes m)).body = flitBody m := by
    show (msgBytes m).drop 16 = flitBody m
    rw [msgBytes_eq some_, ← length_routeBytes m, List.drop_left]
  have type : bodyType (m.received vc (msgBytes m)).body = bodyType m.body := rfl
  have src : (m.received vc (msgBytes m)).src = m.src := rfl
  rw [Msg.carries, body, type, src, flitBody, length_slice]
  simp

/-! ### Flits in sequence, one after the other (12 R459, R464) -/

/-- From `s`, the port has received the bytes `bs` of a message on a VC, and expects `seq` next; only the ports have changed. -/
structure State.Received (s t : State) (n vc : Nat) (bs : List Byte) (seq : Nat) : Prop where
  rest : ∃ links, t = { s with links }
  live : (t.link n).live = true
  seq : (t.link n).rxSeq = seq
  parts : (t.link n).parts vc = bs

section
variable {s t : State} {n lane vc seq : Nat} {last : Bool} {bs data : List Byte} (received : s.Received t n vc bs seq)
  (channel : vc < 4) (window : seq < 4096)
include received

theorem State.Received.me : t.me = s.me := by
  obtain ⟨_, form⟩ := received.rest
  rw [form]
  rfl

theorem State.Received.accepted (last : Bool) (data : List Byte) : s.Received (flitAccepted (flitHeard t n) n vc last data) n vc
    (if last then [] else bs ++ data) ((seq + 1) % 4096) := by
  obtain ⟨_, form⟩ := received.rest
  have port : (flitAccepted (flitHeard t n) n vc last data).link n =
      ({ t.link n with lastGood := t.now } : LinkSt).accepting vc last (bs ++ data) := by
    rw [flitAccepted_link, flitHeard_link]
    exact congrArg (fun x => LinkSt.accepting vc last (x ++ data) _) received.parts
  refine ⟨⟨_, by rw [form]; rfl⟩, ?_, ?_, ?_⟩
  · rw [port]
    exact received.live
  · rw [port, ← received.seq]
    rfl
  · rw [port]
    exact LinkSt.accepting_parts vc last _ _

include channel window

/-- The wire form of a kept flit in sequence is accepted. -/
theorem State.Received.takes : takeFlit t n lane (sidebandOf data (keptLow vc last seq)) data =
    acceptFlit (flitHeard t n) n vc last data := by
  obtain ⟨small, vc', sequenced, last', seq'⟩ := keptLow_fields last channel window
  rw [takeFlit_next (sidebandOf_fits data small) (by rw [bit_sidebandOf data small (by decide), sequenced]) received.live
      (by rw [bits_sidebandOf data small (by decide), seq', received.seq]),
    bits_sidebandOf data small (by decide), vc', bit_sidebandOf data small (by decide), last']

variable {m : Msg} (read : HeaderRead m (bs ++ data)) (mine : m.dest = s.me)
include read mine

/-- Where the flit is one of a message for this die, the port holds it, and hands over the message with its last flit. -/
theorem State.Received.keeps : takeFlit t n lane (sidebandOf data (keptLow vc last seq)) data =
    if last then takeMessage (flitAccepted (flitHeard t n) n vc true data) n vc (bs ++ data)
    else flitAccepted (flitHeard t n) n vc false data := by
  have parts : ((flitHeard t n).link n).parts vc = bs := by
    rw [flitHeard_link]
    exact received.parts
  have stays : (flitAccepted (flitHeard t n) n vc last data).transits (bs ++ data) = false :=
    read.stays (mine.trans received.me.symm)
  rw [received.takes channel window, acceptFlit_eq, parts, stays]
  cases last <;> rfl

end

/-- A port takes flit `i` of a message that its peer sends from the SEQ `seq` on. -/
def takeKept (n lane : Nat) (m : Msg) (seq vc : Nat) (s : State) (i : Nat) : State :=
  takeFlit s n lane (sidebandOf (slice (msgBytes m) (64 * i) 64) (keptLow vc (i + 1 == bodyFlits m.body) ((seq + i) % 4096)))
    (slice (msgBytes m) (64 * i) 64)

section
variable {n lane : Nat} {s : State} {m : Msg} {seq vc : Nat} (dest : m.dest < 2 ^ 18) (src : m.src < 2 ^ 18)
  (flood : m.flood = false) (hops : m.hops < 64) (type : bodyType m.body ≤ 12)

/-- The flits of a message before flit `i` and flit `i` itself. -/
theorem take_flit {i : Nat} (inside : i < bodyFlits m.body) : (msgBytes m).take (64 * i) ++ slice (msgBytes m) (64 * i) 64 =
    (msgBytes m).take (64 * (i + 1)) := by
  rw [slice_within (by rw [length_msgBytes]; omega), Nat.mul_add, List.take_add]

include dest src flood hops type

/-- Every flit of a message shows its header with those before it. -/
theorem take_flit_read {i : Nat} (inside : i < bodyFlits m.body) :
    HeaderRead m ((msgBytes m).take (64 * i) ++ slice (msgBytes m) (64 * i) 64) := by
  have header : (msgBytes m).take (64 * (i + 1)) = routeBytes m ++ (flitBody m).take (64 * (i + 1) - 16) := by
    rw [msgBytes_eq (by omega), List.take_append, length_routeBytes, List.take_of_length_le (by rw [length_routeBytes]; omega)]
  rw [take_flit inside, header]
  exact routeBytes_read dest src flood hops type _

variable (live : (s.link n).live = true) (next : (s.link n).rxSeq = seq) (window : seq < 4096) (channel : vc < 4)
  (fresh : (s.link n).parts vc = []) (mine : m.dest = s.me)
include live next window channel fresh mine

/-- Before the last flit the port holds what has come of the message. -/
theorem takeKept_part (i : Nat) (inside : i < bodyFlits m.body) : s.Received ((List.range i).foldl (takeKept n lane m seq vc) s) n vc
    ((msgBytes m).take (64 * i)) ((seq + i) % 4096) := by
  induction i with
  | zero => exact ⟨⟨_, rfl⟩, live, next.trans (Nat.mod_eq_of_lt window).symm, fresh⟩
  | succ i ih =>
    have before := ih (by omega)
    have part : (i + 1 == bodyFlits m.body) = false := by simpa using Nat.ne_of_lt inside
    rw [List.range_succ, List.foldl_append, List.foldl_cons, List.foldl_nil, takeKept, part,
      before.keeps channel (Nat.mod_lt _ (by decide)) (take_flit_read dest src flood hops type (by omega)) mine,
      if_neg Bool.false_ne_true, ← take_flit (by omega), ← Nat.add_assoc, ← Nat.mod_add_mod]
    exact before.accepted false _

/-- 12 R460, R464: with its last flit the message stands whole among those that have arrived. -/
theorem takeKept_whole (some_ : 1 ≤ bodyFlits m.body) : ∃ t, (List.range (bodyFlits m.body)).foldl (takeKept n lane m seq vc) s = t ∧
    t.net = { s.net with inbox := s.net.inbox ++ [{ msg := m.received vc (msgBytes m), from_ := some (n, vc, bodyFlits m.body) }] } ∧
    (t.link n).rxSeq = (seq + bodyFlits m.body) % 4096 ∧ (t.link n).parts vc = [] := by
  obtain ⟨i, flits⟩ : ∃ i, bodyFlits m.body = i + 1 := ⟨_, (Nat.sub_add_cancel some_).symm⟩
  have before := takeKept_part dest src flood hops type live next window channel fresh mine (lane := lane) i (by omega)
  have read := take_flit_read dest src flood hops type (i := i) (by omega)
  have whole : (msgBytes m).take (64 * i) ++ slice (msgBytes m) (64 * i) 64 = msgBytes m := by
    rw [take_flit (by omega), List.take_of_length_le (by rw [length_msgBytes, flits])]
  have last : (i + 1 == bodyFlits m.body) = true := by simp [flits]
  have after := before.accepted true (slice (msgBytes m) (64 * i) 64)
  obtain ⟨_, form⟩ := after.rest
  refine ⟨_, rfl, ?_⟩
  rw [flits, List.range_succ, List.foldl_append, List.foldl_cons, List.foldl_nil, takeKept, last,
    before.keeps channel (Nat.mod_lt _ (by decide)) read mine, if_pos rfl, whole, takeMessage_kept (whole ▸ read) type hops,
    length_msgBytes, Nat.mul_div_cancel_left _ (by decide), flits]
  refine ⟨by rw [form], ?_, after.parts⟩
  rw [← Nat.add_assoc, ← Nat.mod_add_mod]
  exact after.seq

end

/-! ### Link flits (12 R465) -/

theorem takeFlit_linkFlit (s : State) (n lane : Nat) (data : List Byte) :
    takeFlit s n lane (sidebandOf data 4) data = takeLinkFlit (flitHeard s n) n lane data :=
  takeFlit_link (sidebandOf_fits data (by decide)) (by rw [bit_sidebandOf data (by decide) (by decide)]; decide)

/-- The data of a STATUS or a NACK. -/
def LinkFlit.ackData (x : LinkFlit) : List Byte :=
  leBytes 1 x.kind ++ (leBytes 1 0 ++ (leBytes 2 x.ack ++ (leBytes 2 x.nack ++ (leBytes 2 0 ++
    (x.credits.flatMap (leBytes 2) ++ (leBytes 1 x.width ++ leBytes 47 0))))))

/-- The data of a TRAIN flit. -/
def LinkFlit.trainData (x : LinkFlit) (port die : Nat) (check : W64) : List Byte :=
  leBytes 1 2 ++ (leBytes 1 port ++ (leBytes 1 x.stage ++ (leBytes 1 0 ++ (leBytes 4 die ++ (leBytes 8 check.toNat ++
    (leBytes 1 x.ready ++ (leBytes 1 x.width ++ (leBytes 1 x.count ++ leBytes 45 0))))))))

theorem LinkFlit.wire_ack {x : LinkFlit} (kind : x.kind ≠ 2) (four : x.credits.length = 4) (port die : Nat) (check : W64) :
    x.wire port die check = (x.ackData, sidebandOf x.ackData 4) := by
  have whole : slice (x.credits.flatMap (leBytes 2)) 0 8 = x.credits.flatMap (leBytes 2) := by
    have length : (x.credits.flatMap (leBytes 2)).length = 8 := by simp [List.length_flatMap, four]
    rw [← length, slice_whole]
  have data : x.ackData = leBytes 1 x.kind ++ leBytes 1 0 ++ leBytes 2 x.ack ++ leBytes 2 x.nack ++ leBytes 2 0 ++
      slice (x.credits.flatMap (leBytes 2)) 0 8 ++ leBytes 1 x.width ++ leBytes 47 0 := by
    simp only [ackData, whole, List.append_assoc]
  rw [data, wire, if_neg (by simpa using kind)]

theorem LinkFlit.wire_train {x : LinkFlit} (kind : x.kind = 2) (port die : Nat) (check : W64) :
    x.wire port die check = (x.trainData port die check, sidebandOf (x.trainData port die check) 4) := by
  have data : x.trainData port die check = leBytes 1 2 ++ leBytes 1 port ++ leBytes 1 x.stage ++ leBytes 1 0 ++ leBytes 4 die ++
      leBytes 8 check.toNat ++ leBytes 1 x.ready ++ leBytes 1 x.width ++ leBytes 1 x.count ++ leBytes 45 0 := by
    simp only [trainData, List.append_assoc]
  rw [data, wire, if_pos (by simpa using kind)]

/-- Credit `i` of the four that a link flit carries. -/
theorem field_credits {cs : List Nat} (b : List Byte) {i : Nat} (inside : i < cs.length) (small : ∀ c ∈ cs, c < 65536) :
    field (cs.flatMap (leBytes 2) ++ b) (2 * i) 2 = cs[i] := by
  induction cs generalizing i with
  | nil => cases inside
  | cons c cs ih =>
    rw [List.flatMap_cons, List.append_assoc]
    cases i with
    | zero =>
      rw [Nat.mul_zero, field_leBytes]
      exact Nat.mod_eq_of_lt (small c List.mem_cons_self)
    | succ i =>
      rw [field_skip _ _ _ (by omega)]
      exact ih (Nat.lt_of_succ_lt_succ inside) fun d mem => small d (List.mem_cons_of_mem c mem)

section
variable {x : LinkFlit} (ack : x.ack < 4096) (nack : x.nack < 4096) (kind : x.kind < 256)

include ack in
theorem LinkFlit.ackData_ack : bits (field x.ackData 2 2) 0 12 = x.ack := by
  rw [ackData, field_skip _ _ _ (by decide), field_skip _ _ _ (by decide), field_leBytes, bits_eq]
  omega

include nack in
theorem LinkFlit.ackData_nack : bits (field x.ackData 4 2) 0 12 = x.nack := by
  rw [ackData, field_skip _ _ _ (by decide), field_skip _ _ _ (by decide), field_skip _ _ _ (by decide), field_leBytes, bits_eq]
  omega

include kind in
theorem LinkFlit.ackData_kind : field x.ackData 0 1 = x.kind := by
  rw [ackData, field_leBytes]
  omega

theorem LinkFlit.ackData_credits (four : x.credits.length = 4) (small : ∀ c ∈ x.credits, c < 65536) :
    ((List.range 4).map fun i => BitVec.ofNat 16 (field x.ackData (8 + 2 * i) 2)) = x.credits.map (BitVec.ofNat 16) := by
  refine List.ext_getElem (by simp [four]) fun i inside inside' => ?_
  rw [List.length_map] at inside'
  rw [List.getElem_map, List.getElem_range, List.getElem_map, ackData]
  rw [field_skip _ _ _ (by omega), field_skip _ _ _ (by omega), field_skip _ _ _ (by omega), field_skip _ _ _ (by omega),
    field_skip _ _ _ (by omega), show 8 + 2 * i - 1 - 1 - 2 - 2 - 2 = 2 * i by omega, field_credits _ inside' small]

end

/-- What a TRAIN flit says. -/
theorem LinkFlit.trainData_fields (x : LinkFlit) (port die : Nat) (check : W64) :
    field (x.trainData port die check) 0 1 = 2 ∧ field (x.trainData port die check) 1 1 = port % 256 ∧
    field (x.trainData port die check) 4 4 = die % 2 ^ 32 ∧ field (x.trainData port die check) 8 8 = check.toNat % 2 ^ 64 ∧
    field (x.trainData port die check) 0x10 1 = x.ready % 256 ∧ field (x.trainData port die check) 0x11 1 = x.width % 256 ∧
    field (x.trainData port die check) 0x12 1 = x.count % 256 := by
  simp (disch := decide) only [trainData, field_skip, Nat.reduceSub, field_leBytes, Nat.reducePow, Nat.reduceMod, and_self]

/-- The wire forms of STATUS and NACK. -/
theorem takeFlit_ackData {x : LinkFlit} (kind : x.kind = 0 ∨ x.kind = 1) (ack : x.ack < 4096) (nack : x.nack < 4096)
    (four : x.credits.length = 4) (small : ∀ c ∈ x.credits, c < 65536) (s : State) (n lane port die : Nat) (check : W64) :
    takeFlit s n lane (x.wire port die check).2 (x.wire port die check).1 =
      if x.kind = 0 then takeStatus (flitHeard s n) n x.ack (x.credits.map (BitVec.ofNat 16))
      else takeNack (flitHeard s n) n x.ack x.nack (x.credits.map (BitVec.ofNat 16)) := by
  rw [LinkFlit.wire_ack (by omega) four, takeFlit_linkFlit]
  unfold takeLinkFlit
  dsimp only
  rw [LinkFlit.ackData_kind (by omega), LinkFlit.ackData_ack ack, LinkFlit.ackData_nack nack, LinkFlit.ackData_credits four small]
  rcases kind with kind | kind <;> rw [kind] <;> rfl

/-- The wire form of TRAIN, on the lowest ready lane group. -/
theorem takeFlit_trainData {x : LinkFlit} (kind : x.kind = 2) {port die : Nat} (small : port < 8) (site : die < 2 ^ 18)
    (ready : x.ready < 16) (width : x.width < 256) (count : x.count < 256) {s : State} {n lane : Nat}
    (lowest : lane ∈ (s.link n).lowest) (check : W64) :
    takeFlit s n lane (x.wire port die check).2 (x.wire port die check).1 =
      takeTrain (flitHeard s n) n { port, die, idCheck := check, ready := x.ready, width := x.width, count := x.count } := by
  have heard : ((flitHeard s n).link n).lowest.contains lane = true := by
    rw [flitHeard_link]
    simpa [LinkSt.lowest] using lowest
  have die' : bits (die % 2 ^ 32) 0 18 = die := by
    rw [bits_eq]
    omega
  have check' : BitVec.ofNat 64 (check.toNat % 2 ^ 64) = check := by
    rw [Nat.mod_eq_of_lt check.isLt, BitVec.ofNat_toNat, BitVec.setWidth_eq]
  obtain ⟨typeRead, portRead, dieRead, checkRead, readyRead, widthRead, countRead⟩ := x.trainData_fields port die check
  rw [LinkFlit.wire_train kind, takeFlit_linkFlit]
  unfold takeLinkFlit
  dsimp only
  rw [typeRead, portRead, dieRead, checkRead, readyRead, widthRead, countRead, heard, die', check', Nat.mod_eq_of_lt (by omega),
    Nat.mod_eq_of_lt (by omega), Nat.mod_eq_of_lt width, Nat.mod_eq_of_lt count]
  rfl

/-- Settles O57: a message flit by flit, and each link flit by its fields. -/
theorem wireFormsAreReadBack : Obligations.WireFormsAreReadBack := by
  unfold Obligations.WireFormsAreReadBack
  refine ⟨?message, ?acks, ?trains⟩
  case message =>
    intro n lane s m seq vc live next window _ channel fresh mine dest src flood hops type some_ _ _
    obtain ⟨t, taken, net, rxSeq, parts⟩ :=
      takeKept_whole dest src flood hops type live next window channel fresh mine (lane := lane) some_
    rw [List.foldl_map]
    exact ⟨t, taken, net, rxSeq, parts, m.received_carries some_ vc⟩
  case acks =>
    rintro n lane s _ x port die check rfl ack nack _ four small
    refine ⟨fun kind => ?_, fun kind => ?_⟩
    · rw [takeFlit_ackData (.inl kind) ack nack four small, if_pos kind]
      rfl
    · rw [takeFlit_ackData (.inr kind) ack nack four small, if_neg (by omega)]
      rfl
  case trains =>
    rintro n lane s _ x port die check rfl lowest kind small site _ ready width count
    exact takeFlit_trainData kind small site ready width count lowest check

end Sys2Proof.Machine
end
section
/-! PROOFS. Fabric responses and timeouts (12 R454, R456, R457; 03 R106; 04 R165): what leaves the transfers on their way, the HEADs and the
groups as they are, how a transfer fails, and the record at HEAD. -/

namespace Sys2Proof.Machine

/-! ### A siphon but for what waits there (04 R140-R145; 12 R454) -/

/-- A siphon but for its waiting transfers, their credits and the time of its last record: what its requests and responses have made
of it. -/
def SiphonSt.settled (p : SiphonSt) : SiphonSt := { p with waiting := [], credR := 0, credW := 0, credM := 0, linkRecAt := none }

/-- What `settled` keeps can be read off it. -/
theorem SiphonSt.kept_of_settled {α : Type} {p r : SiphonSt} (h : r.settled = p.settled) (f : SiphonSt → α)
    (reads : ∀ x : SiphonSt, f x.settled = f x := by intro _; rfl) : f r = f p := by
  rw [← reads r, h, reads]

theorem State.siphon_congr {s t : State} (h : t.siphons = s.siphons) (i : Nat) : t.siphon i = s.siphon i := by
  rw [State.siphon, State.siphon, h]

@[simp] theorem State.siphon_updSiphon_same (s : State) (i : Nat) (f : SiphonSt → SiphonSt) :
    (s.updSiphon i f).siphon i = f (s.siphon i) := State.siphon_setSiphon s i _

/-- A fact that an update of a siphon keeps holds of every siphon afterwards. -/
theorem State.siphon_updSiphon_keeps {β : Type} {s : State} {i : Nat} {f : SiphonSt → SiphonSt} {p : SiphonSt → β}
    (keep : p (f (s.siphon i)) = p (s.siphon i)) (j : Nat) : p ((s.updSiphon i f).siphon j) = p (s.siphon j) := by
  by_cases e : j = i
  · rw [e, State.siphon_updSiphon_same, keep]
  · exact congrArg p (State.siphon_setSiphon_other s _ e)

/-! ### What leaves transfers and groups as they are -/

/-- Transfers may come to wait; of those that are on their way, and of the groups, nothing changes, and no queue's HEAD moves. -/
structure State.OnlyWaits (s t : State) : Prop where
  groups : t.groups = s.groups
  head : ∀ q, (t.queue q).head = (s.queue q).head
  siphon : ∀ i, (t.siphon i).settled = (s.siphon i).settled

namespace State.OnlyWaits

theorem refl (s : State) : s.OnlyWaits s := ⟨rfl, fun _ => rfl, fun _ => rfl⟩

theorem trans {s t u : State} (h : s.OnlyWaits t) (k : t.OnlyWaits u) : s.OnlyWaits u :=
  ⟨k.groups.trans h.groups, fun q => (k.head q).trans (h.head q), fun i => (k.siphon i).trans (h.siphon i)⟩

theorem ite {s t u : State} {c : Prop} [Decidable c] (yes : s.OnlyWaits t) (no : s.OnlyWaits u) : s.OnlyWaits (if c then t else u) := by
  split
  · exact yes
  · exact no

theorem foldl {α : Type} {f : State → α → State} (h : ∀ t a, State.OnlyWaits t (f t a)) (l : List α) (s : State) :
    s.OnlyWaits (l.foldl f s) :=
  List.foldlRecOn (motive := fun t => s.OnlyWaits t) l f (.refl s) fun t kept a _ => kept.trans (h t a)

/-- Changes of other units. -/
theorem of_same {s t : State} (groups : t.groups = s.groups) (queues : t.queues = s.queues) (siphons : t.siphons = s.siphons) :
    s.OnlyWaits t :=
  ⟨groups, fun q => congrArg QueueSt.head (State.queue_congr queues q),
    fun i => congrArg SiphonSt.settled (State.siphon_congr siphons i)⟩

/-- What follows changes of other units. -/
theorem after {s t u : State} (k : t.OnlyWaits u) (groups : t.groups = s.groups := by rfl) (queues : t.queues = s.queues := by rfl)
    (siphons : t.siphons = s.siphons := by rfl) : s.OnlyWaits u :=
  (of_same groups queues siphons).trans k

theorem updQueue (s : State) (q : Nat) {f : QueueSt → QueueSt} (head : (f (s.queue q)).head = (s.queue q).head) :
    s.OnlyWaits (s.updQueue q f) where
  groups := rfl
  head p := by
    by_cases e : p = q
    · rw [e, State.queue_updQueue_same, head]
    · rw [State.queue_updQueue_other s f e]
  siphon _ := rfl

theorem updSiphon (s : State) (i : Nat) {f : SiphonSt → SiphonSt} (same : (f (s.siphon i)).settled = (s.siphon i).settled) :
    s.OnlyWaits (s.updSiphon i f) := ⟨rfl, fun _ => rfl, State.siphon_updSiphon_keeps same⟩

theorem enqueue (s : State) (i : Nat) (x : Xfer) : s.OnlyWaits (enqueue s i x) := .updSiphon s i rfl

theorem enqueueRead (s : State) (queue addr len : Nat) (via : Nat → Nat) (pur : Nat → Purpose) :
    s.OnlyWaits (enqueueRead s queue addr len via pur) := .foldl (fun t _ => .enqueue t _ _) _ s

theorem enqueueWrite (s : State) (cls queue addr : Nat) (data : List Byte) (via : Nat → Nat) (pur : Nat → Purpose) :
    s.OnlyWaits (enqueueWrite s cls queue addr data via pur) := .foldl (fun t _ => .enqueue t _ _) _ s

theorem sendTo (s : State) (dest : Nat) (b : Body) : s.OnlyWaits (sendTo s dest b) := by
  obtain ⟨_, sent⟩ := sendTo_form s dest b
  rw [sent]
  exact .of_same rfl rfl rfl

end State.OnlyWaits

/-! ### Records (11 R418; 12 R457) -/

theorem ringRecord_onlyWaits (s : State) (bs : List Byte) : s.OnlyWaits (ringRecord s true bs) := by
  have pushes : s.OnlyWaits (s.setRecRing true ((s.recRing true).push bs)) := .of_same rfl rfl rfl
  have writes : ∀ t : State, t.OnlyWaits (writeRecord t true) := fun t => by
    unfold writeRecord
    dsimp only
    split
    · exact .refl t
    · exact .enqueueWrite t _ _ _ _ _ _
  exact .ite (pushes.trans (writes _)) pushes

theorem makeRecord_onlyWaits (s : State) (r : FaultRecord) : s.OnlyWaits (makeRecord s r) :=
  .after (ringRecord_onlyWaits _ _)

theorem fabricRecord_onlyWaits (s : State) (i event s2 addr : Nat) : s.OnlyWaits (fabricRecord s i event s2 addr) :=
  .ite (.trans (.updSiphon s i (f := fun p => { p with linkRecAt := some s.now }) rfl) (makeRecord_onlyWaits _ _)) (.refl s)

theorem fabricRecord_form (s : State) (i event s2 addr : Nat) : ∃ siphons warden,
    fabricRecord s i event s2 addr = { s with siphons, warden } := by
  have made : ∀ u r, ∃ siphons warden, makeRecord (s.setSiphon i u) r = { s with siphons, warden } := fun u r => by
    obtain ⟨_, _, _, -, made⟩ := makeRecord_form (s.setSiphon i u) r
    exact ⟨_, _, made⟩
  unfold fabricRecord
  extract_lets p due
  by_cases now : due = true
  · rw [if_pos now]
    exact made _ _
  · rw [if_neg now]
    exact ⟨_, _, rfl⟩

/-! ### Fetches and checks of entries (03 R115-R122) -/

theorem startFetch_onlyWaits (s : State) (q : Nat) : s.OnlyWaits (startFetch s q) :=
  .ite (.trans (.updQueue s q (f := fun x => { x with
    batchId := _, batch := some { id := _, start := _, entries := _, left := _ } }) rfl) (.enqueueRead _ _ _ _ _ _)) (.refl s)

theorem refill_onlyWaits (s : State) (q : Nat) : s.OnlyWaits (refill s q) := .ite (startFetch_onlyWaits s q) (.refl s)

theorem pulse_onlyWaits (s : State) (w : Nat) : s.OnlyWaits (pulse s w) :=
  .after (.foldl (fun t q => .ite (startFetch_onlyWaits t q) (.refl t)) _ _)

theorem setQState_onlyWaits (s : State) (q : Nat) (st : QState) : s.OnlyWaits (setQState s q st) :=
  .updQueue s q (by split <;> rfl)

theorem settleQueue_onlyWaits (s : State) (q : Nat) : s.OnlyWaits (settleQueue s q) := .ite (setQState_onlyWaits s q _) (.refl s)

theorem queueError_onlyWaits (s : State) (q cause index : Nat) : s.OnlyWaits (queueError s q cause index) := by
  have discards : ∀ t : State, t.OnlyWaits (discardUnstarted t q) := fun t => .updQueue t q rfl
  exact .trans (.ite (.refl s) (.ite (.trans (.updQueue s q (f := fun x => { x with enable := false }) rfl) (setQState_onlyWaits _ q _))
    (.trans (.updQueue s q (f := fun x => { x with enable := false, cause, errIndex := index }) rfl) (setQState_onlyWaits _ q _))))
    (discards _)

theorem foreignEntry_onlyWaits (s : State) (q : Nat) (b : Buffered) : s.OnlyWaits (foreignEntry s q b) := by
  have pops : s.OnlyWaits (popBuffered s q) := .updQueue s q rfl
  unfold foreignEntry
  dsimp only
  obtain ⟨_, frozen⟩ := freezeAgent_form { popBuffered s q with
    ops := (popBuffered s q).ops ++ [{ q, c := b.count, desc := b.desc, ended := some codeForeign }] } b.desc.agent causeForeign
  rw [frozen]
  exact pops.trans (.of_same rfl rfl rfl)

theorem checkHead_onlyWaits (q fuel : Nat) (s : State) : s.OnlyWaits (checkHead q fuel s) := by
  induction fuel generalizing s with
  | zero => exact .refl s
  | succ fuel ih =>
    unfold checkHead
    split
    · exact .refl s
    refine .ite (.refl s) ?_
    split
    · exact .updQueue s q rfl
    · exact .ite (.refl s) (.trans (.trans (foreignEntry_onlyWaits s q _) (refill_onlyWaits _ q)) (ih _))
    · exact queueError_onlyWaits s q _ _
    · exact .trans (.updQueue s q rfl) (.enqueueRead _ _ _ _ _ _)

theorem checkQueue_onlyWaits (s : State) (q : Nat) : s.OnlyWaits (checkQueue s q) := checkHead_onlyWaits q 17 s

/-! ### Signals (08 R310-R317) -/

theorem putCounter_onlyWaits (s : State) (n : Nat) (old new : Counter) : s.OnlyWaits (putCounter s n old new) :=
  .ite (.after (pulse_onlyWaits _ _)) (.of_same rfl rfl rfl)

theorem rotateCredits_onlyWaits (s : State) (o : Op) (fuel : Nat) : s.OnlyWaits (rotateCredits s o fuel) := by
  induction fuel generalizing s o with
  | zero => exact .refl s
  | succ fuel ih => exact .ite (.trans (.ite (.sendTo s _ _) (.refl s)) (.after (ih _ _))) (.refl s)

theorem releaseWaiter_onlyWaits (s : State) (w : Waiter) : s.OnlyWaits (releaseWaiter s w) := by
  unfold releaseWaiter
  extract_lets left src taken released
  have takes : s.OnlyWaits taken :=
    .trans (t := left) (.of_same rfl rfl rfl) (.ite (.refl left) (.ite (.of_same rfl rfl rfl) (putCounter_onlyWaits left _ _ _)))
  have counted : s.OnlyWaits released := takes.trans (.of_same rfl rfl rfl)
  refine .ite ?_ (takes.trans (.of_same rfl rfl rfl))
  split
  · exact counted.trans (rotateCredits_onlyWaits _ _ _)
  · exact counted

theorem parkOrRelease_onlyWaits (s : State) (w : Waiter) : s.OnlyWaits (parkOrRelease s w) :=
  have parks : s.OnlyWaits (s.updSync fun y => { y with waiters := y.waiters ++ [w] }) := .of_same rfl rfl rfl
  .ite (parks.trans (releaseWaiter_onlyWaits _ w)) parks

theorem rotateWait_onlyWaits (q c fuel : Nat) (s : State) : s.OnlyWaits (rotateWait s q c fuel) := by
  induction fuel generalizing s with
  | zero => exact .refl s
  | succ fuel ih =>
    unfold rotateWait
    split
    · exact .refl s
    · exact .ite ((parkOrRelease_onlyWaits s _).trans (ih _)) (.refl s)

theorem checkWaiters_onlyWaits (s : State) (n : Nat) : s.OnlyWaits (checkWaiters s n) :=
  .trans (.foldl (fun t w => .ite (releaseWaiter_onlyWaits t w) (.refl t)) _ s)
    (.foldl (fun t _ => .ite (rotateWait_onlyWaits _ _ _ t) (.refl t)) _ _)

theorem applySignal_onlyWaits (s : State) (n : Nat) (sub : Bool) (amount : Nat) (src : ChangeSrc) :
    s.OnlyWaits (applySignal s n sub amount src).1 := by
  rcases applySignal_cases s n sub amount src with ignored | put
  · rw [ignored]
    exact .of_same rfl rfl rfl
  · rw [put]
    exact .trans (t := signalPut s n sub amount src) (.trans (putCounter_onlyWaits s n _ _) (.of_same rfl rfl rfl))
      (checkWaiters_onlyWaits _ n)

theorem entrySignal_onlyWaits (s : State) (q c n : Nat) (sub : Bool) (amount kind : Nat) :
    s.OnlyWaits (entrySignal s q c n sub amount kind) :=
  have signals := applySignal_onlyWaits s n sub amount ⟨kind, s.me, q⟩
  .ite signals (signals.trans (queueError_onlyWaits _ q _ c))
/-! ### Waiting transfers taken out (04 R145, R172) -/

/-- A siphon without the waiting transfers that are not kept. -/
def SiphonSt.keeping (keep waits : Xfer → Bool) (p : SiphonSt) : SiphonSt :=
  SiphonSt.clearCredits { p with waiting := p.waiting.filter keep } waits

theorem SiphonSt.keeping_settled (keep waits : Xfer → Bool) (p : SiphonSt) : (p.keeping keep waits).settled = p.settled := rfl

theorem tabGet_keeping (keep waits : Xfer → Bool) (t : Tab SiphonSt) (i : Nat)
    (shown : (tabGet (fun _ => {}) t i).keeping keep waits ≠ {}) :
    tabGet (fun _ => {}) ((t.map fun y => (y.1, y.2.keeping keep waits)).filter fun y => y.2 != {}) i =
      (tabGet (fun _ => {}) t i).keeping keep waits := by
  induction t with
  | nil => rfl
  | cons y t ih =>
    obtain ⟨j, p⟩ := y
    by_cases e : j = i
    · have here : tabGet (fun _ => ({} : SiphonSt)) ((j, p) :: t) i = p := if_pos e
      rw [here] at shown ⊢
      rw [List.map_cons, List.filter_cons_of_pos (by simpa using shown)]
      exact if_pos e
    · have there : tabGet (fun _ => ({} : SiphonSt)) ((j, p) :: t) i = tabGet (fun _ => {}) t i := if_neg e
      rw [there] at shown ⊢
      rw [List.map_cons, List.filter_cons]
      split
      · exact (if_neg e).trans (ih shown)
      · exact ih shown

/-- Of a siphon that has more to show than waiting transfers, the rest stays. -/
theorem keepWaiting_settled {s : State} {i : Nat} (shows : (s.siphon i).settled ≠ ({} : SiphonSt).settled) (keep : Xfer → Bool) :
    ((s.keepWaiting keep).siphon i).settled = (s.siphon i).settled := by
  have shown : (s.siphon i).keeping keep s.awaits ≠ {} := fun reset =>
    shows (((s.siphon i).keeping_settled keep s.awaits).symm.trans (congrArg SiphonSt.settled reset))
  have kept : (s.keepWaiting keep).siphon i = (s.siphon i).keeping keep s.awaits := tabGet_keeping keep s.awaits s.siphons i shown
  rw [kept, SiphonSt.keeping_settled]

/-! ### Entries after an update -/

/-- What an update of an entry keeps of each entry is found again in every one. -/
theorem State.op?_updOp_map {α : Type} (s : State) (q c : Nat) {f : Op → Op} {p : Op → α}
    (named : ∀ o, (f o).q = o.q ∧ (f o).c = o.c)
    (keep : ∀ o, p (f o) = p o) (r d : Nat) : ((s.updOp q c f).op? r d).map p = (s.op? r d).map p := by
  by_cases own : r = q ∧ d = c
  · obtain ⟨rfl, rfl⟩ := own
    rw [State.op?_updOp s r d f named, Option.map_map]
    exact congrArg (fun g => (s.op? r d).map g) (funext keep)
  · rw [State.op?_updOp_other s f named own]

/-- Transfers may come to wait, and each entry runs or has ended as before. -/
structure State.Continues (s t : State) : Prop where
  waits : s.OnlyWaits t
  ended : ∀ q c, (t.op? q c).map Op.ended = (s.op? q c).map Op.ended

namespace State.Continues

theorem refl (s : State) : s.Continues s := ⟨.refl s, fun _ _ => rfl⟩

theorem trans {s t u : State} (h : s.Continues t) (k : t.Continues u) : s.Continues u :=
  ⟨h.waits.trans k.waits, fun q c => (k.ended q c).trans (h.ended q c)⟩

theorem ite {s t u : State} {c : Prop} [Decidable c] (yes : s.Continues t) (no : s.Continues u) :
    s.Continues (if c then t else u) := by
  split
  · exact yes
  · exact no

theorem updOp (s : State) (q c : Nat) {f : Op → Op} (named : ∀ o, (f o).q = o.q ∧ (f o).c = o.c := by exact fun _ => ⟨rfl, rfl⟩)
    (keep : ∀ o, (f o).ended = o.ended := by exact fun _ => rfl) : s.Continues (s.updOp q c f) :=
  ⟨.of_same rfl rfl rfl, s.op?_updOp_map q c named keep⟩

theorem enqueueWrite (s : State) (cls queue addr : Nat) (data : List Byte) (via : Nat → Nat) (pur : Nat → Purpose) :
    s.Continues (enqueueWrite s cls queue addr data via pur) :=
  ⟨.enqueueWrite s _ _ _ _ _ _, fun q c => congrArg _ (State.op?_congr (enqueueWrite_ops s _ _ _ _ _ _) q c)⟩

end State.Continues

/-- 07 R293: the writes that finish a commit unit. -/
theorem writeStHeader_continues (s : State) (o : Op) (upto : Nat) (torn : Bool) : s.Continues (writeStHeader s o upto torn) := by
  unfold writeStHeader putState
  extract_lets noted
  have notes : s.Continues noted := .ite (.updOp s o.q o.c) (.refl s)
  exact notes.trans (.enqueueWrite noted _ _ _ _ _ _)

theorem continueUnit_continues (s : State) (q c : Nat) : s.Continues (continueUnit s q c) := by
  unfold continueUnit
  split
  · exact .refl s
  refine .ite (.refl s) ?_
  split
  · exact .ite (.refl s) (.trans (.updOp s q c) (writeStHeader_continues _ _ _ _))
  · exact .ite (.refl s) (.ite (.trans (.updOp s q c) (writeStHeader_continues _ _ _ _)) (.updOp s q c))
  · exact .refl s

/-! ### A failed payload transfer (12 R457) -/

/-- What follows for the commit unit of an entry of which a transfer has failed (07 R293). -/
def unitFailed (s : State) (q c : Nat) (unit : Bool) : State :=
  continueUnit (s.updOp q c fun o => { o with upd := { o.upd with tornDue := o.upd.tornDue || unit } }) q c

theorem unitFailed_continues (s : State) (q c : Nat) (unit : Bool) : s.Continues (unitFailed s q c unit) :=
  .trans (.updOp s q c) (continueUnit_continues _ q c)

theorem State.Continues.ended_op? {s t : State} (h : s.Continues t) {q c : Nat} {o : Op} (found : s.op? q c = some o) :
    ∃ u, t.op? q c = some u ∧ u.ended = o.ended := by
  have same := h.ended q c
  rw [found] at same
  cases found' : t.op? q c with
  | none => rw [found'] at same; cases same
  | some u => rw [found'] at same; exact ⟨u, rfl, Option.some.inj same⟩

theorem State.OnlyWaits.group {s t : State} (h : s.OnlyWaits t) (g : Nat) : t.group g = s.group g := by
  rw [State.group, State.group, h.groups]

theorem writeDump_sameStanding (s : State) (reason group : Nat) : s.SameStanding (writeDump s reason group).1 := by
  obtain ⟨_, written⟩ := enqueueWrite_form (s.updSync fun y => { y with dumpBusy := true }) 3 257 s.sync.dumpAddr
    (dumpBytes s reason group) siphonOf fun _ => .dump
  unfold writeDump
  split
  · rw [written]
    exact ⟨rfl, rfl, fun _ => rfl, fun _ => rfl⟩
  · exact ⟨rfl, rfl, fun _ => rfl, fun _ => rfl⟩

/-- 08 R338: a unit fault halts a group that runs. -/
theorem haltOnFault_haltedFor {s : State} {g : Nat} (cause : Nat) (st : Op → Nat) (valid : (s.gr g).valid = true)
    (runs : (s.group g).halted = false) : s.HaltedFor (haltOnFault s g cause st) g cause := by
  rw [haltOnFault, if_neg (by simp [valid, runs])]
  refine .trans (.trans (.trans (haltGroup_haltedFor cause st valid runs) (sendHalt_sameStanding _ g cause []))
    (writeDump_sameStanding _ 2 g)) ?_
  exact ⟨rfl, rfl, fun _ => rfl, fun _ => rfl⟩

theorem endedEarly_siphons (s : State) (q c st : Nat) (torn : Bool) :
    ∃ keep, (endedEarly s q c st torn).siphons = (s.keepWaiting keep).siphons := ⟨_, rfl⟩

section
variable {s : State} {q c : Nat} {o : Op} (unit : Bool) (found : s.op? q c = some o) (runs : o.ended = none)
include found runs

theorem entryFails_runs : entryFails s q c unit = unitFailed (if isGroupWide o.desc.opcode then
    haltOnFault s o.desc.group haltFault (endFaultOf o.num) else endOp s q c codeFault) q c unit := by
  unfold entryFails
  rw [found]
  dsimp only
  rw [runs, Option.isSome_none, if_neg Bool.false_ne_true]
  rfl

theorem entryFails_owed (g : Nat) : ((entryFails s q c unit).group g).resumeDue = (s.group g).resumeDue := by
  have kept : s.KeepsTests (if isGroupWide o.desc.opcode then
      haltOnFault s o.desc.group haltFault (endFaultOf o.num) else endOp s q c codeFault) :=
    .ite (haltOnFault_keepsTests s _ _ _) (endOp_keepsTests s q c _)
  rw [entryFails_runs unit found runs, (unitFailed_continues _ q c unit).waits.group, kept.owed]

/-- An entry that is not group-wide ends with FAULT. -/
theorem entryFails_faults (local_ : isGroupWide o.desc.opcode = false) (open_ : s.past o = false) :
    ∃ u, (entryFails s q c unit).op? q c = some u ∧ u.ended = some codeFault := by
  obtain ⟨torn, ends⟩ := endOp_ends_op? codeFault found open_ runs
  have ended := (ends q c).trans (endedEarly_op?_same found codeFault torn)
  rw [entryFails_runs unit found runs, local_, if_neg Bool.false_ne_true]
  exact (unitFailed_continues _ q c unit).ended_op? ended

theorem endOp_siphons (open_ : s.past o = false) (st : Nat) : ∃ keep, (endOp s q c st).siphons = (s.keepWaiting keep).siphons := by
  obtain ⟨torn, ends⟩ := endOp_ends st found open_ runs
  obtain ⟨keep, early⟩ := endedEarly_siphons s q c st torn
  have resumes : ∀ t : State, (refreshResume t q).siphons = t.siphons := fun _ => rfl
  rw [ends, resumes]
  split
  · obtain ⟨_, timed⟩ := refreshTimer_groups ((endedEarly s q c st torn).updGroup o.desc.group fun x =>
      { x with marking := none, markOp := none }) o.desc.group
    rw [timed]
    exact ⟨keep, early⟩
  · exact ⟨keep, early⟩

theorem entryFails_settled (local_ : isGroupWide o.desc.opcode = false) (open_ : s.past o = false) {i : Nat}
    (shows : (s.siphon i).settled ≠ ({} : SiphonSt).settled) :
    ((entryFails s q c unit).siphon i).settled = (s.siphon i).settled := by
  obtain ⟨keep, siphons⟩ := endOp_siphons found runs open_ codeFault
  rw [entryFails_runs unit found runs, local_, if_neg Bool.false_ne_true, (unitFailed_continues _ q c unit).waits.siphon,
    State.siphon_congr siphons, keepWaiting_settled shows]

/-- A group-wide entry halts its group. -/
theorem entryFails_halts (wide : isGroupWide o.desc.opcode = true) (valid : (s.gr o.desc.group).valid = true)
    (goes : (s.group o.desc.group).halted = false) : ((entryFails s q c unit).group o.desc.group).halted = true ∧
      ((entryFails s q c unit).group o.desc.group).haltCause = haltFault := by
  have halted := haltOnFault_haltedFor haltFault (endFaultOf o.num) valid goes
  rw [entryFails_runs unit found runs, wide, if_pos rfl, (unitFailed_continues _ q c unit).waits.group]
  exact ⟨halted.halted, halted.cause⟩

end
@[simp] theorem State.plain_queue (s t : State) (q : Nat) : (State.plain s t).queue q = t.queue q := rfl

theorem State.group_congr {s t : State} (h : t.groups = s.groups) (g : Nat) : t.group g = s.group g := by
  rw [State.group, State.group, h]

/-! ### Responses (12 R454, R456, R457) -/

/-- Beside a siphon that now is `p`, at most a record of the event has been made. -/
structure State.Noted (s u : State) (i : Nat) (p : SiphonSt) : Prop where
  rest : ∃ siphons warden, u = { s with siphons, warden }
  own : (u.siphon i).settled = p.settled

theorem State.noted_setSiphon (s : State) (i : Nat) (p : SiphonSt) : s.Noted (s.setSiphon i p) i p :=
  ⟨⟨_, _, rfl⟩, congrArg _ (State.siphon_setSiphon s i p)⟩

theorem State.noted_record (s : State) (i event s2 addr : Nat) (p : SiphonSt) :
    s.Noted (fabricRecord (s.setSiphon i p) i event s2 addr) i p := by
  obtain ⟨_, _, form⟩ := fabricRecord_form (s.setSiphon i p) i event s2 addr
  refine ⟨⟨_, _, form⟩, ?_⟩
  rw [(fabricRecord_onlyWaits _ i event s2 addr).siphon, State.siphon_setSiphon]

/-- A siphon on which a response has come: its tag is free. -/
def SiphonSt.answered (p : SiphonSt) (tag : Nat) : SiphonSt := { p with out := p.out.filter fun y => y.1 != tag }

theorem failAll_eq {s : State} (fills : s.cache.fills = []) (i tag : Nat) (x : Xfer) : failAll s i tag x = xferFails s i x := by
  have none_ : takeFill s i tag = (s, none) := by simp [takeFill, fills]
  rw [failAll, none_]
  rfl

theorem faultAll_eq {s : State} (fills : s.cache.fills = []) (i tag : Nat) (x : Xfer) :
    faultAll s i tag x = if x.pur.entry.isSome then pauseOn s i x else xferFails s i x := by
  have none_ : takeFill s i tag = (s, none) := by simp [takeFill, fills]
  rw [faultAll, failAll_eq fills, none_]
  rfl

/-- A transfer is outstanding under a tag whose request is not on offer any more. -/
structure SiphonSt.Outstanding (p : SiphonSt) (tag : Nat) (x : Xfer) : Prop where
  found : p.out.find? (fun y => y.1 == tag) = some (tag, x)
  accepted : p.offered ≠ some tag

theorem SiphonSt.Outstanding.find {p : SiphonSt} {tag : Nat} {x : Xfer} (h : p.Outstanding tag x) :
    (p.out.find? fun y => y.1 == tag && p.offered != some tag) = some (tag, x) := by
  have accepted : (p.offered != some tag) = true := by simpa using h.accepted
  simpa only [accepted, Bool.and_true] using h.found

theorem SiphonSt.find_none {p : SiphonSt} {tag : Nat} (none_ : (∀ y ∈ p.out, y.1 ≠ tag) ∨ p.offered = some tag) :
    (p.out.find? fun y => y.1 == tag && p.offered != some tag) = none := by
  rw [List.find?_eq_none]
  rcases none_ with out | offered
  · exact fun y mem => by simp [out y mem]
  · exact fun y _ => by simp [offered]

theorem SiphonSt.unlost {p : SiphonSt} {tag : Nat} (kept : ∀ y ∈ p.lost, y.1 ≠ tag) : (p.lost.any fun y => y.1 == tag) = false :=
  List.any_eq_false.mpr fun y mem => by simpa using kept y mem

section
variable {s : State} {i tag : Nat}

theorem takeResponse_lost (status : Nat) (block : List Byte) (lost : ∃ y ∈ (s.siphon i).lost, y.1 = tag) :
    takeResponse s i tag status block =
      s.setSiphon i { s.siphon i with lost := (s.siphon i).lost.filter fun y => y.1 != tag } :=
  if_pos (by simpa using lost)

variable (kept : ∀ y ∈ (s.siphon i).lost, y.1 ≠ tag)
include kept

theorem takeResponse_stray (status : Nat) (block : List Byte)
    (none_ : (∀ y ∈ (s.siphon i).out, y.1 ≠ tag) ∨ (s.siphon i).offered = some tag) :
    takeResponse s i tag status block = s.setSiphon i { s.siphon i with stray := min 255 ((s.siphon i).stray + 1) } := by
  unfold takeResponse
  dsimp only
  rw [if_neg (by simp [SiphonSt.unlost kept]), SiphonSt.find_none none_]
  rfl

variable {x : Xfer} (outstanding : (s.siphon i).Outstanding tag x)
include outstanding

theorem takeResponse_ok (block : List Byte) :
    takeResponse s i tag 0 block = xferDone (s.setSiphon i ((s.siphon i).answered tag)) i tag x block := by
  unfold takeResponse
  dsimp only
  rw [if_neg (by simp [SiphonSt.unlost kept]), outstanding.find]
  rfl

theorem takeResponse_fault (block : List Byte) : takeResponse s i tag 1 block =
    faultAll (s.setSiphon i { (s.siphon i).answered tag with faults := min 65535 ((s.siphon i).faults + 1) }) i tag x := by
  unfold takeResponse
  dsimp only
  rw [if_neg (by simp [SiphonSt.unlost kept]), outstanding.find]
  rfl

theorem takeResponse_error {status : Nat} (error : 2 ≤ status) (block : List Byte) : takeResponse s i tag status block =
    failAll (fabricRecord (s.setSiphon i { (s.siphon i).answered tag with errors := min 65535 ((s.siphon i).errors + 1) }) i 6 status
      x.addr) i tag x := by
  unfold takeResponse
  dsimp only
  rw [if_neg (by simp [SiphonSt.unlost kept]), outstanding.find]
  dsimp only
  rw [if_neg (by omega), if_neg (by omega)]
  rfl

variable (fills : s.cache.fills = [])
include fills

/-- A response with an error is counted, and its transfer fails. -/
theorem takeResponse_fails {status : Nat} (error : 2 ≤ status) (block : List Byte) : ∃ u, s.Noted u i
      { (s.siphon i).answered tag with errors := min 65535 ((s.siphon i).errors + 1) } ∧
    takeResponse s i tag status block = xferFails u i x := by
  have noted := s.noted_record i 6 status x.addr { (s.siphon i).answered tag with errors := min 65535 ((s.siphon i).errors + 1) }
  refine ⟨_, noted, ?_⟩
  rw [takeResponse_error kept outstanding error, failAll_eq]
  obtain ⟨_, _, form⟩ := noted.rest
  rw [form]
  exact fills

/-- Where the transfer is of no entry, a page fault fails it as well. -/
theorem takeResponse_fails_alike {status : Nat} (error : 1 ≤ status) (block : List Byte) (apart : x.pur.entry = none) :
    ∃ u p, s.Noted u i p ∧ takeResponse s i tag status block = xferFails u i x := by
  by_cases fault : status = 1
  · subst fault
    refine ⟨_, _, s.noted_setSiphon i { (s.siphon i).answered tag with faults := min 65535 ((s.siphon i).faults + 1) }, ?_⟩
    rw [takeResponse_fault kept outstanding, faultAll_eq (by exact fills), apart]
    rfl
  · obtain ⟨u, noted, fails⟩ := takeResponse_fails kept outstanding fills (status := status) (by omega) block
    exact ⟨u, _, noted, fails⟩

end

/-- A response with whose effect no group comes to be owed a resume mark. -/
theorem exec_fabricResponse {i : Fin 8} {tag : Fin 512} {status : Fin 4} {data : List Byte} {s t : State} (whole : data.length = 256)
    (owed : ∀ g, (s.group g).resumeDue = false) (taken : takeResponse s i tag status data = t)
    (same : ∀ g, (t.group g).resumeDue = (s.group g).resumeDue) :
    exec (.fabricResponse i tag status data) s = .next (State.plain s t) := by
  have wf : responseWf data = true := by simpa [responseWf] using whole
  show checked _ _ (finishPlain s (raiseDue (takeResponse s i tag status data))) = _
  rw [wf, checked_true, taken, raiseDue_of_none fun g => (same g).trans (owed g), finishPlain_eq]

theorem State.Noted.group {s u : State} {i : Nat} {p : SiphonSt} (h : s.Noted u i p) (g : Nat) : u.group g = s.group g := by
  obtain ⟨_, _, form⟩ := h.rest
  rw [form]
  rfl

theorem State.Noted.queue {s u : State} {i : Nat} {p : SiphonSt} (h : s.Noted u i p) (q : Nat) : u.queue q = s.queue q := by
  obtain ⟨_, _, form⟩ := h.rest
  rw [form]
  rfl

theorem State.Noted.op? {s u : State} {i : Nat} {p : SiphonSt} (h : s.Noted u i p) (q c : Nat) : u.op? q c = s.op? q c := by
  obtain ⟨_, _, form⟩ := h.rest
  rw [form]
  rfl

theorem State.Noted.ops {s u : State} {i : Nat} {p : SiphonSt} (h : s.Noted u i p) : u.ops = s.ops := by
  obtain ⟨_, _, form⟩ := h.rest
  rw [form]

theorem State.Noted.groups {s u : State} {i : Nat} {p : SiphonSt} (h : s.Noted u i p) : u.groups = s.groups := by
  obtain ⟨_, _, form⟩ := h.rest
  rw [form]

theorem State.Noted.past {s u : State} {i : Nat} {p : SiphonSt} (h : s.Noted u i p) (o : Op) : u.past o = s.past o := by
  rw [State.past, State.past, h.group]

/-! ### Head words (03 R106; 12 R457) -/

theorem tabInsert_tabInsert {α : Type} (t : Tab α) (k : Nat) (v w : α) : tabInsert (tabInsert t k v) k w = tabInsert t k w := by
  induction t with
  | nil => simp [tabInsert]
  | cons y t ih =>
    obtain ⟨j, u⟩ := y
    rcases Nat.lt_trichotomy j k with before | rfl | behind
    · simp [tabInsert, before, ih]
    · simp [tabInsert]
    · simp [tabInsert, Nat.not_lt_of_lt behind, (Nat.ne_of_lt behind).symm]

/-- Of two writes of a siphon that is in use the second stands. -/
theorem State.setSiphon_setSiphon (s : State) (i : Nat) {p r : SiphonSt} (first : p ≠ {}) (second : r ≠ {}) :
    (s.setSiphon i p).setSiphon i r = s.setSiphon i r := by
  unfold State.setSiphon
  dsimp only
  rw [tabSet, tabSet, tabSet, if_neg first, if_neg second, if_neg second, tabInsert_tabInsert]

theorem countDropped_setSiphon (s : State) (i : Nat) {p : SiphonSt} (used : p ≠ {}) :
    countDropped (s.setSiphon i p) i = s.setSiphon i { p with dropped := min 16383 (p.dropped + 1) } := by
  rw [countDropped, State.updSiphon, State.siphon_setSiphon, State.setSiphon_setSiphon _ _ used]
  intro reset
  have none_ : min 16383 (p.dropped + 1) = 0 := congrArg SiphonSt.dropped reset
  omega

section
variable {i : Fin 8} {tag : Fin 512} {status : Fin 4} {data : List Byte} {s : State} {x : Xfer} (whole : data.length = 256)
  (owed : ∀ g, (s.group g).resumeDue = false) (kept : ∀ y ∈ (s.siphon i).lost, y.1 ≠ tag.val)
include whole owed kept

theorem exec_fabricResponse_stray (none_ : (∀ y ∈ (s.siphon i).out, y.1 ≠ tag.val) ∨ (s.siphon i).offered = some tag.val) :
    exec (.fabricResponse i tag status data) s =
      .next (s.setSiphon i { s.siphon i with stray := min 255 ((s.siphon i).stray + 1) }) :=
  exec_fabricResponse whole owed (takeResponse_stray kept status data none_) fun _ => rfl

omit kept in
theorem exec_fabricResponse_lost (lost : ∃ y ∈ (s.siphon i).lost, y.1 = tag.val) : exec (.fabricResponse i tag status data) s =
    .next (s.setSiphon i { s.siphon i with lost := (s.siphon i).lost.filter fun y => y.1 != tag.val }) :=
  exec_fabricResponse whole owed (takeResponse_lost status data lost) fun _ => rfl

variable (outstanding : (s.siphon i).Outstanding tag x) (fills : s.cache.fills = [])
include outstanding

theorem exec_headWb_ok {q : Nat} (pur : x.pur = .headWb q) (ok : status.val = 0) : exec (.fabricResponse i tag status data) s =
    .next (s.setSiphon i { s.siphon i with out := (s.siphon i).out.filter fun y => y.1 != tag.val }) := by
  refine exec_fabricResponse whole owed (?_ : _ = s.setSiphon i ((s.siphon i).answered tag)) fun _ => rfl
  rw [ok, takeResponse_ok kept outstanding, xferDone, pur]

include fills

theorem exec_headWb_fault {q : Nat} (pur : x.pur = .headWb q) (fault : status.val = 1) : exec (.fabricResponse i tag status data) s =
    .next (s.setSiphon i { s.siphon i with
      out := (s.siphon i).out.filter fun y => y.1 != tag.val, faults := min 65535 ((s.siphon i).faults + 1)
      dropped := min 16383 ((s.siphon i).dropped + 1) }) := by
  have used : { (s.siphon i).answered tag with faults := min 65535 ((s.siphon i).faults + 1) } ≠ ({} : SiphonSt) := fun reset => by
    have none_ : min 65535 ((s.siphon i).faults + 1) = 0 := congrArg SiphonSt.faults reset
    omega
  refine exec_fabricResponse whole owed (?_ : _ = s.setSiphon i { (s.siphon i).answered tag with
    faults := min 65535 ((s.siphon i).faults + 1), dropped := min 16383 ((s.siphon i).dropped + 1) }) fun _ => rfl
  rw [fault, takeResponse_fault kept outstanding, faultAll_eq (by exact fills), pur]
  simp only [xferFails, pur]
  exact countDropped_setSiphon s i used

theorem exec_headWb_error {q : Nat} (pur : x.pur = .headWb q) (error : 2 ≤ status.val) : ∃ t,
    exec (.fabricResponse i tag status data) s = .next t ∧ (t.siphon i).out = ((s.siphon i).out.filter fun y => y.1 != tag.val) ∧
    (t.siphon i).errors = min 65535 ((s.siphon i).errors + 1) ∧ (t.siphon i).dropped = min 16383 ((s.siphon i).dropped + 1) ∧
    (t.siphon i).faults = (s.siphon i).faults ∧ t.ops = s.ops ∧ t.groups = s.groups := by
  obtain ⟨u, noted, fails⟩ := takeResponse_fails kept outstanding fills error data
  have drops : xferFails u i x = countDropped u i := by rw [xferFails, pur]
  refine ⟨_, exec_fabricResponse whole owed (fails.trans drops) fun g => ?_, ?_⟩
  · exact congrArg GroupSt.resumeDue (noted.group g)
  · rw [State.plain_siphon, countDropped, State.siphon_updSiphon_same]
    refine ⟨SiphonSt.kept_of_settled noted.own SiphonSt.out, SiphonSt.kept_of_settled noted.own SiphonSt.errors, ?_,
      SiphonSt.kept_of_settled noted.own SiphonSt.faults, noted.ops, noted.groups⟩
    have dropped := SiphonSt.kept_of_settled noted.own SiphonSt.dropped
    dsimp only
    rw [dropped]
    rfl

end
/-! ### Page faults (04 R165, R166) -/

@[simp] theorem refreshResume_ops (s : State) (q : Nat) : (refreshResume s q).ops = s.ops := State.updQueue_ops s q _

@[simp] theorem refreshResume_groups (s : State) (q : Nat) : (refreshResume s q).groups = s.groups := State.updQueue_groups s q _

@[simp] theorem refreshResume_siphons (s : State) (q : Nat) : (refreshResume s q).siphons = s.siphons := State.updQueue_siphons s q _

/-- An entry that a page fault has paused. -/
def Op.pausedBy (o : Op) (p : Pause) : Op := { o with pause := some p, pauses := o.pauses + 1, resumed := true }

/-- The state in which a page fault has paused an entry. -/
def pausing (s : State) (q c : Nat) (p : Pause) : State :=
  refreshResume ((s.updOp q c fun o => o.pausedBy p).keepWaiting fun _ => true) q

theorem pausing_groups (s : State) (q c : Nat) (p : Pause) : (pausing s q c p).groups = s.groups := by
  rw [pausing, refreshResume_groups]
  rfl

theorem pausing_op? {s : State} {q c : Nat} {o : Op} (found : s.op? q c = some o) (p : Pause) :
    (pausing s q c p).op? q c = some (o.pausedBy p) := by
  rw [pausing, State.op?_congr (refreshResume_ops _ q)]
  exact op?_updOp_found found (fun o => o.pausedBy p) fun _ => ⟨rfl, rfl⟩

theorem pausing_settled {s : State} {i : Nat} (shows : (s.siphon i).settled ≠ ({} : SiphonSt).settled) (q c : Nat) (p : Pause) :
    ((pausing s q c p).siphon i).settled = (s.siphon i).settled := by
  rw [pausing, State.siphon_congr (refreshResume_siphons _ q)]
  exact keepWaiting_settled (s := s.updOp q c fun o => o.pausedBy p) shows fun _ => true

/-- An entry that is not paused pauses. -/
theorem pauseOn_pauses {s : State} {x : Xfer} {q c j : Nat} {o : Op} (found : s.op? q c = some o) (entry : x.pur.entry = some (q, c))
    (runs : o.ended = none) (free : o.pause = none) (quiet : s.cache.notifyEn = false) :
    ∃ p : Pause, pauseOn s j x = pausing s q c p ∧ p.faulted = [x] ∧ p.siphon = j := by
  unfold pauseOn
  rw [entry]
  dsimp only
  rw [found]
  dsimp only
  rw [runs, free, Option.isSome_none, if_neg Bool.false_ne_true]
  refine ⟨_, if_neg ?_, rfl, rfl⟩
  show ¬ s.cache.notifyEn = true
  rw [quiet]
  exact Bool.false_ne_true

/-! ### Payload transfers that fail (04 R165; 12 R457) -/

section
variable {i : Fin 8} {tag : Fin 512} {status : Fin 4} {data : List Byte} {s : State} {x : Xfer} {o : Op} {q c off : Nat} {r : Region}
  (pur : x.pur = .payload q c r off) (found : s.op? q c = some o) (runs : o.ended = none)
include pur found runs

/-- A failed payload transfer of an entry, whatever has been noted beside it. -/
theorem State.Noted.payload_owed {u : State} {j : Nat} {p : SiphonSt} (noted : s.Noted u j p) (g : Nat) :
    ((xferFails u j x).group g).resumeDue = (s.group g).resumeDue := by
  have fails : xferFails u j x = entryFails u q c false := by rw [xferFails, pur]
  rw [fails, entryFails_owed false ((noted.op? q c).trans found) runs, noted.group]

/-- A COPY ends with FAULT. -/
theorem State.Noted.copy_faults {u : State} {j : Nat} {p : SiphonSt} (noted : s.Noted u j p) (copy : o.desc.opcode = 0x0D)
    (open_ : s.past o = false) (shows : p.settled ≠ ({} : SiphonSt).settled) : (∃ v, (xferFails u j x).op? q c = some v ∧
      v.ended = some 0x0A) ∧ ((xferFails u j x).siphon j).settled = p.settled := by
  have fails : xferFails u j x = entryFails u q c false := by rw [xferFails, pur]
  have local_ : isGroupWide o.desc.opcode = false := by rw [copy]; rfl
  have found' := (noted.op? q c).trans found
  have open' := (noted.past o).trans open_
  rw [fails]
  exact ⟨entryFails_faults false found' runs local_ open',
    (entryFails_settled false found' runs local_ open' (noted.own ▸ shows)).trans noted.own⟩

variable (whole : data.length = 256) (owed : ∀ g, (s.group g).resumeDue = false) (kept : ∀ y ∈ (s.siphon i).lost, y.1 ≠ tag.val)
  (outstanding : (s.siphon i).Outstanding tag x) (fills : s.cache.fills = [])
include whole owed kept outstanding fills

theorem exec_payload_copy (error : 2 ≤ status.val) (copy : o.desc.opcode = 0x0D) (open_ : s.past o = false) : ∃ t u,
    exec (.fabricResponse i tag status data) s = .next t ∧ t.op? q c = some u ∧ u.ended = some 0x0A ∧
    (t.siphon i).errors = min 65535 ((s.siphon i).errors + 1) := by
  obtain ⟨u, noted, fails⟩ := takeResponse_fails kept outstanding fills error data
  have shows : SiphonSt.settled { (s.siphon i).answered tag with errors := min 65535 ((s.siphon i).errors + 1) } ≠
      ({} : SiphonSt).settled := fun reset => by
    have none_ : min 65535 ((s.siphon i).errors + 1) = 0 := congrArg SiphonSt.errors reset
    omega
  obtain ⟨⟨v, ended, fault⟩, settled⟩ := noted.copy_faults pur found runs copy open_ shows
  exact ⟨_, v, exec_fabricResponse whole owed fails (noted.payload_owed pur found runs), ended, fault,
    SiphonSt.kept_of_settled settled SiphonSt.errors⟩

theorem exec_payload_groupWide (error : 2 ≤ status.val) (wide : isGroupWide o.desc.opcode = true)
    (valid : (s.gr o.desc.group).valid = true) (goes : (s.group o.desc.group).halted = false) : ∃ t,
    exec (.fabricResponse i tag status data) s = .next t ∧ (t.group o.desc.group).halted = true ∧
    (t.group o.desc.group).haltCause = 7 := by
  obtain ⟨u, noted, fails⟩ := takeResponse_fails kept outstanding fills error data
  have entry : xferFails u i x = entryFails u q c false := by rw [xferFails, pur]
  have valid' : (u.gr o.desc.group).valid = true := by rw [State.gr, noted.group]; exact valid
  have halts := entryFails_halts false ((noted.op? q c).trans found) runs wide valid' (by rw [noted.group]; exact goes)
  rw [← entry] at halts
  exact ⟨_, exec_fabricResponse whole owed fails (noted.payload_owed pur found runs), halts⟩

theorem exec_payload_pauses (fault : status.val = 1) (free : o.pause = none) (quiet : s.cache.notifyEn = false) : ∃ t u z,
    exec (.fabricResponse i tag status data) s = .next t ∧ t.op? q c = some u ∧ u.pause = some z ∧ z.faulted = [x] ∧
    z.siphon = i ∧ u.ended = none ∧ (t.siphon i).faults = min 65535 ((s.siphon i).faults + 1) := by
  have entry : x.pur.entry = some (q, c) := by rw [pur]; rfl
  generalize counted : { (s.siphon i).answered tag with faults := min 65535 ((s.siphon i).faults + 1) } = p
  have faults : p.faults = min 65535 ((s.siphon i).faults + 1) := by rw [← counted]
  have own : (s.setSiphon i p).siphon i = p := State.siphon_setSiphon s i p
  have found' : (s.setSiphon i p).op? q c = some o := (State.op?_congr (State.setSiphon_ops s i p) q c).trans found
  obtain ⟨z, pauses, faulted, siphon⟩ := pauseOn_pauses (j := i) found' entry runs free quiet
  have taken : takeResponse s i tag status data = pauseOn (s.setSiphon i p) i x := by
    rw [fault, takeResponse_fault kept outstanding, counted, faultAll_eq (by exact fills), entry]
    rfl
  have shows : ((s.setSiphon i p).siphon i).settled ≠ ({} : SiphonSt).settled := fun reset => by
    rw [own] at reset
    have none_ : p.faults = 0 := congrArg SiphonSt.faults reset
    omega
  have settled := pausing_settled shows q c z
  refine ⟨_, o.pausedBy z, z, exec_fabricResponse whole owed (taken.trans pauses) fun g => ?_, ?_, rfl, faulted, siphon, runs, ?_⟩
  · rw [State.group_congr (pausing_groups _ q c z), State.group_congr (State.setSiphon_groups s i p)]
  · rw [State.plain_op?, pausing_op? found']
  · rw [State.plain_siphon, SiphonSt.kept_of_settled settled SiphonSt.faults, own, faults]

end

/-! ### Descriptors and records that fail (03 R121; 12 R457) -/

theorem queueError_discards (s : State) (q cause index : Nat) : ((queueError s q cause index).queue q).batch = none ∧
    ((queueError s q cause index).queue q).buffered = [] := by
  unfold queueError
  dsimp only
  rw [discardUnstarted_queue]
  exact ⟨rfl, rfl⟩

/-- A queue that runs, and shows no cause yet, enters ERROR with one. -/
theorem queueError_running {s : State} {q : Nat} (running : (s.queue q).state = .running) (fresh : (s.queue q).cause = 0)
    (cause index : Nat) : ((queueError s q cause index).queue q).state = .error ∧
      ((queueError s q cause index).queue q).cause = cause ∧ ((queueError s q cause index).queue q).errIndex = index := by
  obtain ⟨state, first⟩ := queueError_failed s q cause index
  obtain ⟨-, shown⟩ := first (by simp [running]) (by simp [running])
  exact ⟨state (by simp [running]), shown fresh⟩

/-- The queue once the record of an entry has failed. -/
def QueueSt.unwritten (c : Nat) (x : QueueSt) : QueueSt := { x with
  failedWb := x.failedWb ++ [c], notify := x.notify.filter fun n => n.count != c
  holding := if x.holding == some c then none else x.holding }

theorem recordFailed_eq (s : State) (q c : Nat) : recordFailed s q c = queueError (s.updQueue q (QueueSt.unwritten c)) q 0x0B c := rfl

section
variable {i : Fin 8} {tag : Fin 512} {status : Fin 4} {data : List Byte} {s : State} {x : Xfer} {q : Nat}
  (whole : data.length = 256) (owed : ∀ g, (s.group g).resumeDue = false) (kept : ∀ y ∈ (s.siphon i).lost, y.1 ≠ tag.val)
  (outstanding : (s.siphon i).Outstanding tag x) (fills : s.cache.fills = []) (error : 1 ≤ status.val)
  (running : (s.queue q).state = .running) (fresh : (s.queue q).cause = 0)
include whole owed kept outstanding fills error running fresh

theorem exec_fetch_fails {id off : Nat} {b : Batch} (pur : x.pur = .fetch q id off) (batch : (s.queue q).batch = some b)
    (own : b.id = id) : ∃ t, exec (.fabricResponse i tag status data) s = .next t ∧ (t.queue q).state = .error ∧
      (t.queue q).cause = 0x0A ∧ (t.queue q).errIndex = (b.start + off / 64) % 2 ^ 32 ∧ (t.queue q).batch = none ∧
      (t.queue q).buffered = [] ∧ t.ops = s.ops := by
  obtain ⟨u, p, noted, fails⟩ := takeResponse_fails_alike kept outstanding fills error data (by rw [pur]; rfl)
  have queue := noted.queue q
  have errs : xferFails u i x = queueError u q 0x0A ((b.start + off / 64) % 2 ^ 32) := by
    rw [xferFails, pur]
    dsimp only
    rw [queue, batch]
    dsimp only
    rw [if_pos (by simpa using own)]
  obtain ⟨state, cause, index⟩ := queueError_running (s := u) (q := q) (by rw [queue, running]) (by rw [queue, fresh]) 0x0A
    ((b.start + off / 64) % 2 ^ 32)
  obtain ⟨none_, empty⟩ := queueError_discards u q 0x0A ((b.start + off / 64) % 2 ^ 32)
  refine ⟨_, exec_fabricResponse whole owed (fails.trans errs) fun g => ?_, state, cause, index, none_, empty, ?_⟩
  · rw [(queueError_onlyWaits u q _ _).group, noted.group]
  · rw [State.plain_ops, queueError_ops, noted.ops]

theorem exec_record_fails {c : Nat} (pur : x.pur = .record q c) : ∃ t, exec (.fabricResponse i tag status data) s = .next t ∧
    (t.queue q).state = .error ∧ (t.queue q).cause = 0x0B ∧ (t.queue q).errIndex = c ∧
    (t.queue q).head = (s.queue q).head ∧ t.ops = s.ops := by
  obtain ⟨u, p, noted, fails⟩ := takeResponse_fails_alike kept outstanding fills error data (by rw [pur]; rfl)
  have errs : xferFails u i x = queueError (u.updQueue q (QueueSt.unwritten c)) q 0x0B c := by
    rw [xferFails, pur]
    exact recordFailed_eq u q c
  have queue : (u.updQueue q (QueueSt.unwritten c)).queue q = (s.queue q).unwritten c := by
    rw [State.queue_updQueue_same, noted.queue]
  have waits := queueError_onlyWaits (u.updQueue q (QueueSt.unwritten c)) q 0x0B c
  obtain ⟨state, cause, index⟩ := queueError_running (s := u.updQueue q (QueueSt.unwritten c)) (q := q) (by rw [queue]; exact running)
    (by rw [queue]; exact fresh) 0x0B c
  refine ⟨_, exec_fabricResponse whole owed (fails.trans errs) fun g => ?_, ?_⟩
  · rw [waits.group, State.group_congr (State.updQueue_groups u q _), noted.group]
  · rw [State.plain_queue, State.plain_ops, waits.head, queue, queueError_ops, State.updQueue_ops, noted.ops]
    exact ⟨state, cause, index, rfl, rfl⟩

end

/-! ### A record that has been written (03 R106) -/

/-- HEAD passes the one entry that has finished. -/
theorem advanceHead_once {s : State} {q : Nat} (finished : (s.queue q).finished = [(s.queue q).head]) (fuel : Nat) :
    advanceHead q (fuel + 2) s =
      s.setQueue q { s.queue q with head := inc32 (s.queue q).head, finished := [], wbDirty := true } := by
  have passes : advanceHead q (fuel + 2) s = advanceHead q (fuel + 1)
      (s.setQueue q { s.queue q with head := inc32 (s.queue q).head, finished := [], wbDirty := true }) := by
    rw [advanceHead, finished]
    simp
  rw [passes, advanceHead]
  exact if_neg (by simp)

/-- Where no other entry has finished, HEAD passes the one at it, and no transfer on its way and no group is concerned. -/
theorem recordVisible_passes {s : State} {q c : Nat} (head : (s.queue q).head = c) (none_ : (s.queue q).finished = []) :
    ∃ t : State, t.groups = s.groups ∧ t.siphons = s.siphons ∧ (t.queue q).head = inc32 c ∧ t.OnlyWaits (recordVisible s q c) := by
  unfold recordVisible
  extract_lets x due shown advanced signalled
  have own : shown.queue q = { x with
      finished := x.finished ++ [c], notify := x.notify.filter fun n => n.count != c
      holding := if x.holding == some c then none else x.holding } := State.queue_setQueue s q _
  have finished : (shown.queue q).finished = [(shown.queue q).head] := by
    rw [own]
    show (s.queue q).finished ++ [c] = [(s.queue q).head]
    rw [none_, head]
    rfl
  have advances : advanced = shown.setQueue q { shown.queue q with
      head := inc32 (shown.queue q).head, finished := [], wbDirty := true } := advanceHead_once finished _
  have refused : ∀ (t : State) n src, t.OnlyWaits (refuse t n src 1) := fun _ _ _ => .of_same rfl rfl rfl
  have signals : advanced.OnlyWaits signalled :=
    .foldl (fun t n => .ite (refused t _ _) (entrySignal_onlyWaits t q c n.counter false 1 kindNotify)) due advanced
  refine ⟨advanced, by rw [advances]; rfl, by rw [advances]; rfl, ?_, ((signals.trans (refill_onlyWaits _ q)).trans
    (checkQueue_onlyWaits _ q)).trans (settleQueue_onlyWaits _ q)⟩
  rw [advances, State.queue_setQueue, own, ← head]

/-- 03 R106: the record of the entry at HEAD is visible once its write has returned. -/
theorem exec_record_ok {i : Fin 8} {tag : Fin 512} {status : Fin 4} {data : List Byte} {s : State} {x : Xfer} {q c : Nat}
    (whole : data.length = 256) (owed : ∀ g, (s.group g).resumeDue = false) (kept : ∀ y ∈ (s.siphon i).lost, y.1 ≠ tag.val)
    (outstanding : (s.siphon i).Outstanding tag x) (pur : x.pur = .record q c) (ok : status.val = 0) (head : (s.queue q).head = c)
    (none_ : (s.queue q).finished = []) : ∃ t, exec (.fabricResponse i tag status data) s = .next t ∧
      (t.queue q).head = (c + 1) % 2 ^ 32 ∧ (t.siphon i).out = (s.siphon i).out.filter fun y => y.1 != tag.val := by
  obtain ⟨t, groups, siphons, passed, waits⟩ := recordVisible_passes (s := s.setSiphon i ((s.siphon i).answered tag)) head none_
  have taken : takeResponse s i tag status data = recordVisible (s.setSiphon i ((s.siphon i).answered tag)) q c := by
    rw [ok, takeResponse_ok kept outstanding, xferDone, pur]
  refine ⟨_, exec_fabricResponse whole owed taken fun g => ?_, ?_, ?_⟩
  · rw [waits.group, State.group_congr groups, State.group_congr (State.setSiphon_groups s i _)]
  · rw [State.plain_queue, waits.head, passed]
    rfl
  · have settled := waits.siphon i
    rw [State.siphon_congr siphons, State.siphon_setSiphon] at settled
    rw [State.plain_siphon]
    exact SiphonSt.kept_of_settled settled SiphonSt.out

/-! ### Timeouts (12 R456) -/

/-- A timeout with whose effect no group comes to be owed a resume mark. -/
theorem exec_fabricTimeout {i : Fin 8} {tag : Fin 512} {s t : State} (owed : ∀ g, (s.group g).resumeDue = false)
    (taken : timeOut s i tag = t) (same : ∀ g, (t.group g).resumeDue = (s.group g).resumeDue) :
    exec (.fabricTimeout i tag) s = .next (State.plain s t) := by
  show finishPlain s (raiseDue (timeOut s i tag)) = _
  rw [taken, raiseDue_of_none fun g => (same g).trans (owed g), finishPlain_eq]

/-- A siphon on which a transfer has timed out: its tag is lost. -/
def SiphonSt.losing (p : SiphonSt) (tag : Nat) (x : Xfer) : SiphonSt := { p.answered tag with lost := p.lost ++ [(tag, x)] }

theorem SiphonSt.losing_shows (p : SiphonSt) (tag : Nat) (x : Xfer) : (p.losing tag x).settled ≠ ({} : SiphonSt).settled :=
    fun reset => by
  have none_ : p.lost ++ [(tag, x)] = [] := congrArg SiphonSt.lost reset
  simp at none_

/-- The tag is not outstanding any more, and is lost. -/
theorem SiphonSt.losing_tags {p r : SiphonSt} {tag : Nat} {x : Xfer} (same : r.settled = (p.losing tag x).settled) :
    (∀ y ∈ r.out, y.1 ≠ tag) ∧ (tag, x) ∈ r.lost := by
  rw [SiphonSt.kept_of_settled same SiphonSt.out, SiphonSt.kept_of_settled same SiphonSt.lost]
  exact ⟨fun y mem => by simpa using (List.mem_filter.1 mem).2, List.mem_append_right _ List.mem_cons_self⟩

theorem timeOut_none {s : State} {i tag : Nat} (none_ : (∀ y ∈ (s.siphon i).out, y.1 ≠ tag) ∨ (s.siphon i).offered = some tag) :
    timeOut s i tag = s := by
  unfold timeOut
  dsimp only
  rw [SiphonSt.find_none none_]

theorem timeOut_late {s : State} {i tag : Nat} {x : Xfer} (outstanding : (s.siphon i).Outstanding tag x) (fills : s.cache.fills = [])
    (late : x.at_ + s.fabricTimeoutUs * 1000 ≤ s.now) : ∃ u, s.Noted u i ((s.siphon i).losing tag x) ∧
      timeOut s i tag = xferFails u i x := by
  have noted := s.noted_record i 7 tag x.addr ((s.siphon i).losing tag x)
  refine ⟨_, noted, ?_⟩
  unfold timeOut
  dsimp only
  rw [outstanding.find]
  dsimp only
  rw [if_pos late]
  refine failAll_eq ?_ i tag x
  obtain ⟨_, _, form⟩ := noted.rest
  exact (congrArg (fun t : State => t.cache.fills) form).trans fills

section
variable {i : Fin 8} {tag : Fin 512} {s : State} (owed : ∀ g, (s.group g).resumeDue = false)
include owed

theorem exec_fabricTimeout_none (none_ : (∀ y ∈ (s.siphon i).out, y.1 ≠ tag.val) ∨ (s.siphon i).offered = some tag.val) :
    exec (.fabricTimeout i tag) s = .next s := exec_fabricTimeout owed (timeOut_none none_) fun _ => rfl

variable {x : Xfer}

theorem exec_fabricTimeout_early (found : (s.siphon i).out.find? (fun y => y.1 == tag.val) = some (tag.val, x))
    (early : s.now < x.at_ + s.fabricTimeoutUs * 1000) : exec (.fabricTimeout i tag) s = .next s := by
  by_cases offered : (s.siphon i).offered = some tag.val
  · exact exec_fabricTimeout_none owed (.inr offered)
  · refine exec_fabricTimeout owed ?_ fun _ => rfl
    have outstanding : (s.siphon i).Outstanding tag x := ⟨found, offered⟩
    unfold timeOut
    dsimp only
    rw [outstanding.find]
    exact if_neg (by omega)

variable (fills : s.cache.fills = []) (outstanding : (s.siphon i).Outstanding tag x)
  (late : x.at_ + s.fabricTimeoutUs * 1000 ≤ s.now)
include fills outstanding late

theorem exec_fabricTimeout_mirror {n : Nat} (pur : x.pur = .mirror n) : ∃ t, exec (.fabricTimeout i tag) s = .next t ∧
    (∀ y ∈ (t.siphon i).out, y.1 ≠ tag.val) ∧ (tag.val, x) ∈ (t.siphon i).lost ∧ t.sync.mirrorFailed = true ∧
    t.ops = s.ops ∧ t.groups = s.groups := by
  obtain ⟨u, noted, fails⟩ := timeOut_late outstanding fills late
  have mirror : xferFails u i x = u.updSync fun y => { y with mirrorFailed := true } := by rw [xferFails, pur]
  obtain ⟨out, lost⟩ := SiphonSt.losing_tags noted.own
  exact ⟨_, exec_fabricTimeout owed (fails.trans mirror) fun g => congrArg GroupSt.resumeDue (noted.group g), out, lost, rfl,
    noted.ops, noted.groups⟩

theorem exec_fabricTimeout_headWb {q : Nat} (pur : x.pur = .headWb q) : ∃ t, exec (.fabricTimeout i tag) s = .next t ∧
    (∀ y ∈ (t.siphon i).out, y.1 ≠ tag.val) ∧ (tag.val, x) ∈ (t.siphon i).lost ∧
    (t.siphon i).dropped = min 16383 ((s.siphon i).dropped + 1) ∧ t.ops = s.ops ∧ t.groups = s.groups := by
  obtain ⟨u, noted, fails⟩ := timeOut_late outstanding fills late
  have drops : xferFails u i x = countDropped u i := by rw [xferFails, pur]
  obtain ⟨out, lost⟩ := SiphonSt.losing_tags noted.own
  refine ⟨_, exec_fabricTimeout owed (fails.trans drops) fun g => congrArg GroupSt.resumeDue (noted.group g), ?_⟩
  rw [State.plain_siphon, countDropped, State.siphon_updSiphon_same]
  have dropped := SiphonSt.kept_of_settled noted.own SiphonSt.dropped
  refine ⟨out, lost, ?_, noted.ops, noted.groups⟩
  dsimp only
  rw [dropped]
  rfl

theorem exec_fabricTimeout_copy {q c off : Nat} {r : Region} {o : Op} (pur : x.pur = .payload q c r off) (found : s.op? q c = some o)
    (runs : o.ended = none) (copy : o.desc.opcode = 0x0D) (open_ : s.past o = false) : ∃ t u,
    exec (.fabricTimeout i tag) s = .next t ∧ t.op? q c = some u ∧ u.ended = some 0x0A ∧ (tag.val, x) ∈ (t.siphon i).lost := by
  obtain ⟨u, noted, fails⟩ := timeOut_late outstanding fills late
  obtain ⟨⟨v, ended, fault⟩, settled⟩ := noted.copy_faults pur found runs copy open_ (SiphonSt.losing_shows _ _ _)
  exact ⟨_, v, exec_fabricTimeout owed fails (noted.payload_owed pur found runs), ended, fault, (SiphonSt.losing_tags settled).2⟩

end

/-- Settles O32: a response, or a timeout, by what its tag stands for. -/
theorem responsesAndTimeouts : Obligations.ResponsesAndTimeouts := by
  unfold Obligations.ResponsesAndTimeouts
  refine ⟨?responses, ?timeouts⟩
  case responses =>
    rintro i tag status data s _ whole rfl owed
    refine ⟨exec_fabricResponse_stray whole owed, exec_fabricResponse_lost whole owed, ?headWb, ?payload, ?fetch, ?record⟩
    case headWb =>
      intro x q kept found accepted pur fills
      exact ⟨exec_headWb_ok whole owed kept ⟨found, accepted⟩ pur, exec_headWb_fault whole owed kept ⟨found, accepted⟩ fills pur,
        exec_headWb_error whole owed kept ⟨found, accepted⟩ fills pur⟩
    case payload =>
      intro x q c o r off kept found accepted pur fills entry runs
      exact ⟨exec_payload_copy pur entry runs whole owed kept ⟨found, accepted⟩ fills,
        exec_payload_groupWide pur entry runs whole owed kept ⟨found, accepted⟩ fills,
        exec_payload_pauses pur entry runs whole owed kept ⟨found, accepted⟩ fills⟩
    case fetch =>
      intro x q id off b kept found accepted pur fills error batch own running fresh
      exact exec_fetch_fails whole owed kept ⟨found, accepted⟩ fills error running fresh pur batch own
    case record =>
      intro x q c kept found accepted pur fills
      exact ⟨exec_record_ok whole owed kept ⟨found, accepted⟩ pur, fun error running fresh =>
        exec_record_fails whole owed kept ⟨found, accepted⟩ fills error running fresh pur⟩
  case timeouts =>
    intro i tag s owed fills
    refine ⟨exec_fabricTimeout_none owed, fun x => exec_fabricTimeout_early owed, fun x found late accepted => ?_⟩
    exact ⟨fun n => exec_fabricTimeout_mirror owed fills ⟨found, accepted⟩ late,
      fun q => exec_fabricTimeout_headWb owed fills ⟨found, accepted⟩ late,
      fun q c r off o => exec_fabricTimeout_copy owed fills ⟨found, accepted⟩ late⟩

end Sys2Proof.Machine
end
